-- ==== Sys2Proof/Word.lean ====
section
/-! DEFINITION. The word types of the model and the shape of its sparse tables. -/

namespace Sys2Proof

/-- Eight bits. -/
abbrev Byte := BitVec 8
/-- A register, a command word, a result word: 32 bits (R5, R423). -/
abbrev Word := BitVec 32
/-- DEVTIME and the DATA of an event: 64 bits (R526, the glossary of chapter 00). -/
abbrev Word64 := BitVec 64

/-- A sparse table: pairs of a key and a value with keys strictly rising, holding no pair whose
value is the table's value at rest for that key. Equal tables are equal lists. -/
abbrev Tab (α : Type) := List (Nat × α)

end Sys2Proof
end

