-- ==== Sys2Proof/Cargo.lean ====
section
/-! DEFINITION. What a command carries: the operand types of the constructors of `Instr`. -/

namespace Sys2Proof

/-- The eight modes by their codes (R484). -/
inductive Mode
  | slipway | boot | standalone | active | standby | drain | quiescent | test
  deriving DecidableEq, Repr, Inhabited

/-- Where a command packet came from: one of the 8 inbound rings, or the peer over the tether (R413, R338). -/
inductive Src
  | ring (n : Fin 8)
  | tether
  deriving DecidableEq, Repr, Inhabited

/-- The header of a started command: what R423's four words hold beside the opcode and the length,
which the row and its parameters give. -/
structure Hdr where
  src    : Src
  tag    : BitVec 16
  prio   : BitVec 3
  priv   : BitVec 2
  cpl    : Bool
  norply : Bool
  die    : BitVec 2
  slice  : BitVec 6
  seq    : Word
  deriving DecidableEq, Repr, Inhabited

/-- The boundary cells by ball group (R557): one bit a leg of the differential pairs, drivers and test receivers of line lanes, fabric
links, tether lanes, PCIe lanes and the slipway port; the referee's LVDS pairs; the single balls. The order of the 2,118 cells of the
register stands in the BSDL file only. -/
structure Cells where
  lineTx   : BitVec 256
  lineRx   : BitVec 256
  fabricTx : BitVec 384
  fabricRx : BitVec 384
  tetherTx : BitVec 16
  tetherRx : BitVec 16
  pcieTx   : BitVec 16
  pcieRx   : BitVec 16
  slipTx   : BitVec 2
  slipRx   : BitVec 2
  refTx    : Bool
  refRx    : Bool
  ilkOwn   : Bool
  osel     : Bool
  ppsOut   : Bool
  ilkPeer  : Bool
  pairSide : Bool
  slipReqN : Bool
  ppsIn    : Bool
  todIn    : Bool
  pmbClk   : Bool
  pmbData  : Bool
  resetN   : Bool
  perstN   : Bool
  refclk   : Bool
  pcieRef  : Bool
  deriving DecidableEq, Repr, Inhabited

/-- A patch record of a decrypted bundle (R502). -/
structure PatchRec where
  id    : Word
  pver  : Nat
  slot  : Nat
  addr  : Nat
  body  : List (BitVec 68)
  deriving DecidableEq, Repr, Inhabited

/-- What a start finds on its way through the steps of R490: the levels and results that the part
measures and no rule fixes. -/
structure StartReport where
  /-- SLIPREQ_N is low at the release of the reset (R517). -/
  slipReq : Bool
  /-- Causes of R501 that the verification of firmware banks A and B ends with; 0 is a pass. -/
  causeA : BitVec 4
  causeB : BitVec 4
  /-- A failure that no spare absorbs, at this phase (R492). -/
  failPhase : Option (Fin 7)
  /-- Physical FD slices and associative banks fenced in the fuse bank (R23, R167). -/
  fusedSlices : BitVec 17
  fusedBanks : BitVec 68
  /-- The newest full checkpoint meets an uncorrectable codeword (R369, R493). -/
  newestBad : Bool
  /-- The patch records of the running slot's image, where nothing is known of it (log 72). -/
  patches : List PatchRec
  /-- The patch slots of records of the running slot whose RTAG fails (R212, R502). -/
  badPatches : List Nat
  /-- The running microcode set fails its verification (R212). -/
  microcodeBad : Bool
  /-- Die-to-die lanes that fault at their training, by module, TD to FD, and lane (R33, R490). -/
  lanes : List (Fin 24 × Bool × Fin 64)
  /-- Pseudo-channels whose training makes a data-lane repair (true), or finds it exhausted or fails (R351, R360, R490). -/
  hbmLanes : List (Fin 4 × Fin 64 × Bool)
  /-- Duration of the start in ms (STARTSTAT.DURATION). -/
  durationMs : Nat
  deriving DecidableEq, Repr, Inhabited

/-- One frame of the peer's tether: R334's fields as the codewords carry them. -/
structure TetherFrame where
  ttype  : Byte
  flags  : Byte
  lseq   : Word
  ackseq : Word
  payload : List Byte
  tcrc   : Word
  deriving DecidableEq, Repr, Inhabited

/-- What a regulator answers to a poll (R569). -/
structure RailReading where
  milliVolt : Nat
  milliAmp  : Nat
  status    : BitVec 16
  deriving DecidableEq, Repr, Inhabited

/-- What the criteria of a port's own standard find (R50, R56, R73, R74): a lane without lock (PCS lane or FlexO lane), the
alignment-marker lock of the port, the faults; of a FlexE group its loss of frame and of multiframe and its mismatches; of an
OTUCn its loss of signal, frame and multiframe, its further section defects and backward indications by number, the path
defects and backward indications of a channel's ODU by number, and a frame with a section BIP-8 violation; and the lock
of one channel's own client, such as the PCS of a GMP client. -/
inductive PortDefect
  | laneLock (lane : Fin 8) | markerLock | localFault | remoteFault
  | flexeFrame | flexeMultiframe | flexeMap | flexeCalendar
  | otnSignal | otnFrame | otnMultiframe | otnSection (n : Nat) | otnSectionBack (n : Nat)
  | otnPath (chan : Fin 4096) (n : Nat) | otnPathBack (chan : Fin 4096) (n : Nat) | otnBip8
  | clientLock (chan : Fin 4096)
  deriving DecidableEq, Repr, Inhabited

/-- What the check of a line or a block finds (R356, R357). -/
inductive LineCheck
  | clean | corrected | uncorrectable
  deriving DecidableEq, Repr, Inhabited

/-- A logical ingress half's use in one window of the ferryman (R478): bytes, packets, and its
engines' issue cycles used, in percent. -/
structure SliceUse where
  bytes   : Nat
  packets : Nat
  cycles  : Nat
  deriving DecidableEq, Repr, Inhabited

/-- The direction of a die-to-die module (R34). -/
inductive Dir
  | fdToTd | tdToFd
  deriving DecidableEq, Repr, Inhabited

/-- What the reads of a packet's lookups and meters find beside the tables' content: words whose check cannot
correct them. -/
structure ReadFaults where
  /-- An LPM word on the lookup's path, by its address (R141). -/
  lpm   : Option Nat
  /-- The exact-match entry that the lookup reads (R150). -/
  exact : Bool
  /-- The result of the associative entry that wins (R191). -/
  asc   : Bool
  /-- The meter's word (R289). -/
  meter : Bool
  deriving DecidableEq, Repr, Inhabited

/-- One action instruction as a thread fetches and issues it: the thread, whether the parity of the fetched word
holds (R207, R215), the fields of R200, and what its lookup reads. -/
structure ActOp where
  thread : Nat
  parity : Bool
  d      : Fin 16
  a      : Fin 16
  b      : Fin 16
  i      : Bool
  imm    : Word
  flt    : ReadFaults
  deriving DecidableEq, Repr, Inhabited

/-- What the read of a queue's head packet finds: all well; the berth of its `i`-th run reads badly, as an uncorrectable SRAM chunk
or a failing BCRC (R238), or its link does (R239); its body's pointer fails its complement (R538), or the berth of the body's
`i`-th run reads badly (R238). -/
inductive HeadRead
  | good
  | berth (i : Nat)
  | link (i : Nat)
  | body
  | bodyBerth (i : Nat)
  deriving DecidableEq, Repr, Inhabited

end Sys2Proof
end

