-- ==== Sys2Proof/Syntax.lean ====
section
/-! DEFINITION. The commands of the block: one constructor of `Instr` for each row of
`spec/opcode_table.json`, in the table's order, with the operands the row carries. -/

namespace Sys2Proof

/-- The commands (opcode_table.json). A row that the host or the peer sends as a command packet carries the
header and the parameter words of R423, complement words taken out; every other row carries what arrives
on the wires, or what the step measures and no rule fixes. -/
inductive Instr
  /-- The tollhouse supply comes into range: everything resets, DEVTIME starts at 0, HOSTFLAG clears and a start begins. (R488) -/
  | tollhouseSupplyInRange (sideB railsOk slipReqN : Bool)
  /-- A RESET_N low of at least 1 µs resets every domain but the tollhouse, and a start begins at the rising edge. (R488) -/
  | resetNRelease (lowNs : Nat)
  /-- RAILS_OK falls for 1 µs or more while the tollhouse supply stays in range and acts as RESET_N held low. (R568) -/
  | railsOkFall (lowNs : Nat)
  /-- RAILS_OK rises and a start waiting after step 2 proceeds to step 3. (R568) -/
  | railsOkRise (r : StartReport)
  /-- PERST_N resets the PCIe endpoint only and sets EN of every ring to 0. (R488) -/
  | perstNAssert
  /-- The tollhouse watchdog is not refreshed for 100 ms and resets the device as RESET_N does. (R488) -/
  | watchdogExpire
  /-- Every 10 ms the firmware refreshes the tollhouse watchdog from a core that serves ring 0. (R489) -/
  | watchdogRefresh
  /-- A write of GO with ARM 0x5EA1 and KIND 1 to DEV_POWER_RESTART starts a cold restart 100 µs later. (R489) -/
  | restartCold
  /-- A write of GO with ARM 0x5EA1 and KIND 2 to DEV_POWER_RESTART starts a warm restart 100 µs later. (R489) -/
  | restartWarm
  /-- The start sequence brings the Yebel through its steps to BOOT with PHASE READY, or to SLIPWAY when SLIPREQ_N is low. (R490) -/
  | start (r : StartReport)
  /-- The reference fails qualification for 10 µs, the clocks hold over and the tollhouse alarm holds. (R473) -/
  | refclkLoss
  /-- The reference is qualified again and the PLLs relock without a phase step. (R473) -/
  | refclkRestore
  /-- A fast PLL loses lock, its domains stop and their packets are dropped. (R474) -/
  | pllLockLoss (pll : Fin 8)
  /-- A stopped PLL relocks and its domains restart, or it stays stopped after 3 failures in 1 s. (R474) -/
  | pllRelock (pll : Fin 8) (ok : Bool)
  /-- Every 100 µs the tollhouse compares the highest junction reading with WARN and TRIP. (R495) -/
  | thermalSample (reading : Int)
  /-- A rail outside its window for 10 µs logs event 0x00B and holds the alarm. (R496) -/
  | railOutOfWindow (rail : Fin 11)
  /-- Every 10 ms the tollhouse polls each regulator and logs event 0x00C on a fault or 3 missed polls. (R569) -/
  | pmbusPoll (rail : Fin 11) (answer : Option RailReading)
  /-- PMB_ALERT_N falls and the tollhouse reads STATUS_WORD within 100 µs. (R569) -/
  | pmbAlert (rail : Fin 11) (status : BitVec 16)
  /-- At start and every 24 h the ring oscillators are measured and a rail may be raised by one 5 mV step. (R570) -/
  | ageingMeasure (rail : Fin 3) (short : Nat)
  /-- A new ILK_PEER level is recognised after 3 equal samples. (R321) -/
  | ilkPeerChange (level : Bool)
  /-- ILK_OWN or OSEL reads back differently for 3 samples and an acting member drops the role. (R326) -/
  | ilkReadbackFault (osel : Bool)
  /-- The hold-off runs out and the member drives ILK_OWN high and starts acting. (R323) -/
  | interlockHoldoffExpire
  /-- Ten ms after a yield the member may claim the role again under AUTO. (R328) -/
  | yieldBlockExpire
  /-- A HEALTH frame is sent at every DEVTIME millisecond boundary, or soon after a change. (R330) -/
  | refereeHealthSend
  /-- A VERDICT frame is checked and, when valid, takes effect at its last bit. (R331) -/
  | refereeVerdictReceive (frame : Word64)
  /-- No valid verdict arrives within REF_TMO, the referee is lost and event 0x194 is logged. (R332) -/
  | refereeTimeout
  /-- A tether lane leaves service on loss of codeword lock, or re-enters after 1 ms of lock. (R333) -/
  | tetherLaneService (lane : Fin 8) (enter : Bool)
  /-- A status frame from the peer sets PEER_OK, PEER_ILK and the peer's CLAIM. (R335) -/
  | tetherStatus (f : TetherFrame)
  /-- A sweep frame overwrites meter and shaper buckets of the standby. (R337) -/
  | tetherBucketSweep (f : TetherFrame)
  /-- An OAM state frame replaces session state on the standby. (R397) -/
  | tetherOamState (f : TetherFrame)
  /-- A mirrored command arrives with PRIV 3 and is applied in tether order. (R338) -/
  | tetherMirroredCommand (f : TetherFrame)
  /-- The peer's reply to a mirrored command arrives and the acting member replies to its host. (R338) -/
  | tetherMirroredReply (f : TetherFrame)
  /-- An alignment frame carries a holder marker or an adopter's acceptance or refusal. (R341) -/
  | tetherAlignment (f : TetherFrame)
  /-- Manifest samples from the peer are paired with local samples and judged match or mismatch. (R342) -/
  | tetherManifestCheck (f : TetherFrame)
  /-- An acknowledgement frame, or a NAK that makes the sender resend from the replay buffer. (R334) -/
  | tetherAck (f : TetherFrame)
  /-- A Span handshake record lets the standby follow the acting member's resize. (R335) -/
  | tetherSpanHandshake (f : TetherFrame)
  /-- The standby applies mirrored counts at the start of its next multiframe. (R99) -/
  | standbySpanApply (g : Fin 32)
  /-- A tether gap stays open for 2 µs and a NAK is sent. (R334) -/
  | tetherGapTimeout
  /-- A status frame is sent every 10 µs in each direction. (R334) -/
  | tetherStatusSend
  /-- The acting member sends one bucket sweep per sweep period. (R337) -/
  | tetherSweepSend
  /-- After 100 µs without a good frame the tether is down and PEER_OK becomes 0. (R336) -/
  | tetherDownTimeout
  /-- After 1 ms of good status frames the tether is up. (R336) -/
  | tetherUp
  /-- No peer reply arrives within 1 ms, the acting member replies and DIVERGED sets. (R338) -/
  | mirrorReplyTimeout
  /-- The holder takes an origin marker at least 100 µs after alignment begins and sends T and P. (R341) -/
  | alignMarker (chan : Fin 4096) (t : Word64) (pos : BitVec 48)
  /-- One second after three refusals, alignment is retried. (R341) -/
  | alignRetryTimer (chan : Fin 4096)
  /-- A sample without a partner for 1 ms is discarded. (R342) -/
  | manifestSampleExpire
  /-- A self-test item runs its periodic check and sets or clears STFAIL. (R348) -/
  | standbySelftestRound (item : Fin 9) (pass : Bool)
  /-- A codeword decodes on a Span or tether lane and drives codeword lock and loss. (R65) -/
  | codewordReceive (tether : Bool) (lane : Fin 128) (ok : Bool) (corrected : Nat) (message : BitVec 5140)
  /-- In HUNT or CONFIRM a received data block is tested for a FAS hit that names a candidate. (R66) -/
  | spanBlockReceive (lane : Fin 128) (pos : Fin 4096) (oh : List Byte)
  /-- At each lane frame period the lane machine judges candidates and errored periods. (R68) -/
  | spanFramePeriodEnd (lane : Fin 128) (seen : List (Nat × BitVec 72))
  /-- An instance frame is checked for FAS, OHCRC, MFAS, identity, BIP, BDI and justification. (R69) -/
  | spanInstanceFrameReceive (port : Fin 128) (inst : Fin 64) (frame : List Byte)
  /-- A Span frame is sent with its justification action, BDI, handshake fields and payload. (R86) -/
  | spanFrameTransmit (port : Fin 128) (fill : Int)
  /-- Codeword lock held 1 ms clears dLOCW. (R72) -/
  | dlocwExitTimer (lane : Fin 128)
  /-- No codeword lock within 200 µs of ADMIN_UP enters dLOCW. (R72) -/
  | dlocwLockTimeout (lane : Fin 128)
  /-- The transmit lanes return to loop timing within 1 ms after lock returns. (R59) -/
  | holdoverExit (port : Fin 128)
  /-- After a justification-range holdover, loop timing returns once the clock stays within ±50 ppm for 1 s. (R88) -/
  | justHoldoverRelease (port : Fin 128)
  /-- At each DEVTIME second the degraded-signal rule judges the second and may enter or exit dDEG. (R74) -/
  | degSecondEnd (port : Fin 128)
  /-- An Ethernet, FlexE or OTN defect enters or exits by its standard's criteria. (R50) -/
  | portStandardDefect (port : Fin 128) (defect : PortDefect) (enter : Bool)
  /-- The far end acknowledges and the FlexE calendar switch is made, clearing PENDING. (R53) -/
  | flexeCalendarSwitch (port : Fin 128)
  /-- A changed ODUflex takes effect at the next OTUCn frame. (R53) -/
  | otnEntryCommit (port : Fin 128)
  /-- A frame of a channel is received, checked for size and FCS, numbered, hashed and handed to the gangway. (R54) -/
  | frameReceive (chan : Fin 4096) (units : Nat) (frame : List Byte)
  /-- A word of the group stream is read and drives header delineation and packet delivery. (R83) -/
  | spanWordReceive (g : Fin 32)
  /-- The deskew reader reads a group block at its read time or marks it lost. (R90) -/
  | spanBlockRead (g : Fin 32)
  /-- Delineation out of SYNC for 1 ms enters dGLOS. (R97) -/
  | dglosEntryTimer (g : Fin 32)
  /-- SYNC held 10 ms with no instance lost clears dGLOS. (R97) -/
  | dglosExitTimer (g : Fin 32)
  /-- No block lost for 10 ms clears dGPART. (R97) -/
  | dgpartExitTimer (g : Fin 32)
  /-- At multiframe S the transmitter starts the new calendar epoch. (R94) -/
  | spanSwitchMultiframe (g : Fin 32)
  /-- The receiver applies the new epoch from multiframe S. (R94) -/
  | spanResizeApplyRx (g : Fin 32)
  /-- At S + 1 removed slots turn idle and the handshake ends with event 0x064 or 0x066. (R94) -/
  | spanResizeDone (g : Fin 32)
  /-- No ACK arrives within RESIZE_TMO and the request ends with event 0x065. (R95) -/
  | spanResizeTimeout (g : Fin 32)
  /-- Creates, changes or removes one line port. (R52) -/
  | linePortCfg (h : Hdr) (p : List Word)
  /-- Returns the status of one line port. (R76) -/
  | lineStatus (h : Hdr) (p : List Word)
  /-- Creates, changes or removes one Span group. (R79) -/
  | spanGroupCfg (h : Hdr) (p : List Word)
  /-- Starts a capacity handshake for one direction of a group. (R94) -/
  | spanResize (h : Hdr) (p : List Word)
  /-- A staged packet enters its slice parser, is classified, looked up and handed to an action engine. (R113) -/
  | ingressDispatch (slice : Fin 16) (flt : ReadFaults)
  /-- A fragment entry reaches 2 ms and its held fragments become orphans. (R131) -/
  | fragEntryExpire (n : Nat)
  /-- The punt reason buckets and the aggregate bucket refill. (R127) -/
  | puntBucketRefill
  /-- Moves a range of buckets to a target slice. (R107) -/
  | gangwayMove (h : Hdr) (p : List Word)
  /-- A moving bucket's count reaches zero, its map entry changes and held packets enter the new slice. (R105) -/
  | gangwayMoveDrained (b : Fin 4096)
  /-- A move not drained 10 µs after hold start is abandoned. (R106) -/
  | gangwayMoveAbandon (b : Fin 4096)
  /-- A gated or powered-off domain completes its wake and returns to service. (R476) -/
  | domainWakeComplete (dom : Fin 64)
  /-- Opens the staging transaction by copying the current rule bank. (R121) -/
  | clsBegin (h : Hdr) (p : List Word)
  /-- Writes objects into the staging bank. (R122) -/
  | clsStage (h : Hdr) (p : List Word)
  /-- Switches rule versions at once or schedules the switch at a DEVTIME instant. (R123) -/
  | clsCommit (h : Hdr) (p : List Word)
  /-- Discards the staging bank and closes the transaction. (R125) -/
  | clsAbort (h : Hdr) (p : List Word)
  /-- At a scheduled instant every half switches its current rule bank and event 0x082 is logged. (R123) -/
  | clsSwitch
  /-- Action instruction: add. (R201) -/
  | add (x : ActOp)
  /-- Action instruction: subtract. (R201) -/
  | sub (x : ActOp)
  /-- Action instruction: bitwise and. (R201) -/
  | and (x : ActOp)
  /-- Action instruction: bitwise or. (R201) -/
  | or (x : ActOp)
  /-- Action instruction: bitwise exclusive or. (R201) -/
  | xor (x : ActOp)
  /-- Action instruction: logical shift left. (R201) -/
  | shl (x : ActOp)
  /-- Action instruction: logical shift right. (R201) -/
  | shr (x : ActOp)
  /-- Action instruction: load a zero-extended immediate. (R201) -/
  | movi (x : ActOp)
  /-- Action instruction: load the upper 32 bits. (R201) -/
  | movh (x : ActOp)
  /-- Action instruction: extract a bit field. (R201) -/
  | ext (x : ActOp)
  /-- Action instruction: insert a bit field. (R201) -/
  | ins (x : ActOp)
  /-- Action instruction: branch if equal. (R201) -/
  | beq (x : ActOp)
  /-- Action instruction: branch if not equal. (R201) -/
  | bne (x : ActOp)
  /-- Action instruction: branch if less, unsigned. (R201) -/
  | blt (x : ActOp)
  /-- Action instruction: branch if greater or equal, unsigned. (R201) -/
  | bge (x : ActOp)
  /-- Action instruction: unconditional branch. (R201) -/
  | jmp (x : ActOp)
  /-- Action instruction: read an input field into a register. (R199) -/
  | ldf (x : ActOp)
  /-- Action instruction: write a register into an output field. (R199) -/
  | stf (x : ActOp)
  /-- Action instruction: load header bytes from a layer. (R201) -/
  | ldh (x : ActOp)
  /-- Action instruction: CRC-32C hash of two registers. (R201) -/
  | hash (x : ActOp)
  /-- Action instruction: issue an exact-match lookup. (R201) -/
  | lke (x : ActOp)
  /-- Action instruction: issue an LPM lookup. (R201) -/
  | lkl (x : ActOp)
  /-- Action instruction: issue an associative search. (R201) -/
  | lka (x : ActOp)
  /-- Action instruction: meter the packet and colour it. (R288) -/
  | mtr (x : ActOp)
  /-- Action instruction: add to a flow and route counter pair. (R398) -/
  | cnt (x : ActOp)
  /-- Action instruction: append an egress edit. (R202) -/
  | edit (x : ActOp)
  /-- Action instruction: punt the packet or a copy to the host. (R126) -/
  | punt (x : ActOp)
  /-- Action instruction: end the program and forward the packet. (R201) -/
  | fwd (x : ActOp)
  /-- Action instruction: end the program and drop the packet. (R201) -/
  | drop (x : ActOp)
  /-- A lookup or meter result returns to a waiting thread. (R197) -/
  | actionLookupComplete (t : Nat)
  /-- An action engine fails an internal check, is retired and a spare takes its place. (R198) -/
  | engineCheckFail (slice : Fin 16) (egress : Bool) (threads : List Nat)
  /-- The background scrub reads a control-store word and repairs a parity failure. (R214) -/
  | csScrubRead (slice : Fin 16) (addr : BitVec 14) (word : BitVec 68)
  /-- Writes one action program into every physical slice. (R209) -/
  | actLoad (h : Hdr) (p : List Word)
  /-- Returns program instructions from the control store. (R211) -/
  | actRead (h : Hdr) (p : List Word)
  /-- At T0 + k × 2.5 ms a rollout step holds a logical slice's arrivals and egress. (R218) -/
  | rolloutStepStart
  /-- The old physical slice empties and the logical slice moves to the spare. (R218) -/
  | rolloutStepSwitch
  /-- The old physical slice is loaded and tested and becomes the spare, or is fenced. (R218) -/
  | rolloutStepReload (pass : Bool)
  /-- A released packet reaches its egress half, which runs its egress program and edits it. (R28) -/
  | egressDispatch (slice : Fin 16)
  /-- The framer sends a frame and takes any time-stamp action. (R387) -/
  | egressFrameTransmit (node : Fin 176)
  /-- A die-to-die flit is checked by FCRC and delivered or discarded with a NAK. (R37) -/
  | flitReceive (m : Fin 24) (dir : Dir) (flit : List Byte)
  /-- A module retrains after 8 failures of one FSEQ or exhausted lane repair. (R38) -/
  | d2dRetrain (m : Fin 24)
  /-- A retrain ends in service or retires the module. (R38) -/
  | d2dRetrainEnd (m : Fin 24) (ok : Bool) (lanes : List (Bool × Fin 64))
  /-- A PSEQ gap stays open 4 µs and is skipped. (R39) -/
  | d2dGapTimeout (slice : Fin 16)
  /-- The TD checks DCRC and QUEUE_N of an ingress descriptor and passes it to the crossbar. (R36) -/
  | ingressDescriptorReceive (desc : BitVec 256) (data : List Byte) (tail : Option Bool) (mapBad : Bool)
  /-- Inserts a batch of exact-match entries. (R151) -/
  | tblInsert (h : Hdr) (p : List Word)
  /-- Deletes a batch of exact-match entries. (R151) -/
  | tblDelete (h : Hdr) (p : List Word)
  /-- Searches one exact-match cluster for a key. (R153) -/
  | tblSearch (h : Hdr) (p : List Word)
  /-- Walks a cluster with an iterator. (R158) -/
  | tblNext (h : Hdr) (p : List Word)
  /-- Hides and deletes the entries of a port. (R161) -/
  | tblFlushPort (h : Hdr) (p : List Word)
  /-- Barrier, merge or copy between the two clusters. (R164) -/
  | tblSync (h : Hdr) (p : List Word)
  /-- Adds a batch of LPM prefixes. (R138) -/
  | lpmAdd (h : Hdr) (p : List Word)
  /-- Deletes a batch of LPM prefixes. (R138) -/
  | lpmDel (h : Hdr) (p : List Word)
  /-- The table engine writes a queued learn or move rewrite. (R155) -/
  | learnApply (c : Fin 2)
  /-- A cross-posted change is applied in the other cluster. (R163) -/
  | crossPostApply (c : Fin 2)
  /-- The sweeper passes a TID at a multiple of AGE × 500 ms and ages entries. (R156) -/
  | agingPass (c : Fin 2) (tid : Fin 64) (bad : List Nat)
  /-- A port flush completes and event 0x097 is logged. (R161) -/
  | flushComplete (port : Fin 128)
  /-- A sync of mode 1 to 3 completes and event 0x098 is logged. (R164) -/
  | tblSyncComplete
  /-- An iterator unused for 1 s is released. (R160) -/
  | tblIteratorTimeout (c : Fin 2) (h : Fin 4)
  /-- A write to FD_EXACT_HASHCFG empties both tables and ends flushes and iterators. (R145) -/
  | exactHashcfgWrite (v : Word)
  /-- An LPM subtree rebuilt from the DRAM copy returns to service and LPM commands resume. (R141) -/
  | lpmRebuildComplete (vrf : Fin 4096) (v6 : Bool)
  /-- Rewrites results of associative entries. (R185) -/
  | ascWrite (h : Hdr) (p : List Word)
  /-- Inserts associative entries in priority order. (R180) -/
  | ascInsert (h : Hdr) (p : List Word)
  /-- Deletes associative entries. (R184) -/
  | ascDelete (h : Hdr) (p : List Word)
  /-- Searches the associative banks with a given key. (R187) -/
  | ascSearch (h : Hdr) (p : List Word)
  /-- Reads an associative entry from the shadow copy. (R188) -/
  | ascRead (h : Hdr) (p : List Word)
  /-- Configures and empties one chain. (R169) -/
  | ascChainCfg (h : Hdr) (p : List Word)
  /-- The write port makes one block-move step of an insertion. (R182) -/
  | ascBlockMoveStep
  /-- The scrubber compares a row with its shadow and repairs it. (R190) -/
  | ascScrubCompare (bank : Fin 64) (row : Fin 4096) (differs shadowBad : Bool)
  /-- A spare bank copy completes and the mapping swaps. (R193) -/
  | ascSpareSwap
  /-- At each DEVTIME millisecond bank activations are recorded and checked against the budget. (R179) -/
  | ascActMsEnd
  /-- In every crossbar clock the central scheduler completes one matching. (R228) -/
  | xbarMatching
  /-- A partly filled cell leaves PACK_WAIT after its first chunk. (R224) -/
  | xbarPackTimeout (input out : Fin 32) (cls : Fin 3)
  /-- A multicast head cell waiting MC_AGE competes as unicast low. (R230) -/
  | xbarMcAge (input : Fin 32)
  /-- An output receives a crossbar cell and checks its header and sequence. (R225) -/
  | xbarCellReceive (out : Fin 32) (headerOk : Bool)
  /-- A packet or multicast copy reaching its queue is decided, stored in berths and enqueued. (R277) -/
  | queueAdmit (slice : Fin 16) (badPops : Nat) (replBad : List Nat)
  /-- A packet's tail status reaches the queue slice and a bad tail is handled. (R232) -/
  | tailStatusReceive (id : Nat) (bad : Bool)
  /-- A packet still in SRAM at PROMO_AGE is promoted. (R241) -/
  | promoAgeExpire (q : Fin 262144)
  /-- Gathered chunks are written into a DRAM berth. (R242) -/
  | promotionWrite (q : Fin 262144) (badPops : Nat)
  /-- A DRAM berth write completes and is linked in place of the promoted chunks. (R242) -/
  | promotionWriteComplete (q : Fin 262144)
  /-- A queue's next DRAM berth is read into the read-staging area. (R244) -/
  | berthStagingRead (q : Fin 262144) (data : List Byte) (trailer : BitVec 128)
  /-- A berth free is checked and enters the check ring or quarantine. (R248) -/
  | berthFree (berth : BitVec 28) (slice : Fin 16)
  /-- A berth's owner code arrives and the berth is pushed or quarantined. (R249) -/
  | checkRingResult
  /-- A write to TD_BERTH_POOLCFGp logs event 0x10C when guarantees exceed the tier. (R245) -/
  | berthPoolcfgWrite (pool : Fin 16) (v : Word)
  /-- Requests recovery of lost and quarantined berths. (R253) -/
  | berthAudit (h : Hdr) (p : List Word)
  /-- Once every queue is empty the audit rebuilds the free stacks. (R253) -/
  | berthAuditRebuild
  /-- The audit rebuild completes and event 0x10F is logged. (R253) -/
  | berthAuditComplete
  /-- Lists quarantined berths. (R252) -/
  | berthQlist (h : Hdr) (p : List Word)
  /-- Sets the replication list of a multicast group. (R254) -/
  | mcGroupSet (h : Hdr) (p : List Word)
  /-- Reads a multicast group's list and counters. (R255) -/
  | mcGroupRead (h : Hdr) (p : List Word)
  /-- The scheduler selects and releases a queue's head packet and charges deficits and shapers. (R267) -/
  | schedRelease (node : Fin 176) (low : List Nat) (read : HeadRead) (lost : Option (Fin 4 × Nat))
  /-- At each 4 ns slot a shaper bucket refills. (R272) -/
  | shaperRefill (kind : Fin 4) (node : Fin 262144)
  /-- At each slot a meter's buckets refill. (R287) -/
  | meterRefill (m : Fin 131072)
  /-- Due timetable entries are retired and their nodes become eligible. (R271) -/
  | timetableRetire
  /-- The sampler visits a queue, drops over-age packets and records depth and head age. (R281) -/
  | queueSamplerVisit (q : Fin 262144)
  /-- A port node's link or administrative state changes and its state machine moves. (R284) -/
  | portLinkChange (node : Fin 176)
  /-- A port's hold timer reaches HOLD and the port starts flushing. (R284) -/
  | portHoldExpire (node : Fin 176)
  /-- A port flush ends and the port becomes DOWN or UP. (R284) -/
  | portFlushComplete (node : Fin 176)
  /-- Configures one queue. (R264) -/
  | queueCfg (h : Hdr) (p : List Word)
  /-- Configures one group or channel node. (R264) -/
  | nodeCfg (h : Hdr) (p : List Word)
  /-- Changes one shaper. (R275) -/
  | shaperSet (h : Hdr) (p : List Word)
  /-- Sets a port node's hold time. (R285) -/
  | portHold (h : Hdr) (p : List Word)
  /-- Reads sampled queue statistics. (R282) -/
  | queueStat (h : Hdr) (p : List Word)
  /-- Configures one meter and fills its buckets. (R290) -/
  | meterSet (h : Hdr) (p : List Word)
  /-- Reads a meter's configuration and buckets. (R290) -/
  | meterRead (h : Hdr) (p : List Word)
  /-- A fabric cell is checked, reordered, reassembled and passed through the duplicate check. (R307) -/
  | fabricCellReceive (link : Fin 192) (head : BitVec 128) (payload : List Byte)
  /-- A transmit group sends a cell on a link with credit. (R303) -/
  | fabricCellTransmit (g : Fin 16)
  /-- A link enters service after 1 ms of SYNC, or leaves it. (R295) -/
  | fabricLinkService (link : Fin 192)
  /-- A stop ends 100 µs after the last control cell that set it. (R305) -/
  | fabricStopExpire (link : Fin 192) (k : Fin 1536)
  /-- The oldest held cell waits REORD_TMO and the gap is skipped. (R308) -/
  | landingGapTimeout (src : Fin 512) (g : Fin 16) (cls : Fin 3) (dest : BitVec 16)
  /-- A stream context is freed after 1 ms with no cell. (R308) -/
  | landingContextFree (src : Fin 512) (g : Fin 16) (cls : Fin 3) (dest : BitVec 16)
  /-- A duplicate table entry reaches DUP_TTL and is retired. (R311) -/
  | dupEntryExpire (ssid : BitVec 16) (osrc : Option (BitVec 16)) (man : BitVec 48)
  /-- Writes fabric queue map entries. (R301) -/
  | fabQmapSet (h : Hdr) (p : List Word)
  /-- Reads fabric queue map entries. (R301) -/
  | fabQmapRead (h : Hdr) (p : List Word)
  /-- Configures pair operation. (R319) -/
  | pairCfg (h : Hdr) (p : List Word)
  /-- Enables, releases or queries manifest alignment of channels. (R340) -/
  | pairAlign (h : Hdr) (p : List Word)
  /-- Returns health frames, verdict and self-test state. (R349) -/
  | pairHealth (h : Hdr) (p : List Word)
  /-- Makes the acting member drop the role. (R328) -/
  | pairYield (h : Hdr) (p : List Word)
  /-- A refresh window ends and a postponed refresh debt may force an all-bank refresh. (R355) -/
  | hbmRefreshWindow (m : Fin 4) (pc : Fin 64) (bank : Fin 128) (issued : Nat)
  /-- The patrol scrub reads a line and corrects or counts errors. (R356) -/
  | hbmPatrolScrub (m : Fin 4) (pc : Fin 64) (row region : Nat) (found : LineCheck)
  /-- A failing row's copy completes and its redirect takes effect. (R358) -/
  | hbmRedirectComplete (m : Fin 4) (pc : Fin 64) (row : Nat)
  /-- A pseudo-channel copy completes and the spare swaps in. (R360) -/
  | hbmPcSwap (m : Fin 4)
  /-- A failing store block is copied to a spare and the defect map updated. (R364) -/
  | storeBlockRetire (block : Nat)
  /-- Schedules or cancels a full or incremental checkpoint. (R367) -/
  | storeCheckpoint (h : Hdr) (p : List Word)
  /-- At its instant the checkpoint engine copies state into staging. (R368) -/
  | checkpointInstant (kib : Nat)
  /-- The closing record is verified and the checkpoint becomes valid, or it fails. (R369) -/
  | checkpointComplete (fail : Option (Fin 2))
  /-- The journal token bucket refills at 56 MiB/s. (R365) -/
  | journalBucketRefill
  /-- The retention pass rewrites an old or weak store block. (R370) -/
  | retentionPass (block : Nat) (corrections : Nat)
  /-- Every 24 h the retention pass logs event 0x1D0. (R370) -/
  | retentionProgressLog
  /-- A life log record is written in both copies. (R374) -/
  | lifeLogWrite
  /-- Brings in a spare before its trigger. (R372) -/
  | spareApply (h : Hdr) (p : List Word)
  /-- Returns spare, stack, store and region health. (R377) -/
  | memHealth (h : Hdr) (p : List Word)
  /-- Reads life log records. (R375) -/
  | lifeRead (h : Hdr) (p : List Word)
  /-- Steps, slews or sets the frequency of DEVTIME. (R381) -/
  | timeAdj (h : Hdr) (p : List Word)
  /-- Reads DEVTIME or the two-step capture FIFO. (R388) -/
  | timeRead (h : Hdr) (p : List Word)
  /-- A 1PPS input edge is captured and the servo acts on its error. (R382) -/
  | ppsEdge
  /-- Three expected edges missing or discarded put the servo into HOLDOVER. (R382) -/
  | ppsEdgeMissing
  /-- A time-of-day message is checked and labels the next edge. (R383) -/
  | todMessageReceive (msg : List Byte)
  /-- The 1PPS output rises at each whole second and falls after PPS_W. (R384) -/
  | ppsOutEdge (rise : Bool)
  /-- Creates or replaces an OAM session. (R392) -/
  | oamSessionSet (h : Hdr) (p : List Word)
  /-- Deletes an OAM session. (R393) -/
  | oamSessionDel (h : Hdr) (p : List Word)
  /-- Reads one OAM session. (R396) -/
  | oamSessionRead (h : Hdr) (p : List Word)
  /-- Reads and clears the OAM change map. (R396) -/
  | oamChanges (h : Hdr) (p : List Word)
  /-- A session's transmit instant arrives and its frame enters TXQ. (R394) -/
  | oamTxTimer (k : Fin 16384)
  /-- A detection time or LOC interval expires and the session goes down. (R394) -/
  | oamDetectExpire (k : Fin 16384)
  /-- An OAM frame at SINK_Q is matched to a session or sent to the host. (R395) -/
  | oamFrameReceive
  /-- Coalesced counter increments are written to DRAM. (R398) -/
  | flowCounterWrite (m : Fin 4) (pc : Fin 64) (row : Nat) (found : LineCheck)
  /-- Programs one programmable counter. (R399) -/
  | cntProgram (h : Hdr) (p : List Word)
  /-- Schedules a counter snapshot at an instant. (R404) -/
  | cntSnapshot (h : Hdr) (p : List Word)
  /-- At T the snapshot cuts its range, optionally clearing the live counters. (R405) -/
  | cntSnapshotInstant (space : Fin 2)
  /-- The snapshot copy completes and event 0x1D8 is logged. (R404) -/
  | cntSnapshotComplete (space : Fin 2)
  /-- Reads programmable counters or flow pairs. (R401) -/
  | cntRead (h : Hdr) (p : List Word)
  /-- Sets or revokes a grant of counters to user rings. (R402) -/
  | cntGrant (h : Hdr) (p : List Word)
  /-- Reads every counter of one unit of a scope. (R408) -/
  | portCntRead (h : Hdr) (p : List Word)
  /-- The host writes CTAIL and the ring's next command is fetched. (R415) -/
  | ctailWrite (n : Fin 8) (v : Word)
  /-- A command is fetched and checked for length, trailer, sequence, privilege and layout. (R424) -/
  | commandFetch (n : Fin 8) (bytes : List Byte)
  /-- The host writes RHEAD, freeing reply space so waiting commands may start. (R416) -/
  | rheadWrite (n : Fin 8) (v : Word)
  /-- The host writes OHEAD, freeing outbound ring space. (R422) -/
  | oheadWrite (m : Fin 5) (v : Word)
  /-- RCFG EN changes from 0 to 1 and the ring's indices and sequence reset. (R422) -/
  | ringEnable (n : Fin 8) (v : Word)
  /-- RCFG EN changes from 1 to 0 and fetching stops. (R422) -/
  | ringDisable (n : Fin 8) (v : Word)
  /-- OCFG EN changes from 0 to 1 and OTAIL and OHEAD become 0. (R422) -/
  | outRingEnable (m : Fin 5) (v : Word)
  /-- OCFG EN changes from 1 to 0 and records for the ring are lost. (R440) -/
  | outRingDisable (m : Fin 5) (v : Word)
  /-- A punt record is written to its outbound ring or counted as PUNT_NOROOM. (R439) -/
  | puntRecordWrite
  /-- Replies OK with the status word. (R433) -/
  | nop (h : Hdr) (p : List Word)
  /-- Replies at once or is held until the status changes or TMO expires. (R431) -/
  | waitAttn (h : Hdr) (p : List Word)
  /-- A field of a held WAIT_ATTN changes and it is replied. (R431) -/
  | waitAttnChange (n : Fin 8)
  /-- A held WAIT_ATTN reaches TMO and is replied. (R431) -/
  | waitAttnTimeout (n : Fin 8)
  /-- Requests a mode transition. (R485) -/
  | modeSet (h : Hdr) (p : List Word)
  /-- A requested mode takes effect after its preparation and event 0x004 is logged. (R485) -/
  | modeTransitionComplete
  /-- Returns the device identity words. (R18) -/
  | ident (h : Hdr) (p : List Word)
  /-- In QUIESCENT the control complex powers down after 10 ms with no command. (R435) -/
  | ctrlIdlePowerDown
  /-- Reads registers. (R454) -/
  | regRd (h : Hdr) (p : List Word)
  /-- Writes registers in order. (R454) -/
  | regWr (h : Hdr) (p : List Word)
  /-- Writes masked bits of one register atomically. (R454) -/
  | regWrMask (h : Hdr) (p : List Word)
  /-- Reads a wide MB register. (R454) -/
  | mbxRd (h : Hdr) (p : List Word)
  /-- Writes a wide MB register. (R454) -/
  | mbxWr (h : Hdr) (p : List Word)
  /-- A write to a register with no row of its own is applied field by field. (R450) -/
  | registerWrite (off : BitVec 20) (v : Word)
  /-- A byte or halfword BAR access reads byte lanes or drops the write. (R459) -/
  | barNarrowAccess (write half : Bool) (off : BitVec 20) (v : Word)
  /-- An unaligned BAR access is dropped or reads zero. (R460) -/
  | barUnalignedAccess (write : Bool) (off : BitVec 20)
  /-- A multi-dword BAR access is split into 32-bit accesses. (R461) -/
  | barWideAccess (write : Bool) (off : BitVec 20) (dwords : List (BitVec 4 × Word))
  /-- A window access to a powered-off block completes with zero data. (R443) -/
  | barWindowPoweredOff (write : Bool) (off : BitVec 20) (v : Word)
  /-- MBXCTL GO with DIR 0 reads a wide register into MBXD. (R464) -/
  | mailboxRead (v : Word)
  /-- MBXCTL GO with DIR 1 writes MBXD into a wide register. (R464) -/
  | mailboxWrite (v : Word)
  /-- A mailbox operation ends, GO clears and VALID or ERR is set. (R464) -/
  | mailboxDone
  /-- A posted write's work completes and BUSY clears. (R465) -/
  | postedWriteDone (block : BitVec 16)
  /-- A write to TD_D2D_RETRAIN starts a retrain of a module. (R466) -/
  | d2dRetrainRequest (m : BitVec 5)
  /-- The background check compares the copies of TV registers. (R467) -/
  | tvCheck (addr upA upB upC : Word)
  /-- A 1 written to a REQ bit of DEV_EVENTS_INJECT requests a test event. (R470) -/
  | eventInject (v : Word)
  /-- The requested test event is logged and its REQ bit clears. (R470) -/
  | eventInjectLog (req : Fin 8)
  /-- A masked write changes the selected host flags. (R469) -/
  | hostflagWrite (v : Word)
  /-- Every 100 µs the ferryman measures utilisation and wakes or drains halves. (R479) -/
  | ferrymanWindow (uses : List SliceUse) (buckets : List (Nat × Nat))
  /-- A drained ingress half is gated. (R479) -/
  | ferrymanDrainComplete
  /-- A half gated for OFF_MS is powered off. (R479) -/
  | ferrymanPowerOff (slice : Fin 16)
  /-- A half or queue slice empty for 2 µs gates its own clock. (R481) -/
  | idleGate (dom : Fin 64)
  /-- A queue slice whose queues are disabled and empty for 1 ms powers off. (R482) -/
  | queueSlicePowerOff (n : Fin 16)
  /-- Sets the ferryman or the start policy. (R483) -/
  | pwrPolicy (h : Hdr) (p : List Word)
  /-- Returns power, ferryman and start status. (R494) -/
  | pwrStatus (h : Hdr) (p : List Word)
  /-- In DRAIN every queue and body empties and event 0x005 is logged. (R487) -/
  | drainEmpty
  /-- One second after DRAIN entry the rest is flushed as DRAIN_FLUSH. (R487) -/
  | drainTimeout
  /-- The entry checkpoint becomes valid, the stacks self-refresh and domains power off. (R487) -/
  | quiescentEntryComplete
  /-- Begins, writes, ends or aborts staging of an image. (R505) -/
  | fwStage (h : Hdr) (p : List Word) (data : List Byte)
  /-- Verifies, reports, confirms a trial or raises floors. (R507) -/
  | fwVerify (h : Hdr) (p : List Word)
  /-- An image verification ends with event 0x1EC or 0x1ED. (R501) -/
  | fwVerifyComplete (img : Fin 4) (fails : List (BitVec 4)) (patches : List PatchRec)
  /-- A staging session idle for 1 s is aborted. (R506) -/
  | fwStageTimeout (obj : Fin 2)
  /-- Schedules a microcode rollout or control restart at an instant. (R512) -/
  | fwActivateAt (h : Hdr) (p : List Word)
  /-- Reverts a trial or schedules activation of the other bank or slot. (R515) -/
  | fwRollback (h : Hdr) (p : List Word)
  /-- Lists the patches of a microcode slot. (R516) -/
  | patchList (h : Hdr) (p : List Word)
  /-- At T0 the new microcode set is in the spare and the rollout steps begin. (R217) -/
  | rolloutStart
  /-- At T the firmware stops fetching and quiesces for a control restart. (R514) -/
  | controlRestart
  /-- Commands still run 100 ms after T and the activation is abandoned. (R514) -/
  | controlRestartQuiesceTimeout
  /-- The new firmware takes the rings and runs on trial. (R514) -/
  | controlRestartComplete
  /-- The trial firmware has not taken the rings by T + 250 ms and the previous bank is loaded. (R514) -/
  | controlRestartFallback
  /-- An OFFER opens a transfer session or is refused. (R521) -/
  | slipwayOffer (msg : List Byte) (fails : List (BitVec 4))
  /-- A DATA message delivers image bytes. (R521) -/
  | slipwayData (msg : List Byte)
  /-- A DONE message starts verification or triggers a gap ACK. (R521) -/
  | slipwayDone (msg : List Byte)
  /-- An ACK is sent at least once per 1 ms while data flows. (R521) -/
  | slipwayAckTimer
  /-- The slipway port answers an ARP request. (R519) -/
  | slipwayArp (mac : BitVec 48) (senderIp targetIp : Word)
  /-- The slipway port answers an ICMP echo request. (R519) -/
  | slipwayIcmpEcho (mac : BitVec 48) (sourceIp destIp : Word) (data : List Byte)
  /-- An event reaches the log head, takes an EVSEQ, is entered and written to ring 4. (R527) -/
  | eventLogEntry
  /-- Reads log entries, counters or UNACK bits. (R534) -/
  | evtRead (h : Hdr) (p : List Word)
  /-- Acknowledges event sources. (R532) -/
  | evtAck (h : Hdr) (p : List Word)
  /-- Masks or unmasks event sources. (R535) -/
  | evtMask (h : Hdr) (p : List Word)
  /-- A control core takes a machine check and its step is replayed elsewhere. (R540) -/
  | coreMachineCheck (core : Fin 5) (journalLost : Option (Fin 8))
  /-- Configures pattern generators, checkers and loopbacks. (R549) -/
  | prbsCfg (h : Hdr) (p : List Word)
  /-- Reads checker counts. (R552) -/
  | prbsRead (h : Hdr) (p : List Word) (found : List (Nat × Nat))
  /-- Runs a self-test kind or reports results. (R553) -/
  | bistRun (h : Hdr) (p : List Word)
  /-- A self-test run ends and event 0x1F7 is logged. (R554) -/
  | bistComplete (kind : Fin 9) (failing : List Nat) (ms : Nat)
  /-- A PCIe near-end loopback ends after DURATION and the link retrains. (R547) -/
  | pcieLoopbackEnd
  /-- TRST_N low puts the TAP in Test-Logic-Reset with IDCODE selected. (R556) -/
  | tapReset
  /-- TAP instruction: boundary cells take the balls. (R558) -/
  | extest (ext : Cells)
  /-- TAP instruction: select the IDCODE register. (R556) -/
  | idcode
  /-- TAP instruction: sample and preload the boundary register. (R556) -/
  | samplePreload (ext data : Cells)
  /-- TAP instruction: IEEE 1149.6 pulse test on the balls. (R558) -/
  | extestPulse (ext : Cells)
  /-- TAP instruction: IEEE 1149.6 train test on the balls. (R558) -/
  | extestTrain (ext : Cells)
  /-- TAP instruction: clamp outputs and select bypass. (R558) -/
  | clamp
  /-- TAP instruction: outputs high-impedance. (R558) -/
  | highz
  /-- TAP instruction: select the bypass register. (R556) -/
  | bypass (code : BitVec 8)
  /-- The tollhouse supply leaves its range, every output goes high-impedance and the member reads as not acting at its peer and the selector. (R564) -/
  | tollhouseSupplyLoss
  /-- An HBM stack's temperature crosses 85 °C or 95 °C, doubling refresh or logging event 0x1C5 at ATTN 7. (R355) -/
  | hbmTemperatureChange (m : Fin 4) (reading : Int)
  /-- A running DEVTIME slew at 100 ppm finishes applying its offset and ends. (R381) -/
  | slewComplete
  /-- A PRBS checker locks after 2,048 consecutive matching received bits and starts counting BITS and ERRORS. (R546) -/
  | prbsCheckerLock (type : Fin 6) (unit : Fin 192) (rx : List (Fin 4))
  /-- A locked PRBS checker sees more than 1,024 mismatches in a 4,096-bit window, counts a LOCKLOSS and reseeds. (R546) -/
  | prbsCheckerLockLoss (type : Fin 6) (unit : Fin 192) (bits errors : Nat)
  /-- Every 10 s the control firmware writes the 8 MiB persistent counter set to the store. (R365) -/
  | persistentCountersWrite
  deriving DecidableEq, Repr

end Sys2Proof
end

