-- ==== Sys2Proof/Decode.lean ====
section
/-! DEFINITION. The commands that words spell: the block's table gives no row any bits. -/

namespace Sys2Proof

/-- The command that the word `w` of `nbits` bits spells by the table's bits. No row of the table gives bits, so no word
spells one: a command of R423 spells its parameters in ring memory, whose packet COMMAND_FETCH reads. -/
def decodeTableWord (_nbits _w : Nat) : Option Instr := none

end Sys2Proof
end

