-- ==== Sys2Proof/Config.lean ====
section
/-! DEFINITION. What the part fixes and the spec does not state, as constants without a body: nothing can
evaluate one, so a statement about the model holds whatever their values are (log 2). -/

namespace Sys2Proof.Config

/-- A fresh free value of 64 bits, by the counter `State.free` (log 2). -/
opaque freeValue : Nat → BitVec 64

/-- The part's unique identifier in the fuse bank (R18, R462). -/
opaque uid : BitVec 64

/-- The ROM sequencer's version word (R18). -/
opaque romVersion : BitVec 32

/-- AVS target of each core rail in mV, in the fuse bank (R569). -/
opaque avsTarget : Nat → Nat

/-- The stack × 64 + pseudo-channel on which hardware places a DRAM berth (R352, log 2). -/
opaque berthPc : Nat → Nat

/-- The fuse bank enables vendor debug (R422). -/
opaque vendorDebug : Bool

/-- The words of the vendor region of the microcode set whose image begins with these bytes, by address (R206, R212, log 109). -/
opaque vendorWord : List (BitVec 8) → Nat → BitVec 68

/-- The bits of SSPRQ, by their place in the sequence (R545, log 119). -/
opaque ssprq : Nat → Bool

/-- Flits that the receiver's buffer of a die-to-die VC takes: the sender's credits (R34, log 101). -/
opaque d2dCredits : Nat → Nat

/-- Flits that the VC2 buffer of an egress half takes (R28, log 101). -/
opaque egressCredits : Nat

/-- Payload of a flit whose layout no rule gives: VC, and two numbers of what it carries (R34, log 101). -/
opaque flitPayload : Nat → Nat → Nat → List Byte

end Sys2Proof.Config
end

