-- ==== Sys2Proof/Machine/Bits.lean ====
section
/-! DEFINITION. Bit fields, byte order, the sparse tables' two operations, and the check codes the
spec names (R5, R34, R35, R423, R526, R581). -/

namespace Sys2Proof.Machine

/-- The number in bits `[hi:lo]` of `w` (R5). -/
def bits {n : Nat} (w : BitVec n) (hi lo : Nat) : Nat := (w.toNat >>> lo) % 2 ^ (hi + 1 - lo)

/-- Bit `[i]` of `w` (R5). -/
def bit {n : Nat} (w : BitVec n) (i : Nat) : Bool := w.getLsbD i

/-- `w` with the number `v` put into bits `[hi:lo]`. -/
def putBits {n : Nat} (w : BitVec n) (hi lo v : Nat) : BitVec n :=
  let m : BitVec n := BitVec.ofNat n ((2 ^ (hi + 1 - lo) - 1) <<< lo)
  (w &&& ~~~m) ||| (BitVec.ofNat n (v <<< lo) &&& m)

/-- A Boolean as the number 0 or 1. -/
def b01 (b : Bool) : Nat := if b then 1 else 0

/-- `a` and then further fields below it, each given as (width, value): the layout of a word read
from its most significant field down. -/
def packNat : List (Nat × Nat) → Nat → Nat
  | [], a => a
  | (w, v) :: r, a => packNat r (a * 2 ^ w + v % 2 ^ w)

/-- A 32-bit word from its fields, most significant first; the widths add up to 32. -/
def mkWord (fs : List (Nat × Nat)) : Word := BitVec.ofNat 32 (packNat fs 0)

/-- An item of 32 bits of an event's DATA (R526). -/
def d32 (v : Nat) : Nat × Nat := (32, v)
/-- An item of 16 bits of an event's DATA (R526). -/
def d16 (v : Nat) : Nat × Nat := (16, v)
/-- A signed item of 32 bits of an event's DATA (R526). -/
def d32i (v : Int) : Nat × Nat := (32, (BitVec.ofInt 32 v).toNat)
/-- A signed item of 16 bits of an event's DATA (R526). -/
def d16i (v : Int) : Nat × Nat := (16, (BitVec.ofInt 16 v).toNat)

/-- DATA of an event: its items packed from bit 63 downward, the rest zero (R526). -/
def evData (fs : List (Nat × Nat)) : Word64 :=
  BitVec.ofNat 64 (packNat fs 0 <<< (64 - (fs.map Prod.fst).sum))

/-! ## Sparse tables -/

/-- What the table `t`, at rest `d`, holds at key `k`. -/
def tget {α : Type} (d : Nat → α) : Tab α → Nat → α
  | [], k => d k
  | (j, a) :: t, k => if k = j then a else tget d t k

/-- The entry at key `k`, if the table lists one. -/
def tfind {α : Type} : Tab α → Nat → Option α
  | [], _ => none
  | (j, a) :: t, k => if k = j then some a else tfind t k

/-- The table without key `k`. -/
def tdel {α : Type} : Tab α → Nat → Tab α
  | [], _ => []
  | (j, a) :: t, k => if k = j then t else (j, a) :: tdel t k

/-- The table with key `k` listed at `a`, keys still rising. -/
def tins {α : Type} : Tab α → Nat → α → Tab α
  | [], k, a => [(k, a)]
  | (j, b) :: t, k, a =>
    if k < j then (k, a) :: (j, b) :: t
    else if k = j then (k, a) :: t
    else (j, b) :: tins t k a

/-- The table, at rest `d`, with `a` at key `k`: a value at rest is not listed. -/
def tset {α : Type} [DecidableEq α] (d : Nat → α) (t : Tab α) (k : Nat) (a : α) : Tab α :=
  if a = d k then tdel t k else tins t k a

/-- The table, at rest `d`, with every value changed by `f`: a value that comes to rest is not listed. -/
def tmapv {α : Type} [DecidableEq α] (d : Nat → α) (f : α → α) : Tab α → Tab α
  | [] => []
  | (k, a) :: t => if f a = d k then tmapv d f t else (k, f a) :: tmapv d f t

/-- Keys strictly rising, each above `b`. -/
def tkeysAbove {α : Type} : Nat → Tab α → Bool
  | _, [] => true
  | b, (j, _) :: t => b < j && tkeysAbove j t

/-- Keys strictly rising. -/
def trising {α : Type} : Tab α → Bool
  | [] => true
  | (j, _) :: t => tkeysAbove j t

/-- The canonical form of a table at rest `d`: keys strictly rising and nothing at rest listed. -/
def tcanon {α : Type} [DecidableEq α] (d : Nat → α) (t : Tab α) : Bool :=
  trising t && t.all (fun p => p.2 != d p.1)

/-! ## Byte order -/

/-- The bytes of a word in host memory, least significant first (R5). -/
def leBytes (w : Word) : List Byte :=
  [w.extractLsb' 0 8, w.extractLsb' 8 8, w.extractLsb' 16 8, w.extractLsb' 24 8]

/-- Words in host memory, in memory order (R423). -/
def wordsBytes (ws : List Word) : List Byte := ws.flatMap leBytes

/-- The number in a list of bytes sent most significant byte first (R5). -/
def beNat : List Byte → Nat := List.foldl (fun a b => a * 256 + b.toNat) 0

/-- `n` bytes of the number `v`, most significant first (R5). -/
def beBytes : Nat → Nat → List Byte
  | 0, _ => []
  | n + 1, v => BitVec.ofNat 8 (v / 256 ^ n) :: beBytes n v

/-- The number in a list of bytes stored least significant byte first (R5). -/
def leNat : List Byte → Nat
  | [] => 0
  | b :: r => b.toNat + 256 * leNat r

/-- The 32-bit words of a byte list in host memory; a short last word is dropped. -/
def bytesWords : List Byte → List Word
  | a :: b :: c :: d :: r => BitVec.ofNat 32 (leNat [a, b, c, d]) :: bytesWords r
  | _ => []

/-! ## Check codes -/

/-- `k` shifts of a check register, most significant bit first. -/
def crcShift {n : Nat} (poly : BitVec n) : Nat → BitVec n → BitVec n
  | 0, c => c
  | k + 1, c => crcShift poly k (if c.msb then (c <<< 1) ^^^ poly else c <<< 1)

/-- A check code of `n` bits over bytes in order, each byte most significant bit first. -/
def crcMsb {n : Nat} (poly init : BitVec n) (l : List Byte) : BitVec n :=
  l.foldl (fun c b => crcShift poly 8 (c ^^^ BitVec.ofNat n (b.toNat <<< (n - 8)))) init

/-- `k` shifts of a reflected check register. -/
def crcShiftR {n : Nat} (poly : BitVec n) : Nat → BitVec n → BitVec n
  | 0, c => c
  | k + 1, c => crcShiftR poly k (if c.getLsbD 0 then (c >>> 1) ^^^ poly else c >>> 1)

/-- A reflected check code of `n` bits over bytes in order, each byte least significant bit first. -/
def crcLsb {n : Nat} (poly init : BitVec n) (l : List Byte) : BitVec n :=
  l.foldl (fun c b => crcShiftR poly 8 (c ^^^ BitVec.ofNat n b.toNat)) init

/-- The CRC-32C of R581 from a given initial value: no reflection, no final inversion. -/
def crc32cFrom (init : Word) (l : List Byte) : Word := crcMsb 0x1EDC6F41#32 init l

/-- The CRC-32C of R581 where the rule gives no initial value. -/
def crc32c (l : List Byte) : Word := crc32cFrom 0xFFFFFFFF#32 l

/-- The CRC-32C of RFC 3720: reflected, initial value all ones, inverted at the end (R423, R581). -/
def crcRing (l : List Byte) : Word := ~~~ crcLsb 0x82F63B78#32 0xFFFFFFFF#32 l

/-- The check of an Ethernet frame: reflected, initial value all ones, inverted at the end.
PRESUMED (log 1): the spec names the FCS and leaves its code to the line's own standard. -/
def crcFcs (l : List Byte) : Word := ~~~ crcLsb 0xEDB88320#32 0xFFFFFFFF#32 l

/-- CRC-8 over bytes, polynomial x^8 + x^2 + x + 1 (R35). -/
def crc8From (init : Byte) (l : List Byte) : Byte := crcMsb 0x07#8 init l

/-- Serial-number order: `a` stands before or at `b` in a space of `m` values, within window `w` (R37, R532). -/
def serialLe (m w a b : Nat) : Bool := (b + m - a % m) % m < w

/-- Odd parity of a control-store word: bit 64 + k covers bits [16k + 15 : 16k] (R207). -/
def parityOk (v : BitVec 68) : Bool :=
  (List.range 4).all (fun k => (((List.range 16).filter (fun i => v.getLsbD (16 * k + i))).length + b01 (v.getLsbD (64 + k))) % 2 == 1)

/-- An instruction word under the parity of the control store (R207). -/
def withParity (w : BitVec 64) : BitVec 68 :=
  let par := (List.range 4).map (fun k => b01 (((List.range 16).filter (fun i => w.getLsbD (16 * k + i))).length % 2 == 0) * 2 ^ k)
  BitVec.ofNat 68 (par.sum * 2 ^ 64 + w.toNat)

/-- The majority of three copies, bit by bit (R467). -/
def vote {n : Nat} (a b c : BitVec n) : BitVec n := (a &&& b) ||| (a &&& c) ||| (b &&& c)

end Sys2Proof.Machine
end

