-- ==== Sys2Proof/Machine/RegTable.lean ====
section
/-! DEFINITION. The registers software can write: their addresses, reset values, classes and field
types, as the line and table that introduce each register give them (R12 to R14, R445 to R447). -/

namespace Sys2Proof.Machine

/-- The field types of R12; a count among the HU fields has a kind of its own (R453). -/
inductive FKind
  | rw | w1c | w1s | sc | hu | huCount | tv | mk | pw
  deriving DecidableEq, Repr

/-- The classes of R13. -/
inductive RClass
  | live | shadow | fixed | none
  deriving DecidableEq, Repr

/-- A register or an array of registers: index `i` below `count` stands at `base + stride × i`. -/
structure RegRow where
  base   : Nat
  stride : Nat
  count  : Nat
  reset  : Nat → Nat
  cls    : RClass
  /-- Fields as (kind, high bit, low bit); every other bit is RO or reserved. -/
  fields : List (FKind × Nat × Nat)

/-- A row whose registers all have one reset value. -/
def regRow (base stride count reset : Nat) (cls : RClass) (fs : List (FKind × Nat × Nat)) : RegRow :=
  ⟨base, stride, count, fun _ => reset, cls, fs⟩

/-- The writable registers of the dies' blocks DEV, chapter by chapter. -/
def devRegs : List RegRow := [
  regRow 0x3F010020 4 1 0 .live [(.mk, 31, 0)],                                    -- HOSTFLAG
  regRow 0x3F010030 4 1 0 .live [(.tv, 4, 0)],                                     -- SAFECFG
  regRow 0x3F020000 4 1 0x06400000 .live [(.rw, 31, 20)],                          -- TIMECFG
  regRow 0x3F020004 4 1 0 .live [(.rw, 31, 0)],                                    -- PPSOFS
  regRow 0x3F030014 4 1 0 .live [(.rw, 31, 16), (.sc, 2, 2), (.rw, 1, 0)],         -- RESTART
  regRow 0x3F030030 4 1 0x64780000 .live [(.rw, 31, 24), (.tv, 23, 16)],           -- THERMCFG
  regRow 0x3F050008 4 1 0 .live [(.rw, 31, 31)],                                   -- EVENTS_CFG
  regRow 0x3F050020 4 1 0 .live [(.rw, 31, 16), (.w1s, 7, 0)],                     -- INJECT
  regRow 0x3F050100 4 16 0 .live [(.rw, 31, 0)],                                   -- MASKn
  regRow 0x3F060000 4 1 0 .live [(.rw, 31, 0)],                                    -- IPCFG
  regRow 0x3F070010 4 1 0x3F010000 .live [(.rw, 31, 16)],                          -- WINSEL
  regRow 0x3F070100 0x10 8 0 .live [(.rw, 31, 12)],                                -- RBASELn
  regRow 0x3F070104 0x10 8 0 .live [(.rw, 31, 0)],                                 -- RBASEHn
  regRow 0x3F070108 0x10 8 0x00800000 .live [(.rw, 31, 31), (.rw, 27, 22)],        -- RCFGn
  regRow 0x3F070200 0x10 5 0 .live [(.rw, 31, 12)],                                -- OBASELm
  regRow 0x3F070204 0x10 5 0 .live [(.rw, 31, 0)],                                 -- OBASEHm
  regRow 0x3F070208 0x10 5 0x00040000 .live [(.rw, 31, 31), (.rw, 27, 10)],        -- OCFGm
  regRow 0x3F070400 4 1 0 .live [(.rw, 31, 0)],                                    -- MBXADDR
  regRow 0x3F070404 4 1 0 .live [(.sc, 31, 31), (.rw, 30, 30), (.w1c, 29, 29), (.rw, 3, 0)], -- MBXCTL
  regRow 0x3F070440 4 16 0 .live [(.rw, 31, 0)],                                   -- MBXDn
  regRow 0x3F071000 0x1000 8 0 .live [(.rw, 21, 0)],                               -- CTAILn
  regRow 0x3F071004 0x1000 8 0 .live [(.rw, 21, 0)],                               -- RHEADn
  regRow 0x3F079000 0x1000 5 0 .live [(.rw, 21, 0)],                               -- OHEADm
  regRow 0x3F079004 0x1000 5 0 .none [(.huCount, 31, 22)]]                         -- OSTATm

/-- The writable registers of the forwarding die. -/
def fdRegs : List RegRow := [
  regRow 0x7F021000 4 128 0 .none [(.w1c, 7, 0)],                                  -- PORTSTATp
  regRow 0x7F021400 4 128 0x00040070 .live [(.rw, 31, 4)],                         -- DEGCFGp
  regRow 0x7F030280 4 32 0 .none [(.w1c, 3, 0)],                                   -- SKEWg
  regRow 0x7F040000 4 1 0x00007800 .fixed [(.rw, 31, 10)],                         -- GANGWAY_HASHCFG
  regRow 0x7F040004 4 1 0 .fixed [(.rw, 31, 16)],                                  -- DEEPCFG
  regRow 0x7F040120 4 1 0 .none [(.hu, 10, 0)],                                    -- MOVESTAT
  regRow 0x7F040200 4 128 0 .shadow [(.rw, 31, 0)],                                -- DEEPCHn
  regRow 0x7F060400 4 64 0x03E80401 .live [(.rw, 31, 2), (.rw, 0, 0)],             -- PUNTPOLn
  regRow 0x7F060500 4 1 0x4E200000 .live [(.rw, 31, 16)],                          -- PUNTAGG
  regRow 0x7F060600 4 1 0x80000000 .live [(.rw, 31, 30)],                          -- FRAGCFG
  regRow 0x7F071000 4 2048 0 .live [(.rw, 27, 16), (.rw, 11, 0)],                  -- CHVRFn
  ⟨0x7F080100, 4, 64, fun n => n * 256, .fixed, [(.rw, 13, 6)]⟩,                   -- EXACT_TMAPn
  regRow 0x7F080000 4 1 0x00005A5A .fixed [(.rw, 31, 0)],                          -- EXACT_HASHCFG
  regRow 0x7F080200 4 64 0x012C0000 .live [(.rw, 31, 15)],                         -- AGECFGn
  regRow 0x7F080300 4 64 0 .live [(.rw, 31, 12)],                                  -- LBASEn
  regRow 0x7F090100 4 64 0 .shadow [(.rw, 31, 16)],                                -- ASC_TMAPn
  regRow 0x7F090200 4 64 0xFFFFFFFF .shadow [(.rw, 31, 0)],                        -- BMASKLn
  regRow 0x7F090300 4 64 0xFFFFFFFF .shadow [(.rw, 31, 0)]]                        -- BMASKHn

/-- The writable registers of the traffic die. -/
def tdRegs : List RegRow := [
  regRow 0xBF210000 4 1 0x08014000 .live [(.rw, 31, 12)],                          -- XBAR_CFG
  regRow 0xBF210010 4 2 0 .live [(.rw, 31, 0)],                                    -- XBAR_HIQn
  regRow 0xBF220000 4 1 0x02004040 .live [(.rw, 31, 1)],                           -- TIERCFG
  regRow 0xBF220018 4 1 0 .none [(.huCount, 15, 0)],                               -- BERTH_LOSS
  ⟨0xBF220040, 4, 16, fun p => if p = 0 then 0x40000000 else if p = 8 then 0xF0000000 else 0, .live,
    [(.rw, 31, 4)]⟩,                                                               -- POOLCFGp
  regRow 0xBF234000 16 1024 0x00040008 .live [(.rw, 31, 0)],                       -- PROFAn
  regRow 0xBF234004 16 1024 0xC0800320 .live [(.rw, 31, 4)],                       -- PROFBn
  regRow 0xBF234008 16 1024 0 .live [(.rw, 31, 0)],                                -- PROFCn
  regRow 0xBF240400 4 1 0 .none [(.hu, 31, 16), (.huCount, 15, 0)],                -- TTSTAT
  regRow 0xBF250000 4 1 0x00300000 .fixed [(.rw, 31, 15)],                         -- FABRIC_NODE
  regRow 0xBF250004 4 1 0x08114000 .live [(.rw, 31, 12)],                          -- FABRIC_TIMING
  regRow 0xBF250020 4 6 0 .live [(.rw, 31, 0)],                                    -- LINKENn
  regRow 0xBF254000 4 4096 0 .live [(.rw, 31, 31), (.rw, 15, 0)],                  -- SSIDn
  regRow 0xBF260004 4 1 0 .none [(.hu, 31, 16)],                                   -- LANDING_DIFF
  regRow 0xBF270000 4 1 0 .none [(.w1c, 21, 21)],                                  -- PAIRSTAT
  regRow 0xBF2A0000 4 1 0 .live [(.rw, 31, 7)],                                    -- OAM_CFG
  regRow 0xBF2C0100 4 1 0x1F .live [(.pw, 4, 0)]]                                  -- D2D_RETRAIN

/-- Every register with a writable field; DIE_BLOCK_BSTAT stands apart (R448). -/
def regTable : List RegRow := devRegs ++ fdRegs ++ tdRegs

/-- Whether `a` is a register of row `r`. -/
def RegRow.has (r : RegRow) (a : Nat) : Bool :=
  r.base ≤ a && (a - r.base) % r.stride == 0 && (a - r.base) / r.stride < r.count

/-- The row of the register at address `a`. -/
def regRowAt (a : Nat) : Option RegRow := regTable.find? (·.has a)

/-- The bits of a field. -/
def fieldMask (hi lo : Nat) : Word := BitVec.ofNat 32 ((2 ^ (hi + 1 - lo) - 1) <<< lo)

/-- The bits of a row's fields of kind `k`. -/
def RegRow.mask (r : RegRow) (k : FKind) : Word :=
  r.fields.foldl (fun m f => if f.1 = k then m ||| fieldMask f.2.1 f.2.2 else m) 0

/-- The bits that only software changes, and that are configuration: RW, TV and MK fields. -/
def RegRow.cfgMask (r : RegRow) : Word := r.mask .rw ||| r.mask .tv ||| r.mask .mk ||| r.mask .pw

/-- The bits that hardware changes too: W1C, W1S, SC and HU fields. -/
def RegRow.hwMask (r : RegRow) : Word :=
  r.mask .w1c ||| r.mask .w1s ||| r.mask .sc ||| r.mask .hu ||| r.mask .huCount

/-- The reset value of the register of row `r` at address `a`. -/
def RegRow.resetAt (r : RegRow) (a : Nat) : Word := BitVec.ofNat 32 (r.reset ((a - r.base) / r.stride))

/-- The configuration bits of register `a` after reset; zero for an address with none. -/
def cfgRest (a : Nat) : Word :=
  match regRowAt a with
  | some r => r.resetAt a &&& r.cfgMask
  | none   => 0

/-- Base addresses and widths in words of the MB registers (R462): DEV_TOLLHOUSE_UID alone. -/
def mbRegs : List (Nat × Nat) := [(0x3F010010, 2)]

/-- The blocks of R446 by register address bits [31:16], die-wide. -/
def dieBlocks : List (Nat × List Nat) :=
  [(0, [1, 2, 3, 4, 5, 6, 7]),
   (1, [1, 2, 3, 4, 5, 6, 7, 8, 9, 10, 11, 12, 13, 14]),
   (2, [0x21, 0x22, 0x23, 0x24, 0x25, 0x26, 0x27, 0x28, 0x29, 0x2A, 0x2B, 0x2C]),
   (3, [1, 2, 3])]

/-- Whether a block stands at address bits [31:16]: each block die-wide, and at the slice codes at which
one of its registers is defined (R446): FD_AE at the FD slices, MEM_STACKS at the stacks, MEM_STORE at the store. -/
def blockExists (k : Nat) : Bool :=
  let die := k / 0x4000
  let slice := k / 0x100 % 0x40
  let blk := k % 0x100
  if slice = 0x3F then dieBlocks.any (fun d => d.1 = die && d.2.contains blk)
  else (die = 1 && blk = 0x0A && slice < 16) || (die = 3 && blk = 2 && slice < 4) || (die = 3 && blk = 1 && slice = 4)

end Sys2Proof.Machine
end

