-- ==== Sys2Proof/Machine/StHost.lean ====
section
/-! DEFINITION. State of the host side: events (chapter 18), rings, records and the BAR (chapter 14),
and what registers hold beside their values (chapter 15). -/

namespace Sys2Proof.Machine

/-- An occurrence on its way to the log head (R527): its source, DATA and time of detection, and
whether a once-per-second limit of its chapter keeps it out of the log (R529). -/
structure EvRec where
  src   : Nat
  data  : Word64
  time  : Word64
  limited : Bool
  deriving DecidableEq, Repr, Inhabited

/-- An entry of the event log (R528, R441). -/
structure LogEntry where
  seq  : BitVec 12
  src  : Nat
  data : Word64
  time : Word64
  read : Bool
  deriving DecidableEq, Repr, Inhabited

/-- The event log, its counters, masks and acknowledgement state (R527 to R535). -/
structure Events where
  /-- Occurrences detected and not yet at the log head. -/
  flight : List EvRec
  /-- The log, oldest entry first, at most 1,024 entries. -/
  log    : List LogEntry
  /-- EVSEQ of the newest logged event. -/
  seq    : BitVec 12
  lost   : Word
  ovf    : Bool
  /-- An overflow has happened since the last event 0x012. -/
  owed   : Bool
  counts : Tab Word
  mask   : BitVec 512
  unack  : BitVec 512
  /-- By source: 1 + the EVSEQ of its newest occurrence, 0 when that occurrence was not entered. -/
  newest : Tab Nat
  /-- Once-per-second limits: by source and subject, 1 + the number of the DEVTIME second last used. -/
  once   : Tab Nat
  deriving DecidableEq, Repr, Inhabited

/-- A command that has started and not been replied to: its opcode, header and parameter words. -/
structure Started where
  op  : Nat
  hdr : Hdr
  par : List Word
  deriving DecidableEq, Repr, Inhabited

/-- An inbound ring as the Yebel keeps it (R413 to R427). -/
structure InRing where
  chead   : Nat
  rtail   : Nat
  stop    : Bool
  cause   : Nat
  /-- The expected RING_SEQ; none until the first command after EN rises (R427). -/
  expect  : Option Word
  /-- The one command of the ring that runs (R417). -/
  running : Option Started
  /-- Commands that had started when EN fell and still run: their replies are not written (R422). -/
  orphans : List Hdr
  /-- The ring's held WAIT_ATTN, with the monotonic time in ns at which TMO expires (R431). -/
  held    : Option (Started × Nat)
  /-- The last reply formed for a command of the ring, without its trailer (R429). -/
  last    : List Word
  /-- Monotonic ns at which the ring's last command ended (R435). -/
  doneAt  : Nat
  deriving DecidableEq, Repr, Inhabited

/-- An outbound ring as the Yebel keeps it (R413, R440). -/
structure OutRing where
  otail : Nat
  deriving DecidableEq, Repr, Inhabited

/-- A punt on its way to host memory: words 0 to 5 of its record but for TRUNC (R439). -/
structure PuntRec where
  ring   : Nat
  reason : Nat
  copy   : Bool
  eg     : Bool
  port   : Nat
  chan   : Nat
  slice  : Nat
  ruleVer : Nat
  time   : Word64
  emeta  : Word
  bucket : Nat
  node   : Nat
  bytes  : List Byte
  deriving DecidableEq, Repr, Inhabited

/-- The PCIe side: rings, host memory as the Yebel has written it, records waiting, and the BAR. -/
structure HostSide where
  /-- Registers of block DEV_PCIE, HOSTFLAG and IPCFG, which no checkpoint restores, by address. -/
  regs  : Tab Word
  rings : Tab InRing
  outs  : Tab OutRing
  /-- Bytes of host memory that the Yebel has written, addresses rising. -/
  mem   : List Host.Cell
  /-- Punt records buffered toward PCIe, oldest first (R440). -/
  punts : List PuntRec
  /-- Data of the last BAR read completion, in byte-lane order (R459 to R461). -/
  barData : List Byte
  /-- The PCIe link is out of L0 for a near-end loopback, since this monotonic ns (R547). -/
  loopback : Bool
  loopAt   : Nat
  /-- Control cores in service and in reserve, and those whose machine-check flag is set (R540, R541). -/
  cores  : List Nat
  coreSpares : List Nat
  coreFlags : List Nat
  /-- The control complex is up in QUIESCENT to serve commands (R435). -/
  ctrlAwake : Bool
  /-- Monotonic ns of the last command that needed the control complex in QUIESCENT (R435). -/
  ctrlAt : Nat
  /-- The ROM sequencer serves the rings (R434). -/
  rom : Bool
  deriving DecidableEq, Repr, Inhabited

/-- A register command that waits for a block's BUSY to clear, or for the work of a PW field that it has written (R466): the
registers it has written, when it began to wait, and the first register's value before. -/
structure RegWait where
  cmd   : Started
  done  : Nat
  since : Nat
  old   : Word
  deriving DecidableEq, Repr, Inhabited

/-- What the blocks' write ports hold beside the registers' values in effect. -/
structure Ports where
  /-- Bits of W1C, W1S, SC and HU fields, by register address: software and hardware both write them (R453). -/
  hw     : Tab Word
  /-- Pending values of SHADOW registers (R451). -/
  shadow : Tab Word
  /-- Values held for blocks whose power domain is off (R456). -/
  held   : Tab Word
  /-- The bits in which the second and third copies of a TV register differ from the first (R467). -/
  tvB    : Tab Word
  tvC    : Tab Word
  /-- TV registers whose disagreement has been logged since they were last written (R467). -/
  tvSaid : List Nat
  /-- Sticky bits and LASTOFS of each block's BSTAT (R448), by register address bits [31:16]. -/
  bstat  : Tab Word
  /-- Blocks with a posted write not yet applied (R465), by register address bits [31:16]. -/
  busy   : List Nat
  /-- Register commands that wait (R466). -/
  waits  : List RegWait
  deriving DecidableEq, Repr, Inhabited

end Sys2Proof.Machine
end

