-- ==== Sys2Proof/Machine/StLine.lean ====
section
/-! DEFINITION. State of line ports, lanes, Span instances and Span groups (chapters 02 and 03). -/

namespace Sys2Proof.Machine

/-- A line port's configuration (R52, R53). WIDTH is the code of R52: 2^width lanes. -/
structure PortCfg where
  up       : Bool
  type     : Nat
  width    : Nat
  rxInv    : Byte
  txInv    : Byte
  base     : Nat
  maxFrame : Nat
  group    : Nat
  phy      : Nat
  entries  : List Word
  deriving DecidableEq, Repr, Inhabited

/-- One carrier of a Span group as configured, with its counts in effect (R77). -/
structure Carrier where
  port    : Nat
  maxInst : Nat
  tx      : Nat
  rx      : Nat
  deriving DecidableEq, Repr, Inhabited

/-- A Span group's configuration (R77, R79). -/
structure SpanCfg where
  up       : Bool
  rxGid    : Nat
  couple   : Bool
  partner  : Nat
  prot     : Bool
  chan     : Nat
  maxFrame : Nat
  maxSkew  : Nat
  tmo      : Nat
  carriers : List Carrier
  deriving DecidableEq, Repr, Inhabited

/-- States of the lane machine (R68). -/
inductive Fsm
  | hunt | confirm | inFrame | flywheel
  deriving DecidableEq, Repr, Inhabited

/-- A tracked candidate of the lane machine (R66, R67): the position of its creating hit in the lane's
4,096-block frame, the slot, frames since the hit, exact FAS seen since, and the run of consistent
MFAS and SFC with its last values. -/
structure Cand where
  pos  : Nat
  slot : Nat
  age  : Nat
  fas  : Nat
  run  : Nat
  mf   : Nat
  sf   : Nat
  deriving DecidableEq, Repr, Inhabited

/-- Codeword lock of a lane (R65): its runs of good and of uncorrectable codewords, and the monotonic ns of its last
change or of ADMIN_UP. -/
structure CwLock where
  lock  : Bool
  good  : Nat
  bad   : Nat
  since : Nat
  deriving DecidableEq, Repr, Inhabited

/-- What the last frame periods showed at one block position: exact FAS in a row, and the run of consistent MFAS and
SFC with its last values (R67, R69). -/
structure Trk where
  fas : Nat
  run : Nat
  mf  : Nat
  sf  : Nat
  deriving DecidableEq, Repr, Inhabited

/-- A block on a Span lane: 32 bytes of data, or none in an idle block (R57, R58). -/
abbrev LaneBlock := Option (List Byte)

/-- One line lane: codeword lock (R65), the lane machine (R68) and dLOCW (R72). -/
structure Lane where
  cw     : CwLock
  /-- By block position, while the lane is in CONFIRM. -/
  track  : Tab Trk
  locw   : Bool
  fsm    : Fsm
  cands  : List Cand
  /-- Position of the accepted round's slot 0 in the lane's frame. -/
  start  : Nat
  errs   : Nat
  /-- The blocks of the last codeword read, and blocks read since lock (R57). -/
  got    : List LaneBlock
  blocks : Nat
  deriving DecidableEq, Repr, Inhabited

/-- A dejustified block that waits for the deskew reader: its number, bytes and monotonic ns of delivery (R89). -/
structure FifoBlock where
  g     : Nat
  bytes : List Byte
  time  : Nat
  deriving DecidableEq, Repr, Inhabited

/-- One Span instance as received (R69 to R73, R84 to R87). -/
structure Inst where
  /-- The check of R69: accepted, exact FAS seen, run of consistent MFAS and SFC. -/
  acc    : Bool
  fas    : Nat
  run    : Nat
  fasBad : Nat
  /-- Expected MFAS and SFC of the next frame. -/
  mf     : Nat
  sf     : Nat
  mfBad  : Nat
  mfGood : Nat
  lof    : Bool
  clean  : Nat
  lom    : Bool
  iid    : Bool
  idBad  : Nat
  idGood : Nat
  bdiOn  : Nat
  bdiOff : Nat
  /-- XOR of the last frame's words (R64), and the count to return as BEI. -/
  bip    : Option (BitVec 16)
  bei    : Nat
  /-- Overhead bytes 9 to 59 last accepted (R63). -/
  oh     : List Byte
  /-- JNEXT of the last frame and of the one before it, where their OHCRC held; JCNT likewise (R87). -/
  jnext1 : Option Nat
  jnext2 : Option Nat
  jcnt1  : Option Nat
  jcnt2  : Option Nat
  ptr    : Option Nat
  ptrBad : Nat
  /-- Payload bytes of a block begun and not ended; the number of the next block that starts. -/
  part   : List Byte
  inBlock : Bool
  /-- Number of the block under way. -/
  curG    : Nat
  nextG  : Option Nat
  /-- Number of the first block that started in the last frame (R81). -/
  firstG : Option Nat
  gposBad : Nat
  /-- Consecutive good frames in which ICOUNT differs from, or agrees with, the receive calendar (R97). -/
  calBad : Nat
  calGood : Nat
  fifo   : List FifoBlock
  /-- Runs of RESIZE fields in consecutive good frames: FCMD, RSEQ, NEWCOUNT and count; RCMD, RRSEQ, RTOTAL and count. -/
  fcmd   : List Nat
  rcmd   : List Nat
  deriving DecidableEq, Repr, Inhabited

/-- One Span instance as transmitted (R81, R85, R86). -/
structure TxInst where
  /-- Payload bytes of the group stream not yet sent, and numbers of the blocks whose first byte is
  among them, with their offsets. -/
  bytes  : List Byte
  starts : List (Nat × Nat)
  jnext  : Nat
  jcnt   : Nat
  mf     : Nat
  sf     : Nat
  /-- XOR of the last frame's words (R64), and the last frame sent. -/
  bip    : BitVec 16
  frame  : List Byte
  deriving DecidableEq, Repr, Inhabited

/-- One committed or removed port as it runs. -/
structure PortRun where
  /-- Standard defects that hold (R50, R73). -/
  std     : List PortDefect
  /-- Locks of a port of a standard type not reached since ADMIN_UP, and client locks that are lost (R50, R56). -/
  seek    : List PortDefect
  bdi     : Bool
  deg     : Bool
  hold    : Bool
  /-- Errored blocks of the running second, a payload-stopping defect in it, runs of bad and good
  seconds, and the last completed second's counts (R74, R76). -/
  errs    : Nat
  stopped : Bool
  badRun  : Nat
  goodRun : Nat
  lastErrs : Nat
  fec     : Nat
  lastFec : Nat
  /-- Entries that await their frame or multiframe boundary (R53). -/
  entries : Option (List Word)
  /-- Frames in a row with the same justification direction, and that direction (R88). -/
  justRun : Nat
  justDir : Nat
  justHeld : Bool
  deriving DecidableEq, Repr, Inhabited

/-- Delineation of a group's word stream (R83). -/
inductive Delin
  | hunt | presync | sync
  deriving DecidableEq, Repr, Inhabited

/-- A packet being read from a group's words (R81 to R83): its header, words still due, origin tag, bytes so
far, whether it overlaps a lost block, and the position of its first byte. -/
structure SpanPkt where
  head  : Word64
  due   : Nat
  tagDue : Bool
  tag   : Word64
  bytes : List Byte
  lost  : Bool
  pos   : Nat
  deriving DecidableEq, Repr, Inhabited

/-- One direction of a capacity handshake (R92 to R95): its phase, RSEQ, the counts before it, the new counts until
they apply, and SWITCH_SFC. -/
structure Shake where
  ph   : Nat
  seq  : Nat
  old  : List Nat
  new  : List Nat
  sfc  : Nat
  deriving DecidableEq, Repr, Inhabited

/-- One Span group as it runs. -/
structure SpanRun where
  /-- The reader has its place in the stream (R90). -/
  reading  : Bool
  /-- Number of the next block the reader takes, and the receive epoch's first block (R80, R90). -/
  rdG      : Nat
  rxEpoch  : Nat
  /-- The epoch before it: its first block and its counts by carrier (R80, R94). -/
  rxOld    : Option (Nat × List Nat)
  /-- Words read from deskew that wait for delineation: none is a word of a lost block. -/
  words    : List (Option Word64)
  /-- Stream position of the first waiting word (R81). -/
  wordPos  : Nat
  delin    : Delin
  /-- Words taken since the first candidate of PRESYNC (R83). -/
  back     : List (Option Word64)
  /-- Monotonic ns: the last change into or out of SYNC, the last lost block, the start of the transmit request. -/
  delinAt  : Nat
  lastLoss : Nat
  reqAt    : Nat
  /-- An instance in service is lost, and monotonic ns of the end of the last such time (R97). -/
  anyLost  : Bool
  clearAt  : Nat
  /-- Frames in a row with the skew within MAX_SKEW (R97). -/
  skewRun  : Nat
  /-- The skew's measurement of this multiframe under way: the first block of the calendar cycle it follows, and by
  calendar entry the carrier and the monotonic ns of delivery (R90). -/
  skewOf   : Option Nat
  skewSeen : List (Nat × Nat × Nat)
  valids   : Nat
  pkt      : Option SpanPkt
  /-- Words to skip before the expected header, in PRESYNC. -/
  skip     : Nat
  gskw     : Bool
  gpart    : Bool
  glos     : Bool
  gcal     : BitVec 16
  skew     : Nat
  latest   : Nat
  earliest : Nat
  /-- TXPH and RXPH with what they carry (R101). -/
  txShake  : Shake
  rxShake  : Shake
  nakWhy   : Nat
  /-- Counts mirrored by the acting member, for the next multiframe (R99). -/
  mirror   : Option (List Nat)
  /-- Words that wait to be laid into blocks; the next block's number and the epoch's first block (R80, R81). -/
  txWords  : List Word64
  txG      : Nat
  txEpoch  : Nat
  deriving DecidableEq, Repr, Inhabited

/-- A packet that has reached the gangway's door: its line port, channel, manifest number, bytes
without FCS trailer dropped, arrival time and whether its tail is bad (R54, R55). -/
structure RxPkt where
  port     : Nat
  chan     : Nat
  manifest : BitVec 48
  time     : Word64
  bad      : Bool
  origin   : Option (BitVec 16)
  bytes    : List Byte
  deriving DecidableEq, Repr, Inhabited

/-- A Span lane as transmitted: blocks that wait for their codeword, and the message bits of the codewords sent in the last frame
time (R57). -/
structure LaneTx where
  blocks : List LaneBlock
  words  : List (BitVec 5140)
  deriving DecidableEq, Repr, Inhabited

/-- The line side. -/
structure LineSide where
  laneTx : Tab LaneTx
  lanes : Tab Lane
  insts : Tab Inst
  txs   : Tab TxInst
  ports : Tab PortRun
  spans : Tab SpanRun
  /-- Units counted on a channel since its origin (R55, R56). -/
  pos   : Tab Nat
  deriving DecidableEq, Repr, Inhabited

end Sys2Proof.Machine
end

