-- ==== Sys2Proof/Machine/StFd.lean ====
section
/-! DEFINITION. State of the forwarding die: gangway, rule versions, punts and fragments (chapter 04), LPM
and exact-match tables (chapter 05), associative banks (chapter 06), action engines (chapter 07), and the
die-to-die interface (chapter 01). -/

namespace Sys2Proof.Machine

/-! ## Configuration -/

/-- One bank of the versioned set (R119, R176): objects by index, and the values of the SHADOW registers
that the version carries, by address. -/
structure RuleBank where
  version   : Nat
  states    : Tab (List Word)
  trans     : Tab (List Word)
  profiles  : Tab (List Word)
  chanMap   : Tab (List Word)
  templates : Tab (List Word)
  patterns  : Tab (List Word)
  regs      : Tab Word
  deriving DecidableEq, Repr, Inhabited

/-- One exact-match entry (R143 to R161). -/
structure XEnt where
  tid     : Nat
  wide    : Bool
  key     : List Byte
  static  : Bool
  learned : Bool
  portv   : Bool
  port    : Nat
  hit     : Bool
  strike  : Bool
  /-- The port's generation at its last write (R161). -/
  stamp   : Nat
  result  : Word64
  deriving DecidableEq, Repr, Inhabited

/-- A chain's configuration (R168, R169): WIDTH is its code. -/
structure ChainCfg where
  en      : Bool
  width   : Nat
  depthM1 : Nat
  first   : Nat
  deriving DecidableEq, Repr, Inhabited

/-- An associative entry (R170); VALUE and MASK stand at the most significant end. -/
structure AEnt where
  pri    : Nat
  handle : Nat
  value  : BitVec 640
  mask   : BitVec 640
  result : Word64
  deriving DecidableEq, Repr, Inhabited

/-- The forwarding die's part of what a checkpoint holds (R366). -/
structure FdSetup where
  rules  : RuleBank
  /-- Program words by control-store address, and programs by first page with their length (R209). -/
  words  : Tab Word64
  progs  : Tab Nat
  /-- LPM routes: the 64-bit result by family, VRF, address and prefix length (R136, R138). -/
  lpm    : Tab Word64
  /-- Exact-match entries by place (R145): cluster, bank, bucket and way, or stash index. -/
  exact  : Tab XEnt
  chains : Tab ChainCfg
  /-- Associative entries by chain and chain address (R168). -/
  asc    : Tab AEnt
  deriving DecidableEq, Repr, Inhabited

/-! ## Gangway -/

/-- A packet in the gangway, a hold buffer or a staging FIFO: its bucket and flow hash (R103). -/
structure Staged where
  pkt    : RxPkt
  bucket : Nat
  hash   : Word
  deriving DecidableEq, Repr, Inhabited

/-- A move of R105. -/
structure GangMove where
  bucket : Nat
  target : Nat
  /-- Step 1: the target slice wakes. -/
  waking : Bool
  held   : List Staged
  /-- Monotonic ns of step 2. -/
  since  : Nat
  /-- An overflow of the hold buffer has been logged for this move (R106). -/
  said   : Bool
  /-- PIN of the GANGWAY_MOVE that asked for it; none for the ferryman and for a drain. -/
  pin    : Option Bool
  /-- A drain of R583, which is never abandoned. -/
  drain  : Bool
  deriving DecidableEq, Repr, Inhabited

/-- The GANGWAY_MOVE that runs (R107). -/
structure GangCmd where
  first : Nat
  next  : Nat
  last  : Nat
  slice : Nat
  pin   : Bool
  deriving DecidableEq, Repr, Inhabited

/-- The gangway and the FD mapping (R23 to R25, R104 to R108). -/
structure Gangway where
  /-- Bucket to logical slice; bucket b at rest on b mod 16. -/
  map    : Tab Nat
  pins   : Tab Bool
  /-- Packets of a bucket that have entered a slice and not left it (R105). -/
  counts : Tab Nat
  moves  : List GangMove
  cmd    : Option GangCmd
  /-- Buckets still to move in the drain of a slice (R583) or of a rollout step in place (R219). -/
  drains : List (Nat × Nat)
  /-- By logical slice: PHYS (0x1F none), STATE, ROT. -/
  phys   : Tab Nat
  st     : Tab Nat
  rot    : Tab Bool
  gen    : BitVec 16
  spare  : Nat
  /-- Physical slices fenced (R23, R216, R219). -/
  fenced : List Nat
  staging : Tab (List Staged)
  /-- Arrivals of a slice held by a rollout step (R218). -/
  rollHeld : List Staged
  /-- Arrivals of a channel whose DEEP bit a commit has changed (R116). -/
  chanHeld : Tab (Option (List Staged))
  /-- The last window's measures in units of 1/600,000 percent: u by logical slice, the byte figure by bucket (R478). -/
  use    : Tab Nat
  load   : Tab Nat
  /-- Logical slices that the ferryman has asked to wake (R479). -/
  wakes  : List Nat
  deriving DecidableEq, Repr, Inhabited

/-! ## Rule versions, punts and fragments -/

/-- The four banks of R119: the current one's number and content apart, older ones by bank. -/
structure Rules where
  cur   : Nat
  old   : Tab RuleBank
  /-- The open transaction: its bank, version and content (R121). -/
  stage : Option (Nat × RuleBank)
  /-- The instant of a scheduled commit (R123). -/
  sched : Option Word64
  deriving DecidableEq, Repr, Inhabited

/-- How an action program ends (R203, R131). -/
inductive Verdict
  | fwd | drop | punt (reason : Nat)
  deriving DecidableEq, Repr, Inhabited

/-- What a resolved fragment entry holds (R130). -/
structure FragRes where
  ver     : Nat
  verdict : Verdict
  slice   : Nat
  queue   : Nat
  mc      : Bool
  colour  : Nat
  /-- The program wrote COLOUR, so a meter's colour does not replace it. -/
  colSet  : Bool
  ct      : Bool
  emeta   : Word
  /-- Meter with its colour-aware bit, and counter. -/
  meter   : Option (Nat × Bool)
  counter : Option Nat
  deriving DecidableEq, Repr, Inhabited

/-- A fragment entry (R129, R130). -/
structure Frag where
  chan    : Nat
  key     : List Byte
  created : Nat
  res     : Option FragRes
  bytes   : Nat
  total   : Option Nat
  /-- Held fragments, with the logical slice each was held in. -/
  held    : List (Nat × Staged)
  deriving DecidableEq, Repr, Inhabited

/-! ## Lookups -/

/-- A change that one cluster sends the other (R163): a learn or rewrite, or an aging deletion. -/
structure Cross where
  del  : Bool
  ent  : XEnt
  deriving DecidableEq, Repr, Inhabited

/-- An iterator of TBL_NEXT (R158 to R160). -/
structure Iter where
  inUse   : Bool
  allTid  : Bool
  learnedOnly : Bool
  tid     : Nat
  /-- The next place to visit. -/
  pos     : Nat
  /-- Catch list: TID, width, key, and whether it is a skip mark (R159). -/
  caught  : List (Nat × Bool × List Byte × Bool)
  /-- Keys returned already out of the bucket that the walk is in (R159). -/
  given   : List (Nat × Bool × List Byte)
  /-- Buckets done; the catch list is being returned. -/
  tail    : Bool
  last    : Nat
  deriving DecidableEq, Repr, Inhabited

/-- A flush of a port (R161). -/
structure Flush where
  port    : Nat
  allTid  : Bool
  tid     : Nat
  learnedOnly : Bool
  since   : Nat
  /-- The CLUSTER field of its command: one command on both clusters ends with one event (R161). -/
  clusters : Nat
  deriving DecidableEq, Repr, Inhabited

/-- One lookup cluster's running state (R142 to R165). -/
structure Cluster where
  diverged : Bool
  /-- Learns queued, and whether each is the rewrite of a move (R154, R155). -/
  learns   : List (Bool × XEnt)
  /-- Changes queued toward this cluster. -/
  cross    : List Cross
  iters    : Tab Iter
  flushes  : List Flush
  /-- Stash indices, oldest entry first (R147). -/
  order    : List Nat
  gens     : Tab Nat
  counts   : Tab Word
  /-- Ways counted as lost (R150). -/
  waysLost : Nat
  /-- By TID, the DEVTIME of its last aging pass, or of the last write of its AGE (R156, R157). -/
  passed   : Tab Word64
  deriving DecidableEq, Repr, Inhabited

/-- A TBL_SYNC of mode 1 to 3 that runs, with its filter (R164). -/
structure SyncRun where
  mode   : Nat
  allTid : Bool
  tid    : Nat
  deriving DecidableEq, Repr, Inhabited

/-- A block move (R180): the entry to place, the addresses whose entries still move, in the order of the
steps, and the address that the next write goes to. -/
structure BlockMove where
  chain : Nat
  ent   : AEnt
  path  : List Nat
  dst   : Nat
  deriving DecidableEq, Repr, Inhabited

/-- The ASC_INSERT that waits for block-move steps: the records after the one being placed, how many were
applied, how many replaced a handle, the chains and handles placed, and the move (R180 to R185). -/
structure AscRun where
  cmd     : Started
  recs    : List (List Word)
  applied : Nat
  aux     : Nat
  placed  : List (Nat × Nat)
  move    : BlockMove
  deriving DecidableEq, Repr, Inhabited

/-- Associative banks as they run (R167 to R194). -/
structure Asc where
  /-- Logical to physical bank where they differ, and spare physical banks in ascending order. -/
  phys     : Tab Nat
  spares   : List Nat
  /-- Rows retired: logical bank and row. -/
  retired  : List (Nat × Nat)
  /-- Rows repaired at their last compare, and repairs of a bank in a DEVTIME hour. -/
  suspect  : List (Nat × Nat)
  repairs  : Tab (Nat × Nat)
  /-- The logical bank being copied to a spare, and banks that wait for that copy to end (R193). -/
  swap     : Option Nat
  failing  : List Nat
  run      : Option AscRun
  /-- ASC commands that wait their turn (R185). -/
  waits    : List Started
  actNow   : Nat
  actMs    : Word
  deriving DecidableEq, Repr, Inhabited

/-- Lookups of the forwarding die. -/
structure Lookups where
  clusters : Tab Cluster
  sync     : Option SyncRun
  /-- LPM rebuilds that run: VRF and family (R141), and the LPM commands held. -/
  rebuild  : List (Nat × Nat)
  held     : List Started
  asc      : Asc
  deriving DecidableEq, Repr, Inhabited

/-! ## Action engines -/

/-- A lookup or meter result on its way to a thread (R201): the register, the value, LKSTAT if it is set,
and the colour if it is a meter's. -/
structure Pend where
  d      : Nat
  value  : Word64
  lkstat : Option Word64
  colour : Option Nat
  deriving DecidableEq, Repr, Inhabited

/-- One EDIT as a program appends it (R202): the code, A, B, and the bytes of code 8. -/
structure EditOp where
  code  : Nat
  a     : Word64
  b     : Word64
  bytes : List Byte
  deriving DecidableEq, Repr, Inhabited

/-- What an egress packet brings from its queue (R28, R199, R279). -/
structure EgInfo where
  queue   : Nat
  node    : Nat
  chan    : Nat
  ruleVer : Nat
  colour  : Nat
  emeta   : Word
  stamp   : Word
  /-- DEVTIME at which the egress half received it (R439). -/
  time    : Word64
  /-- Chosen for ECN marking, with NONECT of its profile. -/
  ce      : Bool
  nonect  : Bool
  /-- Sent with a stomped FCS (R232, R233). -/
  stomp   : Bool
  /-- Its number among queued packets, and whether its tail status has arrived. -/
  ent     : Nat
  tailIn  : Bool
  /-- The framer sent its first byte before its tail status had arrived (R232). -/
  begun   : Bool
  /-- What an origin tag would hold (R99). -/
  orgSrc  : Nat
  orgMan  : BitVec 48
  deriving DecidableEq, Repr, Inhabited

/-- A thread with its packet (R197, R199). -/
structure Thread where
  id      : Nat
  slice   : Nat
  eg      : Option EgInfo
  pkt     : Staged
  ver     : Nat
  chan    : Nat
  regs    : List Word64
  pc      : Nat
  cycles  : Nat
  looks   : Nat
  layers  : List (Nat × Nat)
  /-- Input fields by selector. -/
  inputs  : Tab Word64
  lkstat  : Word64
  queue   : Option Nat
  mc      : Bool
  /-- COLOUR, and whether the program has written it (R199). -/
  colour  : Nat
  colSet  : Bool
  ct      : Bool
  emeta   : Word
  meter   : Option (Nat × Bool)
  counter : Option Nat
  edits   : List EditOp
  wait    : Option Pend
  /-- The program has ended. -/
  done    : Option Verdict
  /-- The packet is the first fragment of its datagram: key, offset and length, MF. -/
  frag    : Option (List Byte × Nat × Nat × Bool)
  deriving DecidableEq, Repr, Inhabited

/-- Engines of a physical slice: spares left, ingress and egress engines in service (R198). -/
structure Eng where
  spares : Nat
  ein    : Nat
  eeg    : Nat
  deriving DecidableEq, Repr, Inhabited

/-- A rollout (R217 to R220): the instant, the step, its stage (0 due, 1 holding, 2 switched), the old physical
slice of the step, and the sequence number of the new set. -/
structure Roll where
  t0    : Word64
  step  : Nat
  stage : Nat
  old   : Nat
  seq   : Nat
  /-- Buckets that a step in place has moved away, to be moved back (R219). -/
  away  : List Nat
  deriving DecidableEq, Repr, Inhabited

/-- A microcode set in a control store: its MCSEQ, the first bytes of the image its vendor region comes from, and its patches that
passed their verification (R206, R212). -/
structure MicroSet where
  seq     : Nat
  head    : List Byte
  patches : List PatchRec
  deriving DecidableEq, Repr, Inhabited

/-- Action engines and control stores. -/
structure Engines where
  threads : List Thread
  nextId  : Nat
  eng     : Tab Eng
  /-- Logical slices with MCHK set (R215). -/
  mchk    : List Nat
  /-- By logical slice: the address whose word is being rewritten after a failed fetch, and monotonic ns (R215). -/
  rewriting : Tab (Option (Nat × Nat))
  /-- MCSEQ of the set in each physical slice's control store. -/
  seqs    : Tab Nat
  /-- The set in the control store of each half of a physical slice, by power domain, and the golden copies: of the running set, and
  of the new one once its activation is accepted (R206, R212, R213). -/
  stores  : Tab (Option MicroSet)
  golden  : List MicroSet
  roll    : Option Roll
  /-- Released packets on their way to an egress half, oldest first, by logical slice. -/
  egress  : Tab (List (Staged × EgInfo))
  /-- Edited frames that wait for the framer, by egress port node: bytes, queue and stomp. -/
  tx      : Tab (List (List Byte × EgInfo))
  /-- The last frame that each port node has sent. -/
  sent    : Tab (List Byte)
  deriving DecidableEq, Repr, Inhabited

/-! ## Die-to-die interface -/

/-- One direction of a module as its receiver keeps it (R34, R37): expected FSEQ, the discard after a failing flit, failures
of one FSEQ in a row, the FSEQ of the last negative acknowledgement, flits since the last acknowledgement, and by VC the
payload of the packet under way and of the last one that ended. -/
structure D2dDir where
  expect  : Nat
  discard : Bool
  fails   : Nat
  nak     : Option Nat
  since   : Nat
  part    : Tab (List Byte)
  last    : Tab (List Byte)
  deriving DecidableEq, Repr, Inhabited

/-- What a flit of VC7 says (R34, R37): every flit before this FSEQ has come, or the flit of this FSEQ is asked for. -/
inductive LinkMsg
  | ack (f : Nat) | nak (f : Nat)
  deriving DecidableEq, Repr, Inhabited

/-- A flit to send: its VC and POS, its payload, the number of its packet, and what it says where it is one of VC7. -/
structure TxFlit where
  vc    : Nat
  pos   : Nat
  body  : List Byte
  pkt   : Nat
  msg   : Option LinkMsg
  deriving DecidableEq, Repr, Inhabited

/-- One direction of a module as its transmitter keeps it (R34, R37, R40): flits that wait, by VC; the next FSEQ; flits sent
and not acknowledged, with FSEQ and bytes, oldest first, and how many of them are to be sent again; the VC after the
last served of VC0 to VC3 (0) and of VC4 and VC5 (1); flits since the last one of VC4 or VC5; flits sent by VC whose credits
are not returned; credits to return; and the last flit sent. -/
structure D2dTx where
  waits  : Tab (List TxFlit)
  fseq   : Nat
  replay : List (Nat × TxFlit × List Byte)
  again  : Nat
  turns  : Tab Nat
  starved : Nat
  used   : Tab Nat
  owed   : Tab Nat
  sent   : List Byte
  deriving DecidableEq, Repr, Inhabited

/-- A packet with flits on a module that are not acknowledged (R38): its number, module × 2 plus 1 for TD to FD (none
while no module takes it), and its flits. -/
structure D2dSend where
  pkt   : Nat
  way   : Option Nat
  up    : Bool
  flits : List TxFlit
  deriving DecidableEq, Repr, Inhabited

/-- A packet handed to the die-to-die interface: its descriptor's bits and data, and the origin tag (R35, R299). -/
structure Crossing where
  desc   : BitVec 256
  bytes  : List Byte
  origin : Option (BitVec 16)
  bad    : Bool
  /-- Its tail status has arrived, and whether its queue map entry fails its check (R232, R301). -/
  tail   : Option Bool
  mapBad : Bool
  deriving DecidableEq, Repr, Inhabited

/-- The receive order of one source slice (R39): the next PSEQ, what is held, and since when a gap is open. -/
structure Reorder where
  next : Nat
  held : List (Nat × Crossing)
  gap  : Option Nat
  deriving DecidableEq, Repr, Inhabited

/-- The die-to-die interface. -/
structure D2d where
  /-- By module × 2, plus 1 for TD to FD. -/
  dirs     : Tab D2dDir
  txs      : Tab D2dTx
  sends    : List D2dSend
  nextPkt  : Nat
  /-- The module that the last packet went to. -/
  lastMod  : Nat
  training : List Nat
  retired  : List Nat
  /-- The next PSEQ of each source slice. -/
  pseq     : Tab Nat
  flight   : List Crossing
  order    : Tab Reorder
  /-- Packets in order whose crossbar input withholds VC1 credits, by source slice, oldest first (R226). -/
  stalled  : Tab (List Crossing)
  deriving DecidableEq, Repr, Inhabited

/-- The forwarding die as it runs. -/
structure FdSide where
  gang   : Gangway
  rules  : Rules
  /-- Punt tokens in millionths of a packet by reason, the aggregate bucket, and the last refill (R127, R128). -/
  punt   : Tab Nat
  agg    : Nat
  filled : Nat
  frags  : List Frag
  look   : Lookups
  eng    : Engines
  d2d    : D2d
  deriving DecidableEq, Repr, Inhabited

end Sys2Proof.Machine
end

