-- ==== Sys2Proof/Machine/StFw.lean ====
section
/-! DEFINITION. State of firmware images and their update (chapter 17). -/

namespace Sys2Proof.Machine

/-- What the Yebel keeps of one image in a bank or slot (R500, R508). The bytes are kept while an
image is being staged; afterwards the fields that R508 reports. -/
structure Image where
  /-- The part has written or emptied it since the model's first step (log 72). -/
  seen    : Bool
  /-- STATE of R508. -/
  state   : Nat
  cause   : Nat
  type    : Nat
  svn     : Nat
  version : Word
  keyid   : Word
  payloadLen : Nat
  rootSlot : Nat
  /-- The vendor region's SVN under a patch bundle (R503, R511). -/
  baseSvn : Nat
  /-- The first bytes of the image that the vendor region comes from (R502, R503). -/
  baseHead : List Byte
  /-- LENGTH of the transfer that staged it, and the bytes received of it (R501, R505). -/
  length  : Nat
  had     : Nat
  /-- The first 0x200 bytes (R500). -/
  head     : List Byte
  /-- Patches of the bundle in ascending slot, and whether each is loaded (R502, R516). -/
  patches : List (PatchRec × Bool)
  deriving DecidableEq, Repr, Inhabited

/-- A staging session (R505, R506, R520, R521). -/
structure Session where
  slip    : Bool
  /-- The session number of the slipway transfer; 0 while only armed. -/
  sess    : BitVec 16
  length  : Nat
  /-- The bytes written so far, from offset 0 without a gap. -/
  bytes   : List Byte
  /-- DATA messages received since the last ACK, and the monotonic ns from which an ACK is owed (R521). -/
  since   : Nat
  acked   : Nat
  /-- Monotonic ns of the last WRITE or DATA. -/
  last    : Nat
  verifying : Bool
  deriving DecidableEq, Repr, Inhabited

/-- An activation that waits for its instant (R512, R515). -/
structure Activation where
  obj    : Nat
  target : Nat
  due    : Word64
  deriving DecidableEq, Repr, Inhabited

/-- A message of the slipway transfer protocol (R520). -/
structure SlipMsg where
  type    : Nat
  session : BitVec 16
  offset  : Nat
  value   : Nat
  deriving DecidableEq, Repr, Inhabited

/-- Images, banks, slots, floors, activation and the slipway port. -/
structure Fw where
  /-- Keys: 0 bank A, 1 bank B, 2 microcode slot 0, 3 slot 1. -/
  images   : Tab Image
  bootBank : Nat
  runBank  : Nat
  trial    : Bool
  mcSlot   : Nat
  fwFloor  : Nat
  mcFloor  : Nat
  revoked  : BitVec 4
  /-- Staging sessions by OBJ. -/
  sessions : Tab (Option Session)
  /-- Objects whose verification runs, with the index of the image (R501). -/
  verifying : List Nat
  activation : Option Activation
  /-- The control restart under way: its stage, 1 quiescing, 2 loading; the monotonic ns of its T (R514). -/
  restarting : Nat
  restartAt : Nat
  slipCause : Nat
  lastCause : Nat
  rxKib    : Nat
  link     : Bool
  /-- Messages the slipway port has sent, oldest first: the transfer protocol's, then ARP and ICMP answers by
  their source address. -/
  sent     : List SlipMsg
  answers  : List (Nat × List Byte)
  deriving DecidableEq, Repr, Inhabited

end Sys2Proof.Machine
end

