-- ==== Sys2Proof/Machine/StMem.lean ====
section
/-! DEFINITION. State of the HBM stacks, the persistent store, spares and the life log (chapter 12). -/

namespace Sys2Proof.Machine

/-- One HBM pseudo-channel (R356 to R360). -/
structure Pc where
  /-- Redirected rows (R358), with the redirects whose copy still runs. -/
  redirects : List Nat
  copying   : List Nat
  /-- Correctable errors: row and store power-on hour; uncorrectable errors: row and monotonic ns (R357, R360). -/
  ces       : List (Nat × Nat)
  ues       : List (Nat × Nat)
  /-- Hard repairs made (R359), and data-lane repairs in use (R351). -/
  hard      : Nat
  laneFixes : Nat
  /-- Postponed refresh by bank, in half-windows (R355). -/
  debt      : Tab Nat
  /-- Taken out of service: replaced by the spare, or lost without one (R360, R361). -/
  gone      : Bool
  deriving DecidableEq, Repr, Inhabited

/-- One HBM stack. PC 63 is the spare until it is swapped in. -/
structure Stack where
  inServ : Nat
  spare  : Bool
  lost   : Nat
  /-- Corrected errors in the running hour and in the last completed one. -/
  ceNow  : Nat
  ce     : Nat
  pcs    : Tab Pc
  /-- The PC being copied to the spare, with the cause for the life log; triggers that wait (R360). -/
  swap   : Option (Nat × Nat)
  waits  : List (Nat × Nat)
  selfRefresh : Bool
  deriving DecidableEq, Repr, Inhabited

/-- A checkpoint that is scheduled or running (R367, R368). -/
structure CkptRun where
  incr  : Bool
  due   : Word64
  /-- Its size in KiB once its instant has come; it is then being written. -/
  kib   : Option Nat
  /-- Entry to QUIESCENT asked for it (R487). -/
  quiesce : Bool
  deriving DecidableEq, Repr, Inhabited

/-- A record of the life log (R374). -/
structure LifeRec where
  time  : Word64
  poh   : Nat
  kind  : Nat
  cause : Nat
  loc   : Nat
  old   : Nat
  new   : Nat
  left  : Nat
  deriving DecidableEq, Repr, Inhabited

/-- Spares and the life log. -/
structure Spares where
  /-- Used, by KIND (R371). -/
  used   : Tab Nat
  /-- Redundant die-to-die lanes in use, by module × 2, plus 1 for TD to FD (R33, R371). -/
  lanes  : Tab Nat
  log    : List LifeRec
  /-- Records not yet written to both copies (R374). -/
  unwritten : List LifeRec
  full   : Bool
  /-- Store power-on hours (R370). -/
  poh    : Nat
  /-- A substitution that runs, by KIND (R372). -/
  busy   : List Nat
  deriving DecidableEq, Repr, Inhabited

/-- The stacks and what the store's blocks hold beside images and checkpoints. -/
structure MemSide where
  hbm : Tab Stack
  /-- The defect map: logical block and spare block (R364); blocks past the last spare; blocks that a command retires,
  with the cause for the life log (R372). -/
  defects : List (Nat × Nat)
  lostBlocks : List Nat
  retiring : List (Nat × Nat)
  /-- Writes to the most-written cell of each region: 0 checkpoints, 1 journal, 2 counters, in KiB written (R365). -/
  written : Tab Nat
  /-- The journal bucket in units of 1/1,953,125 byte (R365), and the monotonic ns of its last refill. -/
  tokens   : Nat
  refilled : Nat
  run      : Option CkptRun
  /-- Tick of the start of the last full checkpoint (R365). -/
  lastFull : Option Nat
  /-- Blocks rewritten by the retention pass since its last report; the monotonic ns of that report; power-on hour of each
  block's last write, where not 0; power-on hour of the last completed pass; the blocks that the running pass has read (R370,
  R377). -/
  rewritten : Nat
  reported : Nat
  wroteAt  : Tab Nat
  passHour : Nat
  passSeen : List Nat
  /-- The physical block that holds a logical block which the pass has rewritten (R370). -/
  moved    : Tab Nat
  /-- Persistent counter sets written, and the monotonic ns of the last (R365). -/
  pcSets   : Nat
  pcAt     : Nat
  /-- PCs lost without a spare, as stack × 64 + PC, and their berths counted as retired (R361). -/
  lostPcs  : List Nat
  retired  : Nat
  deriving DecidableEq, Repr, Inhabited

end Sys2Proof.Machine
end

