-- ==== Sys2Proof/Machine/StOam.lean ====
section
/-! DEFINITION. State of OAM sessions and of counters (chapter 13). -/

namespace Sys2Proof.Machine

/-- An OAM session as OAM_SESSION_SET gives it (R392): configuration. -/
structure OamCfg where
  ccm    : Bool
  en     : Bool
  txq    : Nat
  txInt  : Nat
  rxInt  : Nat
  mult   : Nat
  pduOff : Nat
  disc   : Word
  tpl    : List Byte
  deriving DecidableEq, Repr, Inhabited

/-- A session's running state (R394 to R397, and the record of R335). -/
structure OamRun where
  /-- 0 AdminDown, 1 Down, 2 Init, 3 Up (R396). -/
  state   : Nat
  /-- LOC, RDI, MMG, UNM, UNP from bit 4 down. -/
  defects : BitVec 5
  diag    : BitVec 5
  poll    : Bool
  remote  : Word
  rTx     : Word
  rRx     : Word
  rMult   : Nat
  /-- Monotonic ns of the next transmit; none where the remote asks for no frames (R380, R385, R394). -/
  nextTx  : Option Nat
  /-- DEVTIME and monotonic ns of the last valid frame (R385, R394, R396). -/
  lastRx  : Word64
  rxAt    : Nat
  txSeq   : Word
  sent    : Word
  rcvd    : Word
  /-- CCM: monotonic ns of the last three valid frames, newest first, and those at which MMG, UNM and UNP clear, by defect
  bit (R391). -/
  good    : List Nat
  clearAt : Tab Nat
  /-- Frames with state AdminDown still to send before the session is freed (R393). -/
  leaving : Nat
  /-- Monotonic ns, plus 1, of the last event logged for the session (R396). -/
  said    : Nat
  deriving DecidableEq, Repr, Inhabited

/-- The OAM engine. -/
structure Oam where
  runs    : Tab OamRun
  /-- The change map, by word (R396). -/
  changes : Tab Word
  /-- Host-bound frames in the DEVTIME second numbered `second` (R395). -/
  toHost  : Nat
  second  : Nat
  /-- Frames that the engine has received in the DEVTIME second numbered `gotSec` (R394, R395). -/
  got     : Nat
  gotSec  : Nat
  deriving DecidableEq, Repr, Inhabited

/-- A programmable counter's program (R399): configuration. -/
structure CntProg where
  en     : Bool
  byLen  : Bool
  event  : Nat
  privs  : BitVec 4
  classes : BitVec 8
  masterEn : Bool
  master : Nat
  addr   : Word
  mask   : Word
  deriving DecidableEq, Repr, Inhabited

/-- A flow and route counter pair (R398). -/
structure Flow where
  bytes : BitVec 67
  pkts  : BitVec 61
  deriving DecidableEq, Repr, Inhabited

/-- An increment on its way to DRAM: pair, bytes, packets, and the DEVTIME of its CNT (R398, R405). -/
structure FlowInc where
  idx   : Nat
  bytes : Nat
  pkts  : Nat
  time  : Word64
  deriving DecidableEq, Repr, Inhabited

/-- A grant of counters to user rings (R402). -/
structure Grant where
  rings  : BitVec 8
  rights : BitVec 2
  flow   : Bool
  first  : Nat
  count  : Nat
  deriving DecidableEq, Repr, Inhabited

/-- A snapshot that is scheduled or being copied (R404). -/
structure Snap where
  clr   : Bool
  due   : Word64
  first : Nat
  count : Nat
  cut   : Bool
  deriving DecidableEq, Repr, Inhabited

/-- Counters. -/
structure Counters where
  prog   : Tab Word64
  flow   : Tab Flow
  incs   : List FlowInc
  snapProg : Tab Word64
  snapFlow : Tab Flow
  /-- By space: 0 programmable, 1 flow. -/
  snaps  : Tab (Option Snap)
  grants : Tab (Option Grant)
  /-- The counters of R407, by scope × 2^16 + unit × 2^5 + index. -/
  ports  : Tab Word64
  deriving DecidableEq, Repr, Inhabited

end Sys2Proof.Machine
end

