-- ==== Sys2Proof/Machine/StPair.lean ====
section
/-! DEFINITION. State of the redundant pair (chapter 11) and of link and production test (chapter 19). -/

namespace Sys2Proof.Machine

/-- The fields of PAIR_CFG (R319). -/
structure PairCfg where
  en : Bool
  auto : Bool
  refEn : Bool
  mirror : Bool
  refTmo : Nat
  yieldMask : BitVec 4
  peerNode : Nat
  alignWin : Nat
  pathOfs : Int
  deriving DecidableEq, Repr, Inhabited

/-- The payload of the peer's last status frame (R335, TTYPE 1). -/
structure PeerStatus where
  health   : Word64
  node     : Nat
  peerNode : Nat
  en       : Bool
  mirror   : Bool
  auto     : Bool
  deriving DecidableEq, Repr, Inhabited

/-- Manifest alignment of one channel (R340 to R344). -/
structure Align where
  enabled  : Bool
  aligned  : Bool
  /-- Alignment runs: DEVTIME at which it began. -/
  began    : Option Word64
  /-- This member, and the peer, have kept lock on the channel since its last alignment; and hold lock now. -/
  kept     : Bool
  peerKept : Bool
  lock     : Bool
  peerLock : Bool
  refusals : Nat
  mismatches : Nat
  /-- This member's origin markers: arrival DEVTIME and position (R55, R341). -/
  markers  : List (Word64 × Nat)
  /-- The holder's marker last sent: T and P. -/
  sent     : Option (Word64 × Nat)
  /-- Monotonic ns of a third refusal in a row, after which alignment waits 1 s. -/
  retryAt  : Option Nat
  deriving DecidableEq, Repr, Inhabited

/-- One sample of the manifest check (R342). -/
structure Sample where
  chan : Nat
  crc  : Word
  manifest : BitVec 48
  time : Nat
  deriving DecidableEq, Repr, Inhabited

/-- A mirrored command whose reply waits for the peer's (R338). -/
structure MirrorWait where
  cmd  : Started
  code : Byte
  results : List Word
  since : Nat
  deriving DecidableEq, Repr, Inhabited

/-- The pair: interlock, referee, tether, alignment and self-test. -/
structure Pair where
  /-- True on side B (R316). -/
  sideB    : Bool
  /-- ILK_OWN is driven high: the member acts (R317). -/
  act      : Bool
  /-- ILK_PEER as recognised (R321). -/
  peerIlk  : Bool
  /-- Event 0x192 has been logged for the conflict that holds (R325). -/
  conflict : Bool
  /-- The readback fault of ILK_OWN, of OSEL (R326), and the bar on claiming that it leaves. -/
  ownFault : Bool
  oselFault : Bool
  barred   : Bool
  /-- The role is not claimed for 10 ms after a yield (R328), and its monotonic ns. -/
  yielded  : Bool
  yieldAt  : Nat
  /-- The hold-off runs since this monotonic ns: every condition of R323 has held without a break. -/
  holdoff  : Option Nat
  lastDrop : Nat
  /-- Self-test items that fail (R348), rounds, failures and the item of the last failure (R349). -/
  failing  : List Nat
  rounds   : Nat
  failures : Nat
  lastItem : Nat
  refOk    : Bool
  /-- Event 0x194 has been logged for a referee that is lost, and the monotonic ns of the last valid verdict, or from which one is
  awaited (R332). -/
  refLost  : Bool
  verdictAt : Nat
  allow    : BitVec 2
  verdict  : Word64
  /-- The last HEALTH frame sent and its FSEQ (R330). -/
  health   : Word64
  healthSeq : BitVec 4
  /-- DEVTIME of the last role change (R349). -/
  roleTime : Word64
  lanes    : BitVec 8
  /-- Codeword lock of the tether lanes (R333). -/
  locks    : Tab CwLock
  tetherUp : Bool
  /-- LSEQ of the next frame sent; of the next frame delivered; frames held in the reorder window. -/
  txSeq    : Word
  rxSeq    : Word
  ahead    : List TetherFrame
  /-- Monotonic ns at which the gap before the frames held opened (R334). -/
  gapAt    : Nat
  /-- 1 + the lane that sent last, and what each lane sent last: a frame's blocks and the idle block behind them (R334). -/
  lastLane : Nat
  wire     : Tab (List (BitVec 257))
  /-- Frames sent and not acknowledged, oldest first (R334). -/
  replay   : List TetherFrame
  /-- Mirrored commands delivered and not yet replied to, in tether order (R338). -/
  inbox    : List Started
  peer     : Option PeerStatus
  /-- Monotonic ns of its arrival (R323). -/
  peerAt   : Nat
  /-- Monotonic ns of the last good frame, and of the first of the good status frames in a row while the tether is down (R336). -/
  goodAt   : Nat
  statusFrom : Option Nat
  /-- The pair is formed (R320); the cause of the last refusal logged, plus 1. -/
  formed   : Bool
  refused  : Nat
  /-- Status frames in a row whose ACT differs from ILK_PEER (R348 item 6). -/
  disagree : Nat
  waits    : List MirrorWait
  counts   : Tab Word
  chans    : Tab Align
  mine     : List Sample
  theirs   : List Sample
  sweepNo  : BitVec 16
  /-- A record of the peer's sweep differed by more than a sweep of its rate since the last round of item 9 (R348). -/
  mirrorOff : Bool
  deriving DecidableEq, Repr, Inhabited

/-- One generator and checker (R544 to R552). -/
structure Prbs where
  /-- P0 of the PRBS_CFG that runs it, and its P1; P0 is 0 when it does not run. -/
  cfg    : Word
  ins    : Word
  lock   : Bool
  /-- BITS in quarter bits, so that every link's rate is a whole number in a tick. -/
  nbits  : Nat
  errors : Nat
  lockLoss : Nat
  /-- Quarter bits sent since the command that set the insertion (R548). -/
  sent   : Nat
  /-- The generator's state when the run began, newest bit in [0]; no rule gives it but that it is not zero (R545). -/
  seed   : BitVec 31
  deriving DecidableEq, Repr, Inhabited

/-- Result of a self-test kind (R554). -/
structure BistResult where
  result  : Nat
  failing : Nat
  ms      : Nat
  deriving DecidableEq, Repr, Inhabited

/-- Which data register the TAP selects (R556). -/
inductive TapReg
  | idcode | boundary | bypass
  deriving DecidableEq, Repr, Inhabited

/-- What the data register that the TAP selects has captured, for TDO (R17, R556, R557). -/
inductive TapData
  | idcode (w : Word)
  | bypass
  | boundary (c : Cells)
  deriving DecidableEq, Repr, Inhabited

/-- Link test, self-test and the TAP. -/
structure TestState where
  /-- By TYPE × 512 + unit. -/
  prbs    : Tab Prbs
  /-- Runs by KIND: P0 and TARGET slice of the run. -/
  running : Tab (Option (Word × Nat))
  results : Tab BistResult
  tapCode : BitVec 8
  tapReg  : TapReg
  tdo     : TapData
  /-- What SAMPLE/PRELOAD left in the boundary cells for the balls, and what the cells drive on them (R557, R558). -/
  latch   : Cells
  driven  : Option Cells
  /-- The boundary cells have the balls, and every domain except the tollhouse is held in reset (R558). -/
  tapHolds : Bool
  deriving DecidableEq, Repr, Inhabited

end Sys2Proof.Machine
end

