-- ==== Sys2Proof/Machine/StPower.lean ====
section
/-! DEFINITION. State of power, clocks, modes, start, temperature and rails (chapters 16 and 20), of
the balls of R563, and of device time (chapter 13, Device time). -/

namespace Sys2Proof.Machine

/-- Settings of the ferryman (R483): configuration held in checkpoints. -/
structure FerryCfg where
  en : Bool
  idle : Bool
  off : Bool
  qoff : Bool
  minSlices : Nat
  high : Nat
  downMs : Nat
  offMs : Nat
  deriving DecidableEq, Repr, Inhabited

/-- A MODE_SET that has not taken effect (R485, R486, R327). -/
structure ModeReq where
  target   : Mode
  /-- The command, when its reply follows the moment its mode takes effect. -/
  cmd      : Option Started
  /-- A claim of R327 whose preparation is over: its hold-off runs. -/
  prepared : Bool
  deriving DecidableEq, Repr, Inhabited

/-- What a start that is due follows from (R488, R491, R518). -/
inductive StartKind
  | policy | cold | warm | quiescent | slipway
  deriving DecidableEq, Repr, Inhabited

/-- A fast PLL (R472, R474): whether it is stopped, whether it stays stopped until the next start, and
the monotonic times in ns of its failed relocks. -/
structure Pll where
  stopped : Bool
  dead    : Bool
  fails   : List Nat
  deriving DecidableEq, Repr, Inhabited

/-- A core or board rail as the tollhouse sees it (R496, R566, R569, R570). -/
structure Rail where
  out    : Bool
  fault  : Bool
  missed : Nat
  milliVolt : Nat
  milliAmp  : Nat
  /-- Monotonic ns of the last poll. -/
  polled : Option Nat
  deriving DecidableEq, Repr, Inhabited

/-- Power, clocks, modes and start-up. -/
structure Power where
  mode      : Mode
  /-- The mode before DRAIN (R485). -/
  before    : Mode
  modeReq   : Option ModeReq
  phase     : Nat
  lastReset : Nat
  lastStart : Nat
  duration  : Nat
  startDue  : Option StartKind
  /-- The start waits after step 2 for RAILS_OK (R568). -/
  railsWait : Bool
  /-- The start has ended with the firmware running (R490, R492). -/
  fwRuns    : Bool
  /-- Per domain: 0 on, 1 gated, 2 off, 3 changing (R475, R476). -/
  domains   : Tab Nat
  /-- Domains whose wake waits for the surge rule, in order of request, each with whether its supply was off; and the monotonic ns of
  the last supply ramps and of the last exits from the gated state (R477). -/
  wakeQ     : List (Nat × Bool)
  ramps     : List Nat
  leaves    : List Nat
  /-- FD halves and queue slices that have gated their own clock while idle, by domain (R481); the monotonic ns from which the input
  of such a domain has been empty, and from which every queue of a queue slice has been disabled and empty (R482). -/
  idle      : List Nat
  emptyAt   : Tab Nat
  quietAt   : Tab Nat
  /-- Entry to QUIESCENT waits for its checkpoint (R487). -/
  quiescing : Bool
  /-- The DRAIN that runs has been reported complete; monotonic ns at which it was entered (R487). -/
  drainSaid : Bool
  drainAt   : Nat
  refLost   : Bool
  plls      : Tab Pll
  rails     : Tab Rail
  /-- AVS target of each core rail in mV from the fuse bank, and ageing steps taken (R569, R570). -/
  avsSteps  : Tab Nat
  /-- By core rail, 1 more than the monotonic ns of its last ageing measurement since the start (R570). -/
  agedAt    : Tab Nat
  warnHeld  : Bool
  /-- The monotonic time in ns from which the reading has stood 5 °C below WARN (R495). -/
  coolSince : Option Nat
  tripped   : Bool
  junction  : Nat
  hbmTemp   : Tab Nat
  /-- A restart of R489 counts its 100 µs, of this kind, from this monotonic ns. -/
  restart   : Option Nat
  restartAt : Nat
  /-- The last refresh of the watchdog, monotonic ns (R488, R489). -/
  watchdog  : Nat
  /-- The number of the last window of 100 µs of DEVTIME that the ferryman has measured (R478). -/
  window    : Nat
  /-- Last window's U, in percent; the slice of the last drain or wake; DEVTIME of the last action (R478, R479, R494). -/
  util      : Nat
  lastSlice : Nat
  lastAct   : Word64
  /-- The slice being drained; monotonic times in ns at which need fell below the halves in service and
  at which the last drain began; and by logical slice when it was gated, plus 1. -/
  draining  : Option Nat
  lowSince  : Option Nat
  lastDrain : Option Nat
  gatedAt   : Tab Nat
  /-- QUEUE_CFG commands that wait for the wake of their queue slice (R482). -/
  qwaits    : List Started
  deriving DecidableEq, Repr, Inhabited

/-- Levels at the slow-signal balls (R563), true for high; balls whose only effect is a pulse of their own row stand apart. -/
structure Pins where
  pairSide  : Bool
  railsOk   : Bool
  slipReqN  : Bool
  thermtripN : Bool
  ilkOwn    : Bool
  ilkPeer   : Bool
  osel      : Bool
  ppsOut    : Bool
  /-- Every output is high-impedance (R564). -/
  highZ     : Bool
  /-- The tollhouse supply is out of range (R564, R566). -/
  supplyOut : Bool
  deriving DecidableEq, Repr, Inhabited

/-- One entry of the two-step capture FIFO (R387, R388). -/
structure Capture where
  port : Nat
  tag  : Nat
  time : Word64
  deriving DecidableEq, Repr, Inhabited

/-- The servo of R382. -/
inductive Servo
  | off | acquiring | locked | holdover
  deriving DecidableEq, Repr, Inhabited

/-- Device time (R379 to R388). Fractions of a nanosecond are kept in units of 2^-32 ÷ 3,125 ns, in
which a tick's advance at any FREQ is a whole number. -/
structure Time where
  dev     : Word64
  sub     : Nat
  /-- Ticks of the 50 MHz clock since the tollhouse supply came into range. -/
  ticks   : Nat
  /-- Nanoseconds advanced by ticks and slews; a step leaves it alone (R380). -/
  mono    : Nat
  freq    : Int
  /-- The part of a running slew still to be applied, in the unit of `sub`. -/
  slew    : Option Int
  tset    : Bool
  /-- DEVTIME seconds ended so far, and the DEVTIME at which the running one ends (R385). -/
  secNo   : Nat
  secEnd  : Word64
  servo   : Servo
  todOk   : Bool
  phErr   : Int
  /-- The monotonic ns of the last rise of the 1PPS output (R384). -/
  ppsRose : Nat
  /-- DEVTIME at which the last edge came or was expected, and its seconds value. -/
  lastEdge : Option Word64
  lastSec : Option Nat
  good    : Nat
  bad     : Nat
  missed  : Nat
  noTod   : Nat
  discarded : Nat
  /-- The seconds value that a valid message gives the next edge (R383). -/
  todNext : Option Nat
  utcOff  : BitVec 16
  fifo    : List Capture
  fifoLost : Nat
  deriving DecidableEq, Repr, Inhabited

end Sys2Proof.Machine
end

