-- ==== Sys2Proof/Machine/StTd.lean ====
section
/-! DEFINITION. State of the traffic die: crossbar, berths and multicast (chapter 08), queues, scheduler, port
nodes and meters (chapter 09), fabric and landing stage (chapter 10). -/

namespace Sys2Proof.Machine

/-! ## Configuration -/

/-- A group or channel node (R263, R264). -/
structure NodeCfg where
  en     : Bool
  parent : Nat
  prio   : Nat
  weight : Nat
  deriving DecidableEq, Repr, Inhabited

/-- A queue (R263, R264). -/
structure QueueCfg where
  en      : Bool
  prio    : Nat
  group   : Nat
  weight  : Nat
  profile : Nat
  deriving DecidableEq, Repr, Inhabited

/-- A shaper's configuration (R272). -/
structure ShaperCfg where
  rate  : Nat
  burst : Nat
  adj   : Int
  deriving DecidableEq, Repr, Inhabited

/-- A meter's configuration (R287). -/
structure MeterCfg where
  type : Bool
  cir  : Nat
  pir  : Nat
  cbs  : Nat
  pbs  : Nat
  deriving DecidableEq, Repr, Inhabited

/-- One copy of a multicast group (R254). -/
structure McEnt where
  queue : Nat
  emeta : Option Word
  emWord : Word
  deriving DecidableEq, Repr, Inhabited

/-- A fabric queue map entry (R301). -/
structure QMapEnt where
  en     : Bool
  dest   : Nat
  rqueue : Nat
  deriving DecidableEq, Repr, Inhabited

/-- The traffic die's part of what a checkpoint holds (R366). -/
structure TdSetup where
  groups  : Tab NodeCfg
  /-- Channel nodes; the parent counts where NODE_CFG has given one. -/
  chans   : Tab (Option NodeCfg)
  queues  : Tab QueueCfg
  /-- By KIND × 2^18 + node. -/
  shapers : Tab ShaperCfg
  holds   : Tab Nat
  meters  : Tab MeterCfg
  mc      : Tab (List McEnt)
  qmap    : Tab QMapEnt
  deriving DecidableEq, Repr, Inhabited

/-! ## Packets and the crossbar -/

/-- A packet on the traffic die: its descriptor's fields by R35 or R299, and its bytes. -/
structure TdPkt where
  queue    : Nat
  manifest : BitVec 48
  ruleVer  : Nat
  colour   : Nat
  ct       : Bool
  mc       : Bool
  chan     : Nat
  port     : Nat
  bucket   : Nat
  stamp    : Word
  emeta    : Word
  ssid     : Nat
  osrc     : BitVec 16
  ov       : Bool
  dc       : Bool
  dest     : Nat
  bytes    : List Byte
  /-- The tail status: none until it has arrived, true for bad (R231, R232). -/
  tail     : Option Bool
  /-- Its number in the crossbar, and whether the landing stage delivered it (R232). -/
  pid      : Nat
  landed   : Bool
  /-- Its later chunks are still crossing (R231). -/
  part     : Bool
  deriving DecidableEq, Repr, Inhabited

/-- A crossbar cell (R224): its input, remaining fanout, class (0 high, 1 low, 2 multicast), sequence, chunks as
packet number and index, the monotonic ns at which its first chunk entered it or it came to the head of its
VOQ, and whether it competes as unicast low (R230). -/
structure Cell where
  input  : Nat
  outs   : List Nat
  cls    : Nat
  seq    : Nat
  chunks : List (Nat × Nat)
  since  : Nat
  aged   : Bool
  deriving DecidableEq, Repr, Inhabited

/-- A packet inside the crossbar, the outputs that still wait for it, its input × 3 + class, whether 512 bytes of it have
been handed to its queue slice (R231), and its number there, plus 1, once it is queued. -/
structure XFlight where
  pkt  : TdPkt
  outs : List Nat
  src  : Nat
  early : Bool
  ent  : Nat
  deriving DecidableEq, Repr, Inhabited

/-- The receiving side of one crossbar stream: the expected sequence, and the packet and chunk due next. -/
structure XStream where
  expect : Nat
  pid    : Option Nat
  next   : Nat
  deriving DecidableEq, Repr, Inhabited

/-- The crossbar (R222 to R230). -/
structure Xbar where
  pkts    : Tab XFlight
  nextPid : Nat
  /-- Partly filled cells and VOQs by input × 96 + class × 32 + output; sequence numbers likewise. -/
  packs   : Tab (Option Cell)
  voqs    : Tab (List Cell)
  seqs    : Tab Nat
  rx      : Tab XStream
  /-- Grant pointers by output × 3 + class, accept pointers by input × 3 + class. -/
  grants  : Tab Nat
  accepts : Tab Nat
  crossing : List (Nat × Cell)
  /-- Packets that have crossed and wait at their output, oldest first. -/
  arrived : Tab (List TdPkt)
  deriving DecidableEq, Repr, Inhabited

/-! ## Berths and queues -/

/-- A run of chunks in a berth (R235, R236). -/
structure Seg where
  berth : Nat
  lo    : Nat
  n     : Nat
  deriving DecidableEq, Repr, Inhabited

/-- One queued packet or multicast reference. -/
structure QEnt where
  id     : Nat
  pkt    : TdPkt
  /-- The multicast slot, for a reference chunk, and its copy number (R256). -/
  slot   : Option Nat
  copy   : Nat
  len    : Nat
  /-- DEVTIME[33:2] at admission (R280), and monotonic ns for PROMO_AGE. -/
  stamp  : Nat
  born   : Nat
  segs   : List Seg
  /-- The chunks of `segs` already in DRAM berths, and those in writes that run (R242). -/
  inDram : Nat
  writing : Nat
  marked : Bool
  /-- Cut-through holds for it (R231). -/
  cut    : Bool
  ce     : Bool
  deriving DecidableEq, Repr, Inhabited

/-- A DRAM berth being written (R242): its number, chunks as packet number and count, and USED. -/
structure PromoWrite where
  berth  : Nat
  parts  : List (Nat × Nat)
  used   : Nat
  deriving DecidableEq, Repr, Inhabited

/-- One queue as it runs. -/
structure QRun where
  ents    : List QEnt
  /-- The SRAM berth being filled, and its chunks used. -/
  fill    : Option (Nat × Nat)
  writes  : List PromoWrite
  /-- A marked packet has reached PROMO_AGE: gathered chunks are written at once (R242). -/
  urgent  : Bool
  depth   : Nat
  maxDepth : Nat
  maxSoj  : Nat
  sDepth  : Nat
  sPkts   : Nat
  sHead   : Nat
  /-- Bytes dequeued in the running 8 µs interval, its number, and the bytes of the one before it (R241). -/
  deq     : Nat
  ivl     : Nat
  deqLast : Nat
  deriving DecidableEq, Repr, Inhabited

/-- A multicast slot (R256, R538): references, body and packet; its pointer failed a check; its body is marked for
promotion. -/
structure McSlot where
  refs : Nat
  bad  : Bool
  marked : Bool
  segs : List Seg
  pkt  : TdPkt
  deriving DecidableEq, Repr, Inhabited

/-- A multicast packet whose copies are being decided (R254, R256, R258): its group, its list, the queue slices that
have not decided, and the copies admitted and dropped. -/
structure McTally where
  group : Nat
  list  : List McEnt
  left  : List Nat
  ok    : Nat
  bad   : Nat
  deriving DecidableEq, Repr, Inhabited

/-- Berth management (R235, R245 to R253). -/
structure Berths where
  /-- Allocated berths: owner slice and pool. -/
  owner   : Tab (Nat × Nat)
  use     : Tab Nat
  /-- By tier: berths pushed back, top first; the next berth never popped since the stacks were built. -/
  pushed  : Tab (List Nat)
  fresh   : Tab Nat
  /-- Frees that wait to be checked: berth and freeing slice. The check ring, oldest first: berth, freeing slice, and the berth's
  owner code (R249). -/
  frees   : List (Nat × Nat)
  ring    : List (Nat × Nat × Nat)
  /-- The quarantine, oldest first: cause, berth, freeing slice. -/
  quar    : List (Nat × Nat × Nat)
  /-- Berths lost until an audit. -/
  lost    : List Nat
  /-- An audit waits for the queues (1) or rebuilds (2), and the berths recovered. -/
  audit   : Nat
  found   : Nat
  /-- DRAM berths in the read-staging area, and the queues whose reads wait for room in it, in order (R244). -/
  staged  : List Nat
  reads   : List Nat
  /-- Earlier values of TD_BERTH_TIERCFG, each with the monotonic ns until which predictions use it (R244). -/
  tierPast : List (Word × Nat)
  deriving DecidableEq, Repr, Inhabited

/-! ## Scheduler, ports and meters -/

/-- A shaper bucket (R272). -/
structure Bucket where
  b : Int
  f : Nat
  deriving DecidableEq, Repr, Inhabited

/-- A meter's buckets with their fractions (R287). -/
structure MeterRun where
  tc : Nat
  te : Nat
  fc : Nat
  fe : Nat
  deriving DecidableEq, Repr, Inhabited

/-- A timetable entry (R270): the slot of 4 ns at which it falls due, whether it stands in the overflow wheel, the exact slot at which
its node becomes eligible, and whether its wait is computed again, for one that the wheels do not span. -/
structure TtEnt where
  slot  : Nat
  wheel : Bool
  exact : Nat
  again : Bool
  deriving DecidableEq, Repr, Inhabited

/-- A port node (R283 to R286, R269). STATE: 0 UP, 1 HELD, 2 FLUSHING, 3 DOWN. -/
structure PNode where
  st      : Nat
  link    : Bool
  since   : Nat
  flushed : Nat
  /-- Released bytes not yet sent. -/
  unsent  : Nat
  deriving DecidableEq, Repr, Inhabited

/-- The scheduler. -/
structure Sched where
  /-- By KIND × 2^18 + node (R272, R274). -/
  buckets : Tab Bucket
  deficit : Tab Int
  /-- The child whose turn it is, plus 1, by (KIND × 2^18 + node) × 8 + level. -/
  turns   : Tab Nat
  tt      : Tab (Option TtEnt)
  ports   : Tab PNode
  meters  : Tab MeterRun
  /-- The LFSR of each queue slice (R278). -/
  lfsr    : Tab (BitVec 16)
  deriving DecidableEq, Repr, Inhabited

/-! ## Fabric -/

/-- A fabric cell as sent or received (R297). -/
structure FCell where
  head    : BitVec 128
  payload : List Byte
  deriving DecidableEq, Repr, Inhabited

/-- A chunk that waits in a transmit group: its bytes, whether it is a head chunk, whether its packet ends in
it with a bad tail, and QUEUE and MANIFEST of its packet (R298). -/
structure FChunk where
  bytes : List Byte
  head  : Bool
  last  : Bool
  bad   : Bool
  queue : Nat
  man   : BitVec 48
  since : Nat
  deriving DecidableEq, Repr, Inhabited

/-- A transmit stream of group × 2^18 + class × 2^16 + destination: chunks that wait, CSEQ of the next cell. -/
structure FStream where
  chunks : List FChunk
  cseq   : BitVec 16
  deriving DecidableEq, Repr, Inhabited

/-- One fabric link (R295, R304, R305). STATE: 1 HUNT, 2 PRESYNC, 3 SYNC. -/
structure FLink where
  st      : Nat
  run     : Nat
  since   : Nat
  inServ  : Bool
  credits : List Nat
  owed    : List Nat
  rot     : Nat
  stops   : Tab Nat
  deriving DecidableEq, Repr, Inhabited

/-- A packet being reassembled (R309). -/
structure FPart where
  pkt  : TdPkt
  need : Nat
  got  : List Byte
  len  : Nat
  /-- Its head chunk failed DCRC or QUEUE_N: it is passed over. -/
  drop : Bool
  /-- The links whose cells hold it in the landing buffer (R304). -/
  cells : List Nat
  deriving DecidableEq, Repr, Inhabited

/-- A stream context of the landing stage (R308). -/
structure FCtx where
  expect : BitVec 16
  /-- Held cells: the link each came on, monotonic ns, the cell. -/
  held   : List (Nat × Nat × FCell)
  part   : Option FPart
  last   : Nat
  deriving DecidableEq, Repr, Inhabited

/-- An entry of the duplicate table (R310, R311): arrival and life in ns. -/
structure DupEnt where
  time : Nat
  ttl  : Nat
  deriving DecidableEq, Repr, Inhabited

/-- The fabric interface and the landing stage. -/
structure Fabric where
  links   : Tab FLink
  /-- The last cell sent on each link. -/
  sent    : Tab FCell
  streams : Tab FStream
  /-- By group: 1 + the place of the link last used, the turn between unicast low and multicast, 1 + the destination last
  served by class. -/
  lastLink : Tab Nat
  altern  : Tab Nat
  lastDest : Tab Nat
  ctxs    : Tab FCtx
  dups    : Tab DupEnt
  counts  : Tab Word
  /-- Delivered packets that wait for a crossbar input that is held back, by group (R226, R304). -/
  ready   : Tab (List TdPkt)
  /-- Credits not returned while packets of the group wait: link and class (R304). -/
  deferred : Tab (List (Nat × Nat))
  /-- A changed DUP_TTL is not yet in effect: the life in ns before it, and the mono until which it holds. -/
  dupLife : Option (Nat × Nat)
  deriving DecidableEq, Repr, Inhabited

/-- The traffic die as it runs. -/
structure TdSide where
  xb      : Xbar
  q       : Tab QRun
  slots   : Tab McSlot
  /-- MC_PKTS, MC_PARTIAL and MC_NONE by group × 4. -/
  mcCnt   : Tab Word
  /-- By packet number in the crossbar. -/
  tallies : Tab (Option McTally)
  berths  : Berths
  sched   : Sched
  fab     : Fabric
  nextEnt : Nat
  deriving DecidableEq, Repr, Inhabited

end Sys2Proof.Machine
end

