-- ==== Sys2Proof/Machine/State.lean ====
section
/-! DEFINITION. The state of the block, the reasons a step can stop, and the state after reset. -/

namespace Sys2Proof.Machine

/-- Everything that the host configures and a checkpoint holds (R366). -/
structure Setup where
  /-- Registers whose value differs from their reset value, by address. -/
  regs  : Tab Word
  ferry : FerryCfg
  pair  : PairCfg
  ports : Tab (Option PortCfg)
  portShadow : Tab (Option PortCfg)
  spans : Tab (Option SpanCfg)
  spanShadow : Tab (Option SpanCfg)
  oam   : Tab (Option OamCfg)
  cnts  : Tab CntProg
  fd    : FdSetup
  td    : TdSetup
  deriving DecidableEq, Repr, Inhabited

/-- A valid full checkpoint with its incremental checkpoints, newest first (R366, R369). -/
structure Ckpt where
  full  : Setup
  incrs : List Setup
  deriving DecidableEq, Repr, Inhabited

/-- The checkpoints in the store, and the start policy in its header (R369, R483). -/
structure Store where
  /-- Valid full checkpoints, newest first, at most two. -/
  ckpts  : List Ckpt
  /-- The image that the running checkpoint has staged (R368). -/
  staged : Option Setup
  warm   : Bool
  resume : Nat
  deriving DecidableEq, Repr, Inhabited

/-- The state of the block: the queue of waiting commands and everything the spec gives the part. -/
structure State where
  /-- Commands that wait, first in, first out. -/
  pending : List Instr
  /-- The model's own counter of free values drawn. -/
  free  : Nat
  cfg   : Setup
  time  : Time
  ev    : Events
  host  : HostSide
  wr    : Ports
  pwr   : Power
  pins  : Pins
  fw    : Fw
  store : Store
  mem   : MemSide
  spares : Spares
  pair  : Pair
  test  : TestState
  line  : LineSide
  oam   : Oam
  cnt   : Counters
  fd    : FdSide
  td    : TdSide
  deriving DecidableEq, Repr

/-- Configuration at its reset values (R52, R263, R319, R483, and the register tables of the chapters). -/
def Setup.reset : Setup where
  regs := []
  ferry := { en := false, idle := false, off := false, qoff := false, minSlices := 16, high := 75, downMs := 100, offMs := 1000 }
  pair := { en := false, auto := false, refEn := false, mirror := false, refTmo := 5, yieldMask := 0, peerNode := 0,
            alignWin := 10, pathOfs := 0 }
  ports := []
  portShadow := []
  spans := []
  spanShadow := []
  oam := []
  cnts := []
  fd := default
  td := default

/-- The forwarding die after a reset: the identity mapping with physical slice 16 as the spare (R23), and banks 64 to 67 as
the spare banks (R167). -/
def FdSide.reset : FdSide :=
  { (default : FdSide) with
    gang := { (default : Gangway) with spare := 16 }
    look := { (default : Lookups) with asc := { (default : Asc) with spares := [64, 65, 66, 67] } } }

/-- Power and modes when the tollhouse supply has come into range: a start is due (R484, R488, R490). -/
def Power.reset : Power := { (default : Power) with mode := .boot, before := .boot, startDue := some .policy }

/-- Levels at the balls then: RAILS_OK has not risen (R563, R567; log 72). -/
def Pins.reset : Pins where
  pairSide := false
  railsOk := false
  slipReqN := true
  thermtripN := true
  ilkOwn := false
  ilkPeer := false
  osel := false
  ppsOut := false
  highZ := false
  supplyOut := false

/-- The state right after reset: the tollhouse supply has come into range on a side A member whose store holds no image and
no checkpoint (R488, R527; log 72). -/
def State.reset : State where
  pending := []
  free := 0
  cfg := Setup.reset
  time := { (default : Time) with secEnd := 1000000000 }
  ev := default
  host := { (default : HostSide) with cores := [0, 1, 2, 3], coreSpares := [4], rom := true }
  wr := default
  pwr := Power.reset
  pins := Pins.reset
  fw := default
  store := default
  mem := { (default : MemSide) with tokens := 268435456 * 1953125 }
  spares := default
  pair := default
  test := { (default : TestState) with tapCode := 1, tdo := .idcode 0x1B2564E3#32 }
  line := default
  oam := default
  cnt := default
  fd := FdSide.reset
  td := default

/-- No command of the block ends in a fault: every check the spec names has an effect it describes, which
the command's meaning has. Nobody raises one. -/
inductive Fault
  deriving DecidableEq, Repr

/-- Why a command has no meaning in this model. -/
inductive Refusal
  /-- Raised by `exec` for a row whose meaning has not been written; safe, since the run stops. -/
  | notModelled (mnemonic : String)
  deriving DecidableEq, Repr

end Sys2Proof.Machine
end

