-- ==== Sys2Proof/Machine/Ops.lean ====
section
/-! DEFINITION. The operations that commands share: registers, events, counters and host memory. -/

namespace Sys2Proof.Machine

/-- The outcome of a command. -/
abbrev Out := Host.Outcome State Fault Refusal

/-- The number zero at every key: what a table of numbers holds at rest. -/
def z {n : Nat} (_ : Nat) : BitVec n := 0

/-- A table of numbers at rest: the key itself. -/
def idn (n : Nat) : Nat := n
/-- A table of numbers at rest: zero. -/
def zn (_ : Nat) : Nat := 0
/-- A table of Booleans at rest: false. -/
def noB (_ : Nat) : Bool := false
/-- A table of lists at rest: empty. -/
def nil0 {α : Type} (_ : Nat) : List α := []
/-- A table of options at rest: none. -/
def none0 {α : Type} (_ : Nat) : Option α := none
/-- A table at rest of default values. -/
def dflt {α : Type} [Inhabited α] (_ : Nat) : α := default

/-- Draws a fresh free value (log 2). -/
def State.draw (s : State) : BitVec 64 × State :=
  (Config.freeValue s.free, { s with free := s.free + 1 })

/-! ## Registers -/

/-- Registers that no checkpoint restores: block DEV_PCIE, HOSTFLAG and IPCFG (R469, log 9). -/
def isHostReg (a : Nat) : Bool := a / 0x10000 == 0x3F07 || a == 0x3F010020 || a == 0x3F060000

/-- The configuration bits in effect of the register at `a`, each TV bit by majority (R467). -/
def State.cfgReg (s : State) (a : Nat) : Word :=
  let v := tget cfgRest (if isHostReg a then s.host.regs else s.cfg.regs) a
  vote v (v ^^^ tget z s.wr.tvB a) (v ^^^ tget z s.wr.tvC a)

/-- A field in effect, as a number. -/
def State.rf (s : State) (a hi lo : Nat) : Nat := bits (s.cfgReg a) hi lo

/-- Puts configuration bits into effect. -/
def State.setCfgReg (s : State) (a : Nat) (v : Word) : State :=
  if isHostReg a then { s with host := { s.host with regs := tset cfgRest s.host.regs a v } }
  else { s with cfg := { s.cfg with regs := tset cfgRest s.cfg.regs a v } }

/-- The W1C, W1S, SC and HU bits of the register at `a`. -/
def State.hwReg (s : State) (a : Nat) : Word := tget z s.wr.hw a

/-- Writes those bits. -/
def State.setHw (s : State) (a : Nat) (v : Word) : State :=
  { s with wr := { s.wr with hw := tset z s.wr.hw a v } }

/-- Hardware sets bit `i` of the register at `a`. -/
def State.hwBit (s : State) (a i : Nat) : State := s.setHw a (putBits (s.hwReg a) i i 1)

/-- Hardware adds to a count, saturating at `top` (R453). -/
def State.hwAdd (s : State) (a hi lo n top : Nat) : State :=
  s.setHw a (putBits (s.hwReg a) hi lo (min top (bits (s.hwReg a) hi lo + n)))

/-- Hardware raises a peak, saturating at `top` (R453). -/
def State.hwPeak (s : State) (a hi lo v top : Nat) : State :=
  s.setHw a (putBits (s.hwReg a) hi lo (max (bits (s.hwReg a) hi lo) (min top v)))

/-! ## Events -/

/-- An occurrence of event source `src` is detected (R527). -/
def State.post (s : State) (src : Nat) (items : List (Nat × Nat)) : State :=
  { s with ev := { s.ev with flight := s.ev.flight ++ [⟨src, evData items, s.time.dev, false⟩] } }

/-- As `post`, logged at most once per DEVTIME second for each `subject` (R529). -/
def State.postOnce (s : State) (src subject : Nat) (items : List (Nat × Nat)) : State :=
  let k := src * 2 ^ 32 + subject
  let said := tget (fun _ => 0) s.ev.once k == s.time.secNo + 1
  { s with ev := { s.ev with
      flight := s.ev.flight ++ [⟨src, evData items, s.time.dev, said⟩]
      once := tset (fun _ => 0) s.ev.once k (s.time.secNo + 1) } }

/-! ## Counters -/

/-- Adds to a counter of R407. -/
def State.bump (s : State) (scope unit idx n : Nat) : State :=
  let k := scope * 65536 + unit * 32 + idx
  { s with cnt := { s.cnt with ports := tset z s.cnt.ports k (tget z s.cnt.ports k + BitVec.ofNat 64 n) } }

/-- A countable occurrence (R400): its code, address, class bit, master and PRIV where it has them, and LENGTH. -/
structure CntEvent where
  event  : Nat
  addr   : Nat
  cls    : Nat
  master : Option Nat
  priv   : Option Nat
  len    : Nat

/-- Whether a program counts an occurrence (R399). -/
def CntProg.counts (p : CntProg) (e : CntEvent) : Bool :=
  p.en && p.event == e.event && p.classes.getLsbD e.cls
    && (match e.priv with | some k => p.privs.getLsbD k | none => true)
    && (!p.masterEn || (match e.master with
        | some m => m == p.master || (p.master % 64 == 63 && m / 64 == p.master / 64)
        | none => false))
    && ((BitVec.ofNat 32 e.addr ^^^ p.addr) &&& p.mask) == 0#32

/-- A counter program that counts nothing. -/
def restProg (_ : Nat) : CntProg := ⟨false, false, 0, 0, 0, false, 0, 0, 0⟩

/-- A table outside a range of keys. -/
def tOutside {α : Type} (t : Tab α) (first count : Nat) : Tab α := t.filter (fun x => x.1 < first || first + count ≤ x.1)

/-- `to` with the range of keys taken from `src`. -/
def tCopy {α : Type} (src dst : Tab α) (first count : Nat) : Tab α :=
  (src.filter (fun x => first ≤ x.1 && x.1 < first + count)).foldl (fun t x => tins t x.1 x.2) (tOutside dst first count)

/-- A snapshot whose instant has come at a DEVTIME, and which has not been cut. -/
def Counters.cutsNow (c : Counters) (space : Nat) (now : Word64) : Option Snap :=
  (tget none0 c.snaps space).filter (fun x => !x.cut && x.due.toNat ≤ now.toNat)

/-- A programmable snapshot is cut once its instant has come, before anything counts or changes a counter after it (R405). -/
def Counters.cutProg (c : Counters) (now : Word64) : Counters :=
  match c.cutsNow 0 now with
  | some x => { c with
      snaps := tset none0 c.snaps 0 (some { x with cut := true }), snapProg := tCopy c.prog c.snapProg x.first x.count
      prog := if x.clr then tOutside c.prog x.first x.count else c.prog }
  | none => c

/-- Counts `n` like occurrences in every programmable counter whose program matches (R399). -/
def State.countN (s : State) (e : CntEvent) (n : Nat) : State :=
  let cnt := s.cnt.cutProg s.time.dev
  let prog := s.cfg.cnts.foldl (fun t p =>
    if p.2.counts e then
      tset z t p.1 (tget z t p.1 + BitVec.ofNat 64 (if p.2.byLen then e.len else n)) else t) cnt.prog
  { s with cnt := { cnt with prog := prog } }

/-- Counts one occurrence (R399). -/
def State.count (s : State) (event addr cls : Nat) (master priv : Option Nat) (len : Nat) : State :=
  s.countN ⟨event, addr, cls, master, priv, len⟩ 1

/-- Counts an access to a register (R400): by the BAR (master 0) or by a command (master 1). -/
def State.countReg (s : State) (a : Nat) (write : Bool) (master priv : Nat) : State :=
  s.count 0x0C a (if write then 1 else 0) (some master) (some priv) 0

/-- HBM transfers of R400: `region` in the order of R353, `cls` the arbiter class in the order of R354, `master` the
requesting die and slice (log 46). -/
def State.hbm (s : State) (region cls master : Nat) : State := s.count 0x07 region cls (some master) none 0

/-- The transfers of one DRAM berth: its data and its trailer (R237, R353). -/
def State.hbmBerth (s : State) (cls slice : Nat) : State := (s.hbm 0 cls (128 + slice)).hbm 4 cls (128 + slice)

/-- The drop group of R400 of a drop counter of R407: scope 0 ingress, scope 1 what the traffic die drops. -/
def dropGroup (scope idx : Nat) : Option Nat :=
  match scope, idx with
  | 0, 6 | 0, 9 | 0, 10 | 0, 11 | 0, 12 => some 0
  | 0, 13 | 0, 14 | 0, 15 | 0, 16 | 0, 17 | 0, 18 => some 1
  | 0, 7 | 0, 8 | 0, 19 | 0, 20 | 0, 23 | 0, 24 => some 2
  | 0, 21 | 0, 22 => some 7
  | 1, 7 | 1, 14 | 1, 15 | 1, 16 | 1, 17 | 1, 18 => some 3
  | 1, 3 | 1, 4 | 1, 6 => some 4
  | 1, 2 | 1, 8 | 1, 9 | 1, 10 => some 5
  | 1, 11 => some 7
  | _, _ => none

/-- A packet of `len` bytes is dropped in FD slice or queue slice `slice`: its counter of R407, and the programmable
counters of R400. -/
def State.drop (s : State) (scope unit idx slice len : Nat) : State :=
  let s := s.bump scope unit idx 1
  match dropGroup scope idx with
  | some g => if scope = 0 then s.count 0x02 unit g (some (64 + slice)) none len
    else s.count 0x05 unit g (some (128 + slice)) none len
  | none => s

/-! ## Host memory -/

/-- Bytes written from address `a` upward. -/
def memWrite : List Host.Cell → Nat → List Byte → List Host.Cell
  | m, _, [] => m
  | m, a, b :: r => memWrite (tins m a b) (a + 1) r

/-- Bytes written into a ring of `size` bytes at `base`, from offset `o`, going on at offset 0 past the end (R414). -/
def ringWrite : List Host.Cell → (base size o : Nat) → List Byte → List Host.Cell
  | m, _, _, _, [] => m
  | m, base, size, o, b :: r =>
    let p := if o < size then o else 0
    ringWrite (tins m (base + p) b) base size (p + 1) r

/-- `n` rounded up to a multiple of `k`. -/
def roundUp (n k : Nat) : Nat := (n + k - 1) / k * k

/-! ## Modes, domains and time -/

/-- The 3-bit code of a mode (R484). -/
def modeCode : Mode → Nat
  | .slipway => 0 | .boot => 1 | .standalone => 2 | .active => 3
  | .standby => 4 | .drain => 5 | .quiescent => 6 | .test => 7

/-- The mode of a 3-bit code (R484). -/
def modeOf : Nat → Mode
  | 0 => .slipway | 1 => .boot | 2 => .standalone | 3 => .active
  | 4 => .standby | 5 => .drain | 6 => .quiescent | _ => .test

/-- A forwarding mode (R485). -/
def modeForwards : Mode → Bool
  | .standalone | .active | .standby => true
  | _ => false

/-- A mode in which STATIC fields are writable (R13). -/
def modeOpensStatic : Mode → Bool
  | .boot | .drain | .test => true
  | _ => false

/-- What a power domain reads at rest: 0 on for the tollhouse, 2 off for the rest (R476). -/
def restDomain (d : Nat) : Nat := if d = 0 then 0 else 2

/-- The fast PLL of a power domain, in the order of R472 (log 73): 0 FDCLK, 1 XCLK, 2 CCLK, 3 to 6 HBMCLK0 to 3, 7 D2DCLK. -/
def pllOf (d : Nat) : Option Nat :=
  if d = 5 || d = 6 || (14 ≤ d && d < 48) then some 0
  else if (7 ≤ d && d ≤ 9) || (48 ≤ d && d < 64) then some 1
  else if d = 3 then some 2
  else if 10 ≤ d && d ≤ 13 then some (d - 7)
  else if d = 4 then some 7
  else none

/-- The state of a power domain as the tollhouse has put it (R476). -/
def State.supplied (s : State) (d : Nat) : Nat := tget restDomain s.pwr.domains d

/-- The state of a power domain (R476): one whose PLL has stopped has its clock stopped, as a gated one has (R474, log 73). -/
def State.domain (s : State) (d : Nat) : Nat :=
  if s.supplied d = 0 && (pllOf d).any (fun k => (tget (fun _ => (default : Pll)) s.pwr.plls k).stopped) then 1 else s.supplied d

/-- Puts a power domain into a state. -/
def State.setDomain (s : State) (d v : Nat) : State :=
  { s with pwr := { s.pwr with domains := tset restDomain s.pwr.domains d v } }

/-- The power domain that holds a block (R475), by register address bits [31:16]. -/
def blockDomain (k : Nat) : Nat :=
  match k / 0x4000, k % 0x100 with
  | 0, 7 => 1
  | 0, _ => 0
  | 1, 1 | 1, 2 | 1, 3 => 6
  | 1, 0xD => 4
  | 1, _ => 5
  | 2, 0x25 => 8
  | 2, 0x27 => 9
  | 2, 0x28 => 10
  | 2, 0x29 => 3
  | 2, 0x2C => 4
  | 2, _ => 7
  | _, 1 => 2
  | _, 2 => 10 + k / 0x100 % 0x40 % 4
  | _, _ => 2

/-- The tollhouse's clock-tick count in ns, which no step of DEVTIME changes (R380). -/
def State.mono (s : State) : Nat := s.time.mono

/-- Now, as DEVTIME (R379). -/
def State.now (s : State) : Word64 := s.time.dev

/-- `n` milliseconds in nanoseconds. -/
def ms (n : Nat) : Nat := n * 1000000

/-- Whether an instant of DEVTIME has come: 0 and a past instant mean at once (R367, R404). -/
def State.reached (s : State) (t : Word64) : Bool := t.toNat ≤ s.time.dev.toNat

end Sys2Proof.Machine
end

