-- ==== Sys2Proof/Machine/Flit.lean ====
section
/-! DEFINITION. The transmitters of the die-to-die interface: flits, their arbitration, the replay buffers and the packets
that have unacknowledged flits (R34, R37, R38, R40). -/

namespace Sys2Proof.Machine

/-- Puts the die-to-die interface. -/
def State.setD2d (s : State) (d : D2d) : State := { s with fd := { s.fd with d2d := d } }

/-- Pieces of 56 bytes, the last padded with zero: the payloads of a packet's flits (R34). -/
def flitBodies : Nat → List Byte → List (List Byte)
  | 0, _ => []
  | n + 1, b => let c := b.take 56; (c ++ List.replicate (56 - c.length) 0) :: flitBodies n (b.drop 56)

/-- The flits of one packet's part on a VC (R34): POS names the first and the last. -/
def flitsOf (vc : Nat) (b : List Byte) : List TxFlit :=
  let l := flitBodies (max 1 ((b.length + 55) / 56)) b
  ((List.range l.length).zip l).map (fun x => ⟨vc, b01 (x.1 == 0) + 2 * b01 (x.1 + 1 == l.length), x.2, 0, none⟩)

/-! ## One transmitter -/

/-- A VC has a flit to send and, but for VC7, the credit to send it (R34). -/
def D2dTx.ready (t : D2dTx) (v : Nat) : Bool :=
  !(tget nil0 t.waits v).isEmpty && (v == 7 || tget zn t.used v == 0 || tget zn t.used v < Config.d2dCredits v)

/-- The first ready VC of a round that starts at its turn (R40). -/
def D2dTx.robin (t : D2dTx) (k base n : Nat) : Option Nat :=
  (((List.range n).map (fun i => base + (tget zn t.turns k + i) % n)).find? t.ready)

/-- The VC that is served next (R40): VC7, then VC4 and VC5 where 63 flits have passed without them, VC0 to VC3 in turn, VC6,
and VC4 and VC5 in turn. -/
def D2dTx.pick (t : D2dTx) : Option Nat :=
  if t.ready 7 then some 7
  else
    let low := t.robin 1 4 2
    let due := if 63 ≤ t.starved then low else none
    (due.or (t.robin 0 0 4)).or ((if t.ready 6 then some 6 else none).or low)

/-- The VC whose credits the next flit returns, and how many (R34). -/
def D2dTx.returns (t : D2dTx) : Nat × Nat :=
  match t.owed with
  | [] => (0, 0)
  | (v, n) :: _ => (v, min 8191 n)

/-- The 64 bytes of a flit on module `m` (R34). -/
def flitBytes (m vc pos fseq cvc credits : Nat) (body : List Byte) : List Byte :=
  let w := beBytes 4 (packNat [(3, vc), (2, pos), (11, fseq), (3, cvc), (13, credits)] 0) ++ body
  w ++ beBytes 4 (crc32cFrom (0xFFFFFFFF#32 ^^^ BitVec.ofNat 32 m) w).toNat

/-- A new flit of a VC is sent, and waits in the replay buffer for its acknowledgement (R34, R37, R40). -/
def D2dTx.emit (t : D2dTx) (m v : Nat) : D2dTx :=
  match tget nil0 t.waits v with
  | [] => t
  | f :: r =>
    let c := t.returns
    let b := flitBytes m v f.pos t.fseq c.1 c.2 f.body
    let low := v == 4 || v == 5
    { t with
      waits := tset nil0 t.waits v r
      fseq := (t.fseq + 1) % 2048
      replay := t.replay ++ [(t.fseq, f, b)]
      turns := if v < 4 then tset zn t.turns 0 ((v + 1) % 4) else if low then tset zn t.turns 1 ((v - 3) % 2) else t.turns
      starved := if low then 0 else t.starved + 1
      used := if v = 7 then t.used else tset zn t.used v (tget zn t.used v + 1)
      owed := tset zn t.owed c.1 (tget zn t.owed c.1 - c.2)
      sent := b }

/-- One flit time of a module's transmitter (R34, R37, R40): what has been asked for again comes first; a new flit waits
while the replay buffer of 512 is full. -/
def D2dTx.slot (t : D2dTx) (m : Nat) : D2dTx :=
  if 0 < t.again then
    match t.replay[t.replay.length - t.again]? with
    | some x => { t with again := t.again - 1, sent := x.2.2 }
    | none => { t with again := 0 }
  else if 512 ≤ t.replay.length then t
  else match t.pick with
    | some v => t.emit m v
    | none => t

/-- `n` flit times. -/
def D2dTx.slots (m : Nat) : Nat → D2dTx → D2dTx
  | 0, t => t
  | n + 1, t => D2dTx.slots m n (t.slot m)

/-- Every flit before `f` in serial order has come (R37). -/
def D2dTx.acked (t : D2dTx) (f : Nat) : D2dTx :=
  let left := t.replay.filter (fun x => serialLe 2048 512 f x.1)
  { t with replay := left, again := min t.again left.length }

/-- What a flit of VC7 tells this transmitter (R37): a negative acknowledgement acknowledges what came before. -/
def D2dTx.told (t : D2dTx) : LinkMsg → D2dTx
  | .ack f => t.acked f
  | .nak f => let t := t.acked f; { t with again := t.replay.length }

/-- Credits come back for a VC (R34). -/
def D2dTx.credit (t : D2dTx) (v n : Nat) : D2dTx := { t with used := tset zn t.used v (tget zn t.used v - n) }

/-- A message of VC7 waits to be sent. -/
def D2dTx.say (t : D2dTx) (msg : LinkMsg) : D2dTx :=
  let b := match msg with | .ack f => Config.flitPayload 7 0 f | .nak f => Config.flitPayload 7 1 f
  { t with waits := tset nil0 t.waits 7 (tget nil0 t.waits 7 ++ [⟨7, 0, (flitBodies 1 b).headD [], 0, some msg⟩]) }

/-- Flits wait on their VCs. -/
def D2dTx.queue (t : D2dTx) (fs : List TxFlit) : D2dTx :=
  { t with waits := fs.foldl (fun w f => tset nil0 w f.vc (tget nil0 w f.vc ++ [f])) t.waits }

/-- A transmitter still holds a flit of a packet. -/
def D2dTx.holds (t : D2dTx) (pkt : Nat) : Bool :=
  t.replay.any (·.2.1.pkt == pkt) || t.waits.any (fun w => w.2.any (·.pkt == pkt))

/-! ## The modules -/

/-- Key of a module and direction: 1 for TD to FD. -/
def wayKey (m : Nat) (up : Bool) : Nat := m * 2 + b01 up

/-- A transmitter. -/
def State.d2dTx (s : State) (k : Nat) : D2dTx := tget dflt s.fd.d2d.txs k
def State.putFlitTx (s : State) (k : Nat) (t : D2dTx) : State := s.setD2d { s.fd.d2d with txs := tset dflt s.fd.d2d.txs k t }

/-- A module carries flits: it is neither retired nor training (R38). -/
def State.modOn (s : State) (m : Nat) : Bool := !s.fd.d2d.retired.contains m && !s.fd.d2d.training.contains m

/-- The module that the next packet goes to: the next one in service, in ascending order (log 101). -/
def State.nextMod (s : State) : Option Nat :=
  ((List.range 24).map (fun i => (s.fd.d2d.lastMod + 1 + i) % 24)).find? s.modOn

/-- Puts a packet's flits on the next module; without one it waits for a module (R38). -/
def State.placeSend (s : State) (x : D2dSend) : State :=
  let put (w : Option Nat) (s : State) : State := s.setD2d { s.fd.d2d with
    sends := s.fd.d2d.sends.filter (·.pkt != x.pkt) ++ [{ x with way := w }] }
  match s.nextMod with
  | none => put none s
  | some m =>
    let k := wayKey m x.up
    let s := s.putFlitTx k ((s.d2dTx k).queue x.flits)
    put (some k) (s.setD2d { s.fd.d2d with lastMod := m })

/-- A packet, as the flits of its parts, goes to a module of a direction (R34, R38, R39). -/
def State.sendFlits (s : State) (up : Bool) (fs : List TxFlit) : State :=
  let n := s.fd.d2d.nextPkt + 1
  (s.setD2d { s.fd.d2d with nextPkt := n }).placeSend ⟨n, none, up, fs.map (fun f => { f with pkt := n })⟩

/-- Packets all of whose flits are acknowledged are no longer kept (R38). -/
def State.sendsDone (s : State) (k : Nat) : State :=
  let t := s.d2dTx k
  s.setD2d { s.fd.d2d with sends := s.fd.d2d.sends.filter (fun x => x.way != some k || t.holds x.pkt) }

/-- A module retrains: every packet with an unacknowledged flit on it is sent again, whole, on other modules (R38). -/
def State.resendAll (s : State) (m : Nat) : State :=
  let mine := s.fd.d2d.sends.filter (fun x => x.way == some (wayKey m false) || x.way == some (wayKey m true))
  let s := (s.putFlitTx (wayKey m false) default).putFlitTx (wayKey m true) default
  mine.foldl State.placeSend s

/-- Packets that have waited for a module are placed (R38). -/
def State.placeWaiting (s : State) : State := (s.fd.d2d.sends.filter (·.way.isNone)).foldl State.placeSend s

/-- The 80 flit times of 0.25 ns in a tick of 20 ns, on every module in service (R34, R40). -/
def State.flitTicks (s : State) : State :=
  if s.domain 4 ≠ 0 then s
  else s.setD2d { s.fd.d2d with
    txs := s.fd.d2d.txs.map (fun x => (x.1, if s.modOn (x.1 / 2) then D2dTx.slots (x.1 / 2) 80 x.2 else x.2)) }

end Sys2Proof.Machine
end

