-- ==== Sys2Proof/Machine/Flags.lean ====
section
/-! DEFINITION. Attention levels, the status word and the BSTAT bits: what the part computes from its
state for the host to read (R430, R448, R523, R524, R531). -/

namespace Sys2Proof.Machine

/-- Event sources by ATTN level, 1 to 7, as the chapters' tables give them (R523, R524). -/
def sourcesAt : Nat → List Nat
  | 1 => [0x000, 0x004, 0x005, 0x009, 0x00F, 0x018, 0x019, 0x020, 0x021, 0x022, 0x023, 0x04A, 0x050, 0x051,
      0x052, 0x053, 0x054, 0x055, 0x056, 0x057, 0x058, 0x059, 0x064, 0x066, 0x067, 0x070, 0x071, 0x072, 0x073,
      0x078, 0x07B, 0x080, 0x082, 0x086, 0x097, 0x098, 0x099, 0x0A0, 0x0C3, 0x0C9, 0x10F, 0x110, 0x140, 0x141,
      0x143, 0x145, 0x181, 0x195, 0x19B, 0x1C0, 0x1C6, 0x1CA, 0x1CB, 0x1CE, 0x1D0, 0x1D5, 0x1D8, 0x1E7, 0x1EA,
      0x1EC, 0x1F4, 0x1F6, 0x1F8, 0x1F9, 0x1FA, 0x1FB, 0x1FC, 0x1FD, 0x1FE, 0x1FF]
  | 2 => [0x001, 0x012, 0x01B, 0x01C, 0x01D, 0x044, 0x045, 0x049, 0x065, 0x068, 0x07C, 0x081, 0x083, 0x084,
      0x085, 0x090, 0x091, 0x092, 0x093, 0x096, 0x0A1, 0x0A4, 0x0A6, 0x0A7, 0x0C4, 0x0C6, 0x0C7, 0x0C8, 0x100,
      0x101, 0x103, 0x104, 0x106, 0x107, 0x10B, 0x10C, 0x10D, 0x142, 0x144, 0x147, 0x180, 0x182, 0x183, 0x184, 0x187,
      0x189, 0x18A, 0x196, 0x199, 0x19C, 0x19D, 0x1C1, 0x1C2, 0x1C3, 0x1C8, 0x1CC, 0x1CF, 0x1D3, 0x1D6, 0x1D9,
      0x1E0, 0x1E2, 0x1E4, 0x1E5, 0x1E6, 0x1E9, 0x1ED, 0x1EE, 0x1F7]
  | 3 => [0x002, 0x01A, 0x040, 0x041, 0x042, 0x043, 0x046, 0x047, 0x048, 0x060, 0x061, 0x062, 0x063, 0x06A,
      0x079, 0x07A, 0x094, 0x095, 0x0A2, 0x0A3, 0x0A5, 0x0C2, 0x0C5, 0x0CB, 0x0CC, 0x102, 0x105, 0x108, 0x109,
      0x10A, 0x10E, 0x111, 0x146, 0x185, 0x186, 0x188, 0x18B, 0x193, 0x194, 0x19A, 0x19E, 0x19F, 0x1A0, 0x1A1,
      0x1C4, 0x1C7, 0x1C9, 0x1CD, 0x1D1, 0x1D4, 0x1D7, 0x1E1, 0x1E8, 0x1EB, 0x1F2, 0x1F3, 0x1F5]
  | 4 => [0x003, 0x006, 0x010, 0x011, 0x0C0, 0x0C1, 0x1E3]
  | 5 => [0x190, 0x191, 0x192, 0x197, 0x198, 0x1A2]
  | 6 => [0x0CA, 0x1EF, 0x1F0, 0x1F1]
  | 7 => [0x008, 0x00A, 0x00B, 0x00C, 0x00D, 0x00E, 0x1C5]
  | _ => []

/-- The fixed ATTN level of a source; none for a reserved source (R523, R525). -/
def attnLevel (src : Nat) : Option Nat := [1, 2, 3, 4, 5, 6, 7].find? (fun l => (sourcesAt l).contains src)

/-- Whether a source may be masked: level 1 or 2, or reserved, and not source 0x012 (R525, R535). -/
def maskable (src : Nat) : Bool :=
  src != 0x012 && match attnLevel src with | some l => l < 3 | none => true

/-- A regulator or rail that is out of its window or in fault (R496). -/
def Rail.alarms (r : Rail) : Bool := r.out || r.fault

/-- A tollhouse alarm holds (R473, R474, R495, R496, R531, R576, R355). -/
def State.alarm (s : State) : Bool :=
  s.pwr.refLost || s.pwr.plls.any (fun p => p.2.stopped || p.2.dead) || s.pwr.rails.any (fun r => r.2.alarms)
    || s.pwr.warnHeld || s.pwr.tripped || s.pwr.hbmTemp.any (fun t => 95 < t.2)

/-- A source of level `l` is unacknowledged and not masked. -/
def State.attnAt (s : State) (l : Nat) : Bool :=
  (sourcesAt l).any (fun e => s.ev.unack.getLsbD e && !s.ev.mask.getLsbD e)

/-- ATTN: the highest level that holds (R531). -/
def State.attn (s : State) : Nat :=
  if s.alarm then 7 else ([7, 6, 5, 4, 3, 2, 1].find? s.attnAt).getD 0

/-- The low four bits of the status word: the complement of ACT and MODE (R430). -/
def State.chk (s : State) : Nat := 15 - (b01 s.pair.act * 8 + modeCode s.pwr.mode)

/-- The status word with a completion code (R430). -/
def State.status (s : State) (code : Byte) : Word :=
  mkWord [(8, code.toNat), (3, modeCode s.pwr.mode), (3, s.attn), (1, b01 s.pair.formed), (1, b01 s.pair.act),
    (12, s.ev.seq.toNat), (4, s.chk)]

end Sys2Proof.Machine
end

