-- ==== Sys2Proof/Machine/Operands.lean ====
section
/-! DEFINITION. The command packet as a command's meaning sees it: its parameter words, its target, the
order of its checks, and its reply (R338, R423 to R430, R579, R580). -/

namespace Sys2Proof.Machine

/-! ## Completion codes (R436) -/

def codeOk : Byte := 0x00
def codeDeferred : Byte := 0x01
def codePartial : Byte := 0x02
def codeRestart : Byte := 0x03
def codeBadOpcode : Byte := 0x10
def codeBadParam : Byte := 0x11
def codeBadAlign : Byte := 0x12
def codeBadWidth : Byte := 0x13
def codeMismatch : Byte := 0x14
def codeNotPermitted : Byte := 0x15
def codeCrcError : Byte := 0x16
def codeBusy : Byte := 0x20
def codeRunning : Byte := 0x21
def codeEmpty : Byte := 0x22
def codeFull : Byte := 0x23
def codeInUse : Byte := 0x24
def codeWear : Byte := 0x25
def codeModeWrong : Byte := 0x30
def codeNotActing : Byte := 0x31
def codeInternal : Byte := 0x40
def codeTimeout : Byte := 0x41
def codeFenced : Byte := 0x42

/-! ## Parameters and target -/

/-- Parameter word `i`. -/
def par (p : List Word) (i : Nat) : Word := p.getD i 0

/-- Bits `[hi:lo]` of parameter word `i`. -/
def pf (p : List Word) (i hi lo : Nat) : Nat := bits (par p i) hi lo

/-- Parameter words `i` and `i + 1` as a 64-bit value, bits [31:0] first. -/
def par64 (p : List Word) (i : Nat) : Word64 := par p (i + 1) ++ par p i

/-- TARGET is die `d` at slice code `c` (R423). -/
def targetIs (h : Hdr) (d c : Nat) : Bool := h.die.toNat == d && h.slice.toNat == c

/-- PRIV 2 or 3 (R423). -/
def hdrUser (h : Hdr) : Bool := h.priv == 2 || h.priv == 3

/-- The inbound ring a command came from, as a number; 8 for the tether. -/
def srcRing (h : Hdr) : Nat := match h.src with | .ring n => n | .tether => 8

/-! ## Rings -/

/-- An inbound ring after its EN rises, and before (R422). -/
def restRing (_ : Nat) : InRing := ⟨0, 0, false, 0, none, none, [], none, [], 0⟩

/-- An inbound ring. -/
def State.ring (s : State) (n : Nat) : InRing := tget restRing s.host.rings n

/-- Puts an inbound ring. -/
def State.setRing (s : State) (n : Nat) (r : InRing) : State :=
  { s with host := { s.host with rings := tset restRing s.host.rings n r } }

/-- RCFG of inbound ring `n`. -/
def rcfgAddr (n : Nat) : Nat := 0x3F070108 + 0x10 * n

/-- EN of inbound ring `n`. -/
def State.ringOn (s : State) (n : Nat) : Bool := s.rf (rcfgAddr n) 31 31 == 1

/-- S of an inbound ring: 16 KiB × 2^SIZE, SIZE above 8 acting as 8 (R413). -/
def State.ringSize (s : State) (n : Nat) : Nat := 16384 * 2 ^ min 8 (s.rf (rcfgAddr n) 27 24)

/-- BASE of an inbound ring (R413). -/
def State.ringBase (s : State) (n : Nat) : Nat :=
  (s.cfgReg (rcfgAddr n - 4)).toNat * 2 ^ 32 + s.rf (rcfgAddr n - 8) 31 12 * 4096

/-- RHEAD of an inbound ring, modulo S, bits [5:0] ignored. -/
def State.ringRhead (s : State) (n : Nat) : Nat :=
  s.rf (0x3F071004 + 0x1000 * n) 21 6 * 64 % s.ringSize n

/-- Free space of a reply ring (R416). -/
def State.replyRoom (s : State) (n : Nat) : Nat :=
  (s.ringRhead n + 2 * s.ringSize n - (s.ring n).rtail % s.ringSize n - 64) % s.ringSize n

/-- The reply's words without its trailer (R429). -/
def State.replyWords (s : State) (op : Nat) (h : Hdr) (npar : Nat) (code : Byte) (rs : List Word) : List Word :=
  [mkWord [(12, op), (1, b01 h.cpl), (1, b01 h.norply), (2, 0), (16, 20 + 4 * npar * (1 + b01 h.cpl))],
   mkWord [(16, h.tag.toNat), (3, h.prio.toNat), (2, h.priv.toNat), (11, rs.length)],
   s.status code, h.seq] ++ rs

/-- A packet's bytes with its trailer (R423). -/
def withTrailer (ws : List Word) : List Byte := wordsBytes ws ++ leBytes (crcRing (wordsBytes ws))

/-- Writes a reply into the reply ring and RTAIL into the index block (R413 to R415). -/
def State.putReply (s : State) (n : Nat) (ws : List Word) : State :=
  let b := withTrailer ws
  let r := s.ring n
  let tail := (r.rtail + roundUp b.length 64) % s.ringSize n
  let m := ringWrite s.host.mem (s.ringBase n + 4096 + s.ringSize n) (s.ringSize n) r.rtail b
  let m := memWrite m (s.ringBase n + 4) (leBytes (BitVec.ofNat 32 tail))
  { s with host := { s.host with mem := m, rings := tset restRing s.host.rings n { r with rtail := tail, last := ws } } }

/-- Whether a reply is written at all: EN is 1, and NORPLY holds back only OK and OK_DEFERRED (R422, R428). -/
def State.replies (s : State) (n : Nat) (norply : Bool) (code : Byte) : Bool :=
  s.ringOn n && !(norply && (code == codeOk || code == codeDeferred))

/-- Replies to the command of ring `n` that runs, and ends it (R417). -/
def State.ringReply (s : State) (n : Nat) (norply : Bool) (code : Byte) (ws : List Word) : State :=
  let s := if s.replies n norply code then s.putReply n ws
    else s.setRing n { s.ring n with last := ws }
  s.setRing n { s.ring n with running := none, doneAt := s.time.mono }

/-! ## The tether's frames (R334) -/

/-- The header and payload bytes of a tether frame. -/
def TetherFrame.body (f : TetherFrame) : List Byte :=
  [f.ttype, f.flags] ++ beBytes 2 f.payload.length ++ beBytes 4 f.lseq.toNat ++ beBytes 4 f.ackseq.toNat
    ++ [0, 0, 0, 0] ++ f.payload

/-- TCRC of a tether frame (R334). -/
def TetherFrame.crc (f : TetherFrame) : Word := crcMsb 0x04C11DB7#32 (0xFFFFFFFF#32 ^^^ f.lseq) (TetherFrame.body f)

/-- The newest frames that a replay buffer of 4 MiB holds (R334). -/
def replayKeep : List TetherFrame → List TetherFrame
  | [] => []
  | f :: r => if ((f :: r).map (fun x => 20 + x.payload.length)).sum ≤ 4194304 then f :: r else replayKeep r

/-- The blocks of a tether frame: data blocks of 32 bytes, the last one filled with zeros, and an idle block (R57, R334). -/
def TetherFrame.blocks (f : TetherFrame) : List (BitVec 257) :=
  let b := TetherFrame.body f ++ beBytes 4 f.tcrc.toNat
  (List.range ((b.length + 31) / 32)).map (fun i =>
    let c := (b.drop (32 * i)).take 32
    BitVec.ofNat 257 (2 ^ 256 + beNat (c ++ List.replicate (32 - c.length) 0))) ++ [0]

/-- A frame goes out on the next lane in service, in rotation (R334). -/
def Pair.onLane (p : Pair) (f : TetherFrame) : Pair :=
  let order := ((List.range 8).filter (fun l => p.lastLane ≤ l)) ++ (List.range 8).filter (fun l => l < p.lastLane)
  match order.find? (fun l => p.lanes.getLsbD l) with
  | some l => { p with lastLane := l + 1, wire := tset nil0 p.wire l (TetherFrame.blocks f) }
  | none => p

/-- The tether's link layer works (R318, R333, R475). -/
def State.tetherOn (s : State) : Bool := s.cfg.pair.en && s.domain 9 == 0 && s.pair.lanes != 0

/-- Sends a tether frame, which stays in the replay buffer until it is acknowledged (R334). -/
def State.tetherSend (s : State) (ttype : Byte) (flags : Byte) (ack : Word) (payload : List Byte) : State :=
  if s.tetherOn then
    let f0 : TetherFrame := ⟨ttype, flags, s.pair.txSeq, ack, payload, 0⟩
    let f := { f0 with tcrc := TetherFrame.crc f0 }
    { s with pair := Pair.onLane { s.pair with
        txSeq := s.pair.txSeq + 1
        replay := replayKeep (s.pair.replay ++ [f]) } f }
  else s

/-- Sends a tether frame that acknowledges every frame received in order (R334). -/
def State.tetherPut (s : State) (ttype : Byte) (payload : List Byte) : State :=
  s.tetherSend ttype 0 (s.pair.rxSeq - 1) payload

/-- The line die's blocks are powered (R475). -/
def State.lineOn (s : State) : Bool := s.domain 6 == 0

/-- The member does not perform the acting functions of R317: in STANDBY; and with pair operation enabled, from the drop of the role
on, while ACTIVE or the DRAIN that follows either mode lasts (R322). -/
def State.silent (s : State) : Bool :=
  let pairMode (m : Mode) : Bool := m == .active || m == .standby
  s.pwr.mode == .standby || (s.cfg.pair.en && !s.pair.act
    && (s.pwr.mode == .active || (s.pwr.mode == .drain && pairMode s.pwr.before)))

/-! ## Mirrored commands (R338) -/

/-- The opcodes of the mirrored set (R338, R438). -/
def mirroredOps : List Nat :=
  [0x200, 0x201, 0x204, 0x205, 0x210, 0x211, 0x300, 0x301, 0x302, 0x305, 0x400, 0x401, 0x402, 0x403, 0x404,
   0x420, 0x430, 0x500, 0x501, 0xD00, 0xD01, 0xD02, 0xD03, 0xD20, 0x900, 0x901]

/-- A mirrored command from PRIV 1 or 2 at a member that does not act is rejected with NOT_ACTING (R338). -/
def State.mirrorRefuses (s : State) (op : Nat) (h : Hdr) : Bool :=
  mirroredOps.contains op && s.cfg.pair.en && s.cfg.pair.mirror && !s.pair.act && (h.priv == 1 || h.priv == 2)

/-- The acting member of an enabled pair forwards a host's mirrored command (R338). -/
def State.mirrors (s : State) (op : Nat) (h : Hdr) : Bool :=
  mirroredOps.contains op && s.cfg.pair.en && s.cfg.pair.mirror && s.pair.act && srcRing h != 8

/-- The command packet as it goes to the peer, with PRIV 3 (R335, R338). -/
def commandPacket (op : Nat) (h : Hdr) (p : List Word) : List Byte :=
  withTrailer ([mkWord [(12, op), (1, 0), (1, 0), (2, 0), (16, 20 + 4 * p.length)],
    mkWord [(16, h.tag.toNat), (3, h.prio.toNat), (2, 3), (11, 0)],
    mkWord [(2, h.die.toNat), (6, h.slice.toNat), (24, 0)], h.seq] ++ p)

/-- Sets DIVERGED and logs event 0x19A (R338). -/
def State.diverge (s : State) (op : Nat) (own peer : Byte) : State :=
  (s.post 0x19A [d16 op, d16 own.toNat, d16 peer.toNat]).hwBit 0xBF270000 21

/-- Ends a command: its reply goes to its ring, or over the tether for one the peer mirrored (R335, R429). -/
def State.finish (s : State) (op : Nat) (h : Hdr) (npar : Nat) (code : Byte) (rs : List Word) : State :=
  let s := s.count 0x0B op h.prio.toNat none (some h.priv.toNat) 0
  let ws := s.replyWords op h npar code rs
  match h.src with
  | .ring n =>
    if (s.ring n).orphans.contains h then s.setRing n { s.ring n with orphans := (s.ring n).orphans.erase h, doneAt := s.time.mono }
    else s.ringReply n h.norply code ws
  | .tether =>
    { s with pair := { s.pair with inbox := s.pair.inbox.eraseP (fun c => c.op == op && c.hdr == h) } }.tetherPut 5 (withTrailer ws)

/-- Ends a command that has taken effect: a mirrored one waits for the peer's reply (R338). -/
def State.finishDone (s : State) (op : Nat) (h : Hdr) (p : List Word) (code : Byte) (rs : List Word) : State :=
  if s.mirrors op h then
    if s.pair.tetherUp then
      let s := s.tetherPut 4 (commandPacket op h p)
      { s with pair := { s.pair with
          waits := s.pair.waits ++ [⟨⟨op, h, p⟩, code, rs, s.time.mono⟩]
          counts := tset z s.pair.counts 6 (tget z s.pair.counts 6 + 1) } }
    else (s.diverge op code 0).finish op h p.length code rs
  else s.finish op h p.length code rs

/-- The first check that a command fails, in the order of R580. -/
def State.firstBar (s : State) (op : Nat) (h : Hdr) (bad perm mode : Bool) (rest : List (Bool × Byte)) : Option Byte :=
  (([(bad, codeBadParam), (perm, codeNotPermitted), (mode, codeModeWrong), (s.mirrorRefuses op h, codeNotActing)] ++ rest).find?
    (·.1)).map (·.2)

/-- A command's checks in the order of R580 and then its effect: `bad` its BAD_PARAM conditions with its
layout, `perm` and `mode` its conditions for NOT_PERMITTED and MODE_WRONG, `rest` its further conditions
with their codes, and `eff` its effect with code and results. -/
def runCommand (op : Nat) (h : Hdr) (p : List Word) (bad perm mode : Bool) (rest : List (Bool × Byte))
    (eff : State → State × Byte × List Word) (s : State) : State :=
  match ([(bad, codeBadParam), (perm, codeNotPermitted), (mode, codeModeWrong),
      (s.mirrorRefuses op h, codeNotActing)] ++ rest).find? (·.1) with
  | some c => s.finish op h p.length c.2 []
  | none => let r := eff s; r.1.finishDone op h p r.2.1 r.2.2

/-- As `runCommand`, for an effect that answers OK with no results. -/
def runSimple (op : Nat) (h : Hdr) (p : List Word) (bad perm mode : Bool) (rest : List (Bool × Byte))
    (eff : State → State) (s : State) : State :=
  runCommand op h p bad perm mode rest (fun s => (eff s, codeOk, [])) s

/-- A pending control activation at T bars a new instant up to 300 ms after T (R512). -/
def State.nearActivation (s : State) (t : Word64) : Bool :=
  match s.fw.activation with
  | some a => a.obj = 0 && a.due.toNat ≤ t.toNat && t.toNat ≤ a.due.toNat + ms 300 && !s.reached t
  | none => false

/-- The two modes in which most configuration is not accepted. -/
def State.slipOrQuiet (s : State) : Bool := s.pwr.mode == .slipway || s.pwr.mode == .quiescent

end Sys2Proof.Machine
end

