-- ==== Sys2Proof/Machine/Parse.lean ====
section
/-! DEFINITION. Pure functions over a packet's first bytes: the flow key and hash of the port pre-parser,
the fragment test, the parse graph, key templates and the deep scan (R102, R103, R109 to R117, R129). -/

namespace Sys2Proof.Machine

/-- Byte `i` of the bytes present, a missing one as zero (R102). -/
def byteAt (w : List Byte) (i : Nat) : Nat := (w.getD i 0).toNat

/-- `n` bytes from `i`, missing ones as zero. -/
def bytesAt (w : List Byte) (i n : Nat) : List Byte := (List.range n).map (fun k => w.getD (i + k) 0)

/-- Two bytes from `i` as a number. -/
def be16 (w : List Byte) (i : Nat) : Nat := byteAt w i * 256 + byteAt w (i + 1)

/-- VLAN tags from offset `o` on, at most `n`: the offset of the EtherType after them, and the VLAN IDs (R102). -/
def skipTags (w : List Byte) : Nat → Nat → List Nat → Nat × List Nat
  | 0, o, ids => (o, ids)
  | n + 1, o, ids =>
    if be16 w o = 0x8100 ∨ be16 w o = 0x88A8 then skipTags w n (o + 4) (ids ++ [be16 w (o + 2) % 4096])
    else (o, ids)

/-- MPLS labels from offset `o`, those present up to the bottom of stack, and the offset under it if it
was reached (R102). -/
def mplsLabels (w : List Byte) : Nat → Nat → List Nat → List Nat × Option Nat
  | 0, _, ls => (ls, none)
  | n + 1, o, ls =>
    if w.length < o + 4 then (ls, none)
    else
      let v := byteAt w o * 65536 + be16 w (o + 1)
      if v % 2 = 1 then (ls ++ [v / 16], some (o + 4)) else mplsLabels w n (o + 4) (ls ++ [v / 16])

/-- Where an IPv6 extension header walk ends: at a fragment header, at an upper-layer header, or nowhere
within the limits of R102. The numbers are the header's offset and, for an upper layer, its protocol. -/
inductive V6End
  | frag (o : Nat)
  | upper (o proto : Nat)
  | none
  deriving DecidableEq, Repr

/-- The next-header values of IPv6 extension headers: hop-by-hop, routing, fragment, authentication, destination options and mobility.
PRESUMED (log 5). -/
def v6Exts : List Nat := [0, 43, 44, 51, 60, 135]

/-- Walks at most `n` further extension headers: the header of protocol `nh` stands at `o` (R102, R129). A fragment header whose 8 bytes
are not all present is none (R102, R129). DESIGN CHOICE (log 5): an upper-layer header is reached within 256 bytes when it begins below
byte 256, whether or not its bytes are present. -/
def v6Walk (w : List Byte) : Nat → Nat → Nat → V6End
  | n, o, nh =>
    if v6Exts.contains nh then
      match n with
      | 0 => .none
      | n + 1 =>
        if w.length ≤ o + 1 then .none
        else if nh = 44 then (if o + 8 ≤ w.length then .frag o else .none)
        else v6Walk w n (o + (if nh = 51 then (byteAt w (o + 1) + 2) * 4 else (byteAt w (o + 1) + 1) * 8)) (byteAt w o)
    else if o < 256 then .upper o nh else .none

/-- Protocols whose ports enter the key: TCP, UDP and SCTP (R102). -/
def hasPorts (proto : Nat) : Bool := proto == 6 || proto == 17 || proto == 132

/-- Two addresses in key order: lower value first when SYM is 1, and whether they were swapped (R102). -/
def ordered (sym : Bool) (a b : List Byte) : List Byte × Bool :=
  if sym && beNat b < beNat a then (b ++ a, true) else (a ++ b, false)

/-- Two ports at `q`, with the same swap as the addresses (R102). -/
def portKey (w : List Byte) (q : Nat) (swap : Bool) : List Byte :=
  if swap then bytesAt w (q + 2) 2 ++ bytesAt w q 2 else bytesAt w q 2 ++ bytesAt w (q + 2) 2

/-- Whether the IPv4 header at `o` is a fragment's: MF is 1 or the offset is not 0, by the bytes present (R102). -/
def v4Frag (w : List Byte) (o : Nat) : Bool :=
  (o + 6 < w.length && byteAt w (o + 6) / 32 % 2 == 1) || (o + 7 < w.length && be16 w (o + 6) % 8192 != 0)

/-- The IP rows of R102 for the header at `o`, of version 4 or 6. -/
def ipKey (w : List Byte) (o : Nat) (v6 useFl l4 sym : Bool) : List Byte :=
  if v6 then
    let (ad, sw) := ordered sym (bytesAt w (o + 8) 16) (bytesAt w (o + 24) 16)
    let fl := byteAt w (o + 1) % 16 * 65536 + be16 w (o + 2)
    if useFl && o + 3 < w.length && fl != 0 then ad ++ beBytes 3 fl
    else match v6Walk w 4 (o + 40) (if o + 6 < w.length then byteAt w (o + 6) else 0) with
      | .upper q p => ad ++ beBytes 1 p ++ (if l4 && hasPorts p then portKey w q sw else [])
      | _ => ad
  else
    let (ad, sw) := ordered sym (bytesAt w (o + 12) 4) (bytesAt w (o + 16) 4)
    let p := byteAt w (o + 9)
    ad ++ bytesAt w (o + 9) 1
      ++ (if !v4Frag w o && l4 && hasPorts p then portKey w (o + byteAt w o % 16 * 4) sw else [])

/-- Where the port pre-parser finds the EtherType after the tags, its value, and the VLAN IDs (R102). -/
def etherAt (w : List Byte) : Nat × Nat × List Nat :=
  let (o, ids) := skipTags w 2 12 []
  (o + 2, be16 w o, ids)

/-- MPLS EtherTypes. PRESUMED (log 5). -/
def isMpls (et : Nat) : Bool := et == 0x8847 || et == 0x8848

/-- The IP header that the fixed-function tests read: its offset and whether it is version 6 (R102, R129). -/
def ipAt (w : List Byte) (mplsIp : Bool) : Option (Nat × Bool) :=
  let (o, et, _) := etherAt w
  if et = 0x0800 then some (o, false)
  else if et = 0x86DD then some (o, true)
  else if isMpls et && mplsIp then
    match (mplsLabels w 64 o []).2 with
    | some q =>
      if q < w.length ∧ byteAt w q / 16 = 4 then some (q, false)
      else if q < w.length ∧ byteAt w q / 16 = 6 then some (q, true) else none
    | none => none
  else none

/-- The entropy label after an indicator among the first 8 labels (R102). -/
def entropyLabel (ls : List Nat) : Option Nat :=
  match (ls.take 8).findIdx? (· == 7) with
  | some i => ls[i + 1]?
  | none => none

/-- The flow key of a packet by FD_GANGWAY_HASHCFG, without the channel (R102). -/
def flowKey (cfg : Word) (w : List Byte) : List Byte :=
  let l4 := bit cfg 12
  let sym := bit cfg 10
  let (o, et, ids) := etherAt w
  let ls := (mplsLabels w 64 o []).1
  match (if isMpls et && bit cfg 14 then entropyLabel ls else none) with
  | some el => beBytes 3 el
  | none =>
    match ipAt w (bit cfg 13) with
    | some (q, v6) => ipKey w q v6 (bit cfg 15) l4 sym
    | none =>
      if isMpls et then (ls.take 8).flatMap (beBytes 3)
      else (ordered sym (bytesAt w 0 6) (bytesAt w 6 6)).1 ++ beBytes 2 et ++ ids.flatMap (beBytes 2)

/-- The hash H of a packet's first 256 bytes on a channel (R102, R103). -/
def flowHash (cfg : Word) (chan : Nat) (w : List Byte) : Word :=
  crc32cFrom (0xFFFFFFFF#32 ^^^ BitVec.ofNat 32 (bits cfg 31 16 * 65536))
    ((if bit cfg 11 then beBytes 2 chan else []) ++ flowKey cfg (w.take 256))

/-- The bucket of a packet: H[31:20] XOR H[11:0], and 0xF00 OR its bits [7:0] on a deep channel (R103). -/
def bucketOf (h : Word) (deep : Bool) : Nat :=
  let v := bits h 31 20 ^^^ bits h 11 0
  if deep then 0xF00 + v % 256 else v

/-! ## Fragments (R129) -/

/-- What the fragment test reads: the key of R129 beside the channel, offset and payload length in bytes, and MF. -/
structure FragInfo where
  key : List Byte
  off : Nat
  len : Nat
  mf  : Bool
  deriving DecidableEq, Repr

/-- The fragment test (R102, R129): none for a packet that is no fragment. -/
def fragInfo (cfg : Word) (bytes : List Byte) : Option FragInfo :=
  let w := bytes.take 256
  match ipAt w (bit cfg 13) with
  | some (o, false) =>
    if v4Frag w o then
      some ⟨bytesAt w (o + 12) 8 ++ bytesAt w (o + 9) 1 ++ bytesAt w (o + 4) 2, be16 w (o + 6) % 8192 * 8,
        be16 w (o + 2) - byteAt w o % 16 * 4, byteAt w (o + 6) / 32 % 2 == 1⟩
    else none
  | some (o, true) =>
    match v6Walk w 4 (o + 40) (if o + 6 < w.length then byteAt w (o + 6) else 0) with
    | .frag q => some ⟨bytesAt w (o + 8) 32 ++ bytesAt w (q + 4) 4, be16 w (q + 2) / 8 * 8,
        be16 w (o + 4) + o + 40 - (q + 8), byteAt w (q + 3) % 2 == 1⟩
    | _ => none
  | none => none

/-! ## The parse graph (R111 to R113) -/

/-- How a parse ends (R113). -/
inductive PStatus
  | ok | depth | trunc | short
  deriving DecidableEq, Repr

/-- The 2-bit code of a parse status: the order of the table of R113. -/
def PStatus.code : PStatus → Nat
  | .ok => 0 | .depth => 1 | .trunc => 2 | .short => 3

/-- A state of `n` words of a staged object, zero where nothing was staged. -/
def objWord (t : Tab (List Word)) (i k : Nat) : Word := (tget (fun _ => []) t i).getD k 0

/-- The next state of a parser state with key `key`: the first of `n` transitions from `t` that fits (R112). -/
def matchTrans (trans : Tab (List Word)) (key : Nat) (dflt : Nat) : Nat → Nat → Nat
  | 0, _ => dflt
  | n + 1, t =>
    if (objWord trans t 0).toNat = key then bits (objWord trans t 1) 31 22 else matchTrans trans key dflt n (t + 1)

/-- One walk of the parse graph over the window of `lim` bytes: `fail` where a byte it needs lies beyond.
Answers the status, the layer records and the end of the last layer record's header. DESIGN CHOICE (log 108): a state with END reads no
key, whatever its TCNT. -/
def parseWalk (states trans : Tab (List Word)) (w : List Byte) (lim : Nat) (fail : PStatus) :
    (stages state off : Nat) → List (Nat × Nat) → Nat → PStatus × List (Nat × Nat) × Nat
  | 0, _, _, ls, e => (.depth, ls, e)
  | n + 1, st, off, ls, e =>
    let a := objWord states st 0
    let b := objWord states st 1
    let d := objWord states st 3
    let rec? := bit a 25 && bits a 31 26 != 0
    let ls := if rec? then ls ++ [(bits a 31 26, off)] else ls
    let mode := bits a 23 22
    let p := off + bits a 13 6
    if mode ≠ 0 ∧ lim ≤ p then (fail, ls, e)
    else
      let len := if mode = 0 then bits a 21 14
        else ((byteAt w p &&& bits b 31 24) >>> bits b 23 21) * 2 ^ bits b 20 19 + bits a 21 14
      if mode = 2 ∧ len = 0 then (.short, ls, e)
      else if lim < off + len then (fail, ls, e)
      else
        let e := if rec? then off + len else e
        if bit a 24 then (.ok, ls, e)
        else
          let cnt := bits d 18 14
          let kw := bits b 10 9 + 1
          let kp := off + bits b 18 11
          if cnt ≠ 0 ∧ lim < kp + kw then (fail, ls, e)
          else
            let key := beNat (bytesAt w kp kw) &&& ((objWord states st 2).toNat % 256 ^ kw)
            let nx := matchTrans trans key (bits d 13 4) cnt (bits d 31 19)
            parseWalk states trans w lim fail n nx (off + len) ls e

/-- The parse of a packet of `bytes` from a START state: 16 stages over the header window (R109 to R113). -/
def parsePacket (states trans : Tab (List Word)) (bytes : List Byte) (start : Nat) :
    PStatus × List (Nat × Nat) × Nat :=
  parseWalk states trans (bytes.take 256) (min 256 bytes.length)
    (if bytes.length > 256 then .trunc else .short) 16 start 0 [] 0

/-! ## Key templates (R115) -/

/-- The offset of the record an extract word names (R115). -/
def layerAt (ls : List (Nat × Nat)) (ltype occ : Nat) : Option Nat :=
  let os := (ls.filter (·.1 == ltype)).map (·.2)
  if occ = 3 then os.getLast? else os[occ]?

/-- The bytes one extract word yields and whether it sets MISSING (R115). -/
def extractOne (w : List Byte) (ls : List (Nat × Nat)) (x : Word) : List Byte × Bool :=
  let n := bits x 15 11
  match layerAt ls (bits x 31 26) (bits x 25 24) with
  | some o =>
    let q := o + bits x 23 16
    if q + n ≤ min 256 w.length then (bytesAt w q n, false) else (List.replicate n 0, true)
  | none => (List.replicate n 0, true)

/-- The key of a template of 16 extract words, with its MISSING flag (R115). -/
def templateKey (w : List Byte) (ls : List (Nat × Nat)) (tmpl : List Word) : List Byte × Bool :=
  (tmpl.filter (fun x => bits x 15 11 != 0)).foldl
    (fun r x => let e := extractOne w ls x; (r.1 ++ e.1, r.2 || e.2)) ([], false)

/-! ## Deep patterns (R117) -/

/-- Whether pattern bytes under their mask stand at `o`. -/
def patternAt (w : List Byte) (o : Nat) : List Byte → List Byte → Bool
  | v :: vs, m :: ms => w.getD o 0 &&& m == v &&& m && patternAt w (o + 1) vs ms
  | _, _ => true

/-- Whether some start among `n` from `o` fits. -/
def patternIn (w : List Byte) (len : Nat) (v m : List Byte) : Nat → Nat → Bool
  | 0, _ => false
  | n + 1, o => (o + len ≤ min 2048 w.length && patternAt w o v m) || patternIn w len v m n (o + 1)

/-- Whether a pattern of 17 words matches a packet whose last layer record ends at `e` (R117). -/
def patternMatches (bytes : List Byte) (e : Nat) (p : List Word) : Bool :=
  let c := p.getD 0 0
  let len := bits c 31 26
  let base := if bit c 25 then e else 0
  let vb := ((p.drop 1).take 8).flatMap (fun x => beBytes 4 x.toNat)
  let mb := ((p.drop 9).take 8).flatMap (fun x => beBytes 4 x.toNat)
  bit c 24 && patternIn bytes len (vb.take len) (mb.take len) (bits c 12 2 + 1 - bits c 23 13) (base + bits c 23 13)

/-- The matches of the deep scan, in ascending pattern number (R117). -/
def deepMatches (patterns : Tab (List Word)) (bytes : List Byte) (e : Nat) : List Nat :=
  (patterns.filter (fun p => patternMatches bytes e p.2)).map (·.1)

end Sys2Proof.Machine
end

