-- ==== Sys2Proof/Machine/Forward.lean ====
section
/-! DEFINITION. What the stages of the forwarding die share: the FD mapping, the gangway's placing of
packets, rule banks, punts, and the hand-over to the die-to-die interface (R20 to R25, R35, R103 to R106, R116,
R119, R126 to R128, R582). -/

namespace Sys2Proof.Machine

/-- Puts the gangway. -/
def State.setGang (s : State) (g : Gangway) : State := { s with fd := { s.fd with gang := g } }
/-- Puts the engines. -/
def State.setEng (s : State) (e : Engines) : State := { s with fd := { s.fd with eng := e } }
/-- Puts the lookups. -/
def State.setLook (s : State) (l : Lookups) : State := { s with fd := { s.fd with look := l } }
/-- Puts the forwarding die's configuration. -/
def State.setFdCfg (s : State) (f : FdSetup) : State := { s with cfg := { s.cfg with fd := f } }

/-! ## The FD mapping -/

/-- The physical slice of a logical slice, 0x1F for none (R25). -/
def State.physOf (s : State) (l : Nat) : Nat := tget idn s.fd.gang.phys l

/-- STATE of a logical slice: 0 in service, 1 gated, 2 powered off, 3 draining (R25). -/
def State.sliceSt (s : State) (l : Nat) : Nat := tget zn s.fd.gang.st l

/-- The logical slices, 0 to 15. -/
def slices : List Nat := List.range 16

/-- Whether a logical slice holds a physical slice (R582). -/
def State.hasPhys (s : State) (l : Nat) : Bool := s.physOf l != 0x1F

/-- DEEP_SLICES is not zero (R116). -/
def State.deepOn (s : State) : Bool := s.rf 0x7F040004 31 16 != 0

/-- The slices that scan: the lowest 4 set bits of DEEP_SLICES (R116). -/
def State.deepSlices (s : State) : List Nat :=
  (slices.filter (fun i => bit (s.cfgReg 0x7F040004) (16 + i))).take 4

/-- A bucket of the deep range (R103). -/
def deepBucket (b : Nat) : Bool := 0xF00 ≤ b

/-- DEEPi of a channel (R116). -/
def State.isDeep (s : State) (chan : Nat) : Bool :=
  bit (s.cfgReg (0x7F040200 + 4 * (chan / 32))) (chan % 32)

/-- The next logical slice at or after `l`, modulo 16, that holds a physical slice (R28, R582). -/
def State.nextHeld (s : State) (l : Nat) : Nat :=
  (((slices.map (fun k => (l + k) % 16)).find? s.hasPhys).getD (l % 16))

/-- The home slice of a bucket (R582). -/
def State.homeSlice (s : State) (b : Nat) : Nat :=
  let ds := s.deepSlices.filter s.hasPhys
  if s.deepOn && deepBucket b && !ds.isEmpty then ds.getD (b % ds.length) 0 else s.nextHeld (b % 16)

/-- The slice of a bucket at rest. -/
def homeRest (b : Nat) : Nat := b % 16

/-- The logical slice that a bucket maps to (R104). -/
def State.bucketSlice (s : State) (b : Nat) : Nat := tget homeRest s.fd.gang.map b

/-- Maps a bucket to a slice. -/
def Gangway.putMap (g : Gangway) (b l : Nat) : Gangway := { g with map := tset homeRest g.map b l }

/-- One change of the FD mapping: GEN passes through an odd value and is even again (R25). -/
def Gangway.gen2 (g : Gangway) : Gangway := { g with gen := g.gen + 2 }

/-- Puts STATE of a slice, with GEN (R24, R25). -/
def State.setSliceSt (s : State) (l v : Nat) : State :=
  if s.sliceSt l = v then s
  else s.setGang { s.fd.gang with st := tset zn s.fd.gang.st l v, gen := s.fd.gang.gen + 2 }

/-- Maps every bucket to its home slice (R582). -/
def State.mapHome (s : State) : State :=
  let m := (List.range 4096).filterMap (fun b => let h := s.homeSlice b; if h = b % 16 then none else some (b, h))
  s.setGang { s.fd.gang with map := m }

/-! ## Rule banks -/

/-- The bank of a version that packets carry: the current one, or one kept for packets in flight (R120). -/
def State.bankOf (s : State) (ver : Nat) : RuleBank :=
  let cur := s.cfg.fd.rules
  if cur.version = ver then cur
  else (s.fd.rules.old.find? (fun b => b.2.version == ver)).elim cur (·.2)

/-- The current version (R120). -/
def State.curVer (s : State) : Nat := s.cfg.fd.rules.version

/-- Versions in flight (R120). -/
def State.flying (s : State) : List Nat :=
  s.fd.eng.threads.map (·.ver) ++ s.fd.frags.filterMap (fun f => f.res.map (·.ver))

/-- The profile of a channel in a bank: its two words (R114). -/
def RuleBank.profile (b : RuleBank) (chan : Nat) (w : Nat) : Word :=
  objWord b.profiles (bits (objWord b.chanMap chan 0) 7 0) w

/-- A SHADOW register's value in a bank (R119, R176). -/
def RuleBank.reg (b : RuleBank) (a : Nat) : Word := tget cfgRest b.regs a

/-! ## Punts -/

/-- The punt policer register of a reason (R127). -/
def State.puntPol (s : State) (r : Nat) : Word := s.cfgReg (0x7F060400 + 4 * r)

/-- BURST of a reason in millionths of a packet (R127). -/
def State.puntBurst (s : State) (r : Nat) : Nat := max 1 (bits (s.puntPol r) 15 4) * 1000000

/-- Every reason bucket at its BURST and the aggregate bucket full (R127). -/
def State.fillPunts (s : State) : State :=
  { s with fd := { s.fd with
      punt := (List.range 64).map (fun r => (r, s.puntBurst r)), agg := 2048000000, filled := s.mono } }

/-- SNAP of an outbound punt ring (R439): below 64 acts as 64. -/
def State.snap (s : State) (ring : Nat) : Nat := max 64 (s.rf (0x3F070208 + 0x10 * ring) 23 10)

/-- The size of a punt record in host memory (R439). -/
def State.puntSize (s : State) (r : PuntRec) : Nat := roundUp (32 + min r.bytes.length (s.snap r.ring)) 64

/-- Adds to LOST of an outbound ring (R440, R453). -/
def State.addLost (s : State) (ring : Nat) : State := s.hwAdd (0x3F079004 + 0x1000 * ring) 31 22 1 1023

/-- A punt that finds no way to its ring is dropped: its counters and event 0x1E6 with the cause (R440). -/
def State.puntNoRoom (s : State) (r : PuntRec) (cause : Nat) : State :=
  ((s.bump 2 r.reason 2 1).addLost r.ring).postOnce 0x1E6 r.ring [d16 r.ring, d16 cause]

/-- A punt meets the policers of its reason and the aggregate; one that passes goes toward its ring, or is
counted apart in STANDBY (R127, R128, R317, R440). -/
def State.punt (s : State) (r0 : PuntRec) : State :=
  let pol := s.puntPol r0.reason
  let c := bits pol 3 2
  let r := { r0 with ring := c }
  let tok := tget zn s.fd.punt r.reason
  if !bit pol 0 || tok < 1000000 then s.bump 2 r.reason 1 1
  else if s.fd.agg < (1 + 512 * c) * 1000000 then (s.bump 2 r.reason 1 1).postOnce 0x086 0 []
  else
    let s := { s with fd := { s.fd with
      punt := tset zn s.fd.punt r.reason (tok - 1000000), agg := s.fd.agg - 1000000 } }
    if s.silent then
      { s with pair := { s.pair with counts := tset z s.pair.counts 7 (tget z s.pair.counts 7 + 1) } }
    else
      let s := s.bump 2 r.reason 0 1
      if 4194304 < (s.host.punts.map s.puntSize).sum + s.puntSize r then s.puntNoRoom r 2
      else { s with host := { s.host with punts := s.host.punts ++ [r] } }

/-- The punt record of an ingress packet (R439). -/
def ingressPunt (reason : Nat) (copy : Bool) (slice ver : Nat) (emeta : Word) (p : Staged) : PuntRec :=
  { ring := 0, reason, copy, eg := false, port := p.pkt.port, chan := p.pkt.chan, slice, ruleVer := ver,
    time := p.pkt.time, emeta, bucket := p.bucket, node := 0, bytes := p.pkt.bytes }

/-! ## The gangway's placing of packets -/

/-- Bytes of staged packets. -/
def stagedBytes (l : List Staged) : Nat := (l.map (fun p => p.pkt.bytes.length)).sum

/-- Use of the move hold buffer in bytes (R106, R218). -/
def State.holdUse (s : State) : Nat :=
  (s.fd.gang.moves.map (fun m => stagedBytes m.held)).sum + stagedBytes s.fd.gang.rollHeld
    + (s.fd.gang.chanHeld.map (fun p => (p.2.elim 0 stagedBytes))).sum

/-- Raises HOLDMAX to the present use in KiB (R106). -/
def State.holdPeak (s : State) : State := s.hwPeak 0x7F040120 10 0 ((s.holdUse + 1023) / 1024) 1024

/-- A packet that finds the hold buffer full is dropped and counted (R106). -/
def State.holdFull (s : State) (p : Staged) : Bool := 1048576 < s.holdUse + p.pkt.bytes.length

/-- Die-to-die modules in service (R41). -/
def State.modules (s : State) : Nat := 24 - s.fd.d2d.retired.length

/-- A crossbar input's buffer: cells that wait (R226). -/
def State.xbarCells (s : State) (input : Nat) : Nat :=
  ((s.td.xb.voqs.filter (fun v => v.1 / 96 == input)).map (fun v => v.2.length)).sum

/-- A crossbar input is held back: its buffer or one of its VOQs is full (R226). -/
def State.xbarHeld (s : State) (input : Nat) : Bool :=
  2048 ≤ s.xbarCells input || s.td.xb.voqs.any (fun v => v.1 / 96 == input && 512 ≤ v.2.length)

/-- A crossbar input has room for a packet of `len` bytes in its buffer of 2,048 cells and in each VOQ of 512, with the partly
filled cells it holds (R224, R226). -/
def State.xbarRoom (s : State) (input len : Nat) : Bool :=
  let n := (1 + (len + 31) / 32 + 7) / 8
  let packs := (s.td.xb.packs.filter (fun v => v.1 / 96 == input)).length
  s.xbarCells input + packs + n ≤ 2048
    && s.td.xb.voqs.all (fun v => v.1 / 96 != input || v.2.length + 1 + n ≤ 512)

/-- A packet that finds its slice's staging FIFO full is dropped and counted by the cause of the crowding
(R41, R118, R205, R226). DESIGN CHOICE (log 108): the limit of event 0x083, once a second, is kept for each slice, as that of 0x0C8 is. -/
def State.stagingDrop (s : State) (slice : Nat) (p : Staged) : State :=
  if s.modules < 17 then s.drop 0 p.pkt.port 19 slice p.pkt.bytes.length
  else if s.xbarHeld slice then s.drop 0 p.pkt.port 20 slice p.pkt.bytes.length
  else if s.isDeep p.pkt.chan then (s.drop 0 p.pkt.port 8 slice p.pkt.bytes.length).postOnce 0x083 slice [d16 slice]
  else (s.drop 0 p.pkt.port 17 slice p.pkt.bytes.length).postOnce 0x0C8 slice [d16 slice]

/-- An arrival wakes a half or a queue slice that has gated its own clock (R481). -/
def State.stir (s : State) (d : Nat) : State :=
  { s with pwr := { s.pwr with idle := s.pwr.idle.filter (· != d), emptyAt := tdel s.pwr.emptyAt d } }

/-- A packet enters a slice's staging FIFO of 64 KiB (R21, R105, R487, R583). -/
def State.enter (s : State) (slice : Nat) (p : Staged) : State :=
  let q := tget nil0 s.fd.gang.staging slice
  if s.pwr.mode == .drain then s.drop 0 p.pkt.port 21 slice p.pkt.bytes.length
  else if !s.hasPhys slice then s.drop 0 p.pkt.port 16 slice p.pkt.bytes.length
  else if 65536 < stagedBytes q + p.pkt.bytes.length then s.stagingDrop slice p
  else (s.stir (14 + 2 * s.physOf slice)).setGang { s.fd.gang with
    staging := tset nil0 s.fd.gang.staging slice (q ++ [p])
    counts := tset zn s.fd.gang.counts p.bucket (tget zn s.fd.gang.counts p.bucket + 1) }

/-- A packet enters the hold buffer of the move at place `i` (R105, R106). -/
def State.holdMove (s : State) (m : GangMove) (p : Staged) : State :=
  let upd (f : GangMove → GangMove) (s : State) : State :=
    s.setGang { s.fd.gang with moves := s.fd.gang.moves.map (fun x => if x.bucket = m.bucket then f x else x) }
  if s.holdFull p then
    let s := s.drop 0 p.pkt.port 7 (s.bucketSlice p.bucket) p.pkt.bytes.length
    if m.said then s else (upd (fun x => { x with said := true }) s).post 0x081 [d16 1]
  else (upd (fun x => { x with held := x.held ++ [p] }) s).holdPeak

/-- A rollout step holds the arrivals of a slice (R218). -/
def State.rollHolds (s : State) (slice : Nat) : Bool :=
  match s.fd.eng.roll with
  | some r => r.stage == 1 && r.step == slice
  | none => false

/-- A packet goes where the gangway sends it: to a hold buffer, or into its bucket's slice (R104 to R106, R116,
R218). -/
def State.place (s : State) (p : Staged) : State :=
  match tget none0 s.fd.gang.chanHeld p.pkt.chan with
  | some l =>
    if s.holdFull p then s.drop 0 p.pkt.port 7 (s.bucketSlice p.bucket) p.pkt.bytes.length
    else (s.setGang { s.fd.gang with
      chanHeld := tset none0 s.fd.gang.chanHeld p.pkt.chan (some (l ++ [p])) }).holdPeak
  | none =>
    match s.fd.gang.moves.find? (fun m => m.bucket == p.bucket && !m.waking) with
    | some m => s.holdMove m p
    | none =>
      let sl := s.bucketSlice p.bucket
      if s.rollHolds sl then
        if s.holdFull p then s.drop 0 p.pkt.port 7 (s.bucketSlice p.bucket) p.pkt.bytes.length
        else (s.setGang { s.fd.gang with rollHeld := s.fd.gang.rollHeld ++ [p] }).holdPeak
      else s.enter sl p

/-- A packet reaches the port pre-parser: its flow hash and bucket, and its place (R102, R103). -/
def State.arrive (s : State) (p : RxPkt) : State :=
  let h := flowHash (s.cfgReg 0x7F040000) p.chan p.bytes
  s.place ⟨p, bucketOf h (s.isDeep p.chan), h⟩

/-- A packet of a channel is in some slice, or on its way into one (R116). -/
def State.chanBusy (s : State) (chan : Nat) : Bool :=
  s.fd.gang.staging.any (fun q => q.2.any (·.pkt.chan == chan))
    || s.fd.gang.moves.any (fun m => m.held.any (·.pkt.chan == chan))
    || s.fd.gang.rollHeld.any (·.pkt.chan == chan)
    || s.fd.eng.threads.any (fun t => t.eg.isNone && t.pkt.pkt.chan == chan)
    || s.fd.frags.any (fun f => f.held.any (·.2.pkt.chan == chan))

/-- Releases the held arrivals of a channel once no earlier packet of it remains in any slice (R116). -/
def State.freeChan (s : State) (chan : Nat) : State :=
  match tget none0 s.fd.gang.chanHeld chan with
  | some l =>
    if s.chanBusy chan then s
    else (l.map (fun p => { p with bucket := bucketOf p.hash (s.isDeep chan) })).foldl State.place
      (s.setGang { s.fd.gang with chanHeld := tset none0 s.fd.gang.chanHeld chan none })
  | none => s

/-- A packet has left its slice, handed over or dropped (R105). -/
def State.leave (s : State) (p : Staged) : State :=
  (s.setGang { s.fd.gang with
    counts := tset zn s.fd.gang.counts p.bucket (tget zn s.fd.gang.counts p.bucket - 1) }).freeChan p.pkt.chan

/-! ## The hand-over -/

/-- The fields that an action program leaves for the descriptor (R35, R199). -/
structure DescOut where
  queue  : Nat
  mc     : Bool
  colour : Nat
  ct     : Bool
  emeta  : Word
  ver    : Nat

/-- DCRC of a descriptor: CRC-8 over bits [255:8] (R35). -/
def dcrcOf (v : Nat) : Byte := crc8From 0xFF#8 (beBytes 31 v)

/-- The 256 bits of an ingress descriptor (R35). -/
def descBits (p : Staged) (slice pseq : Nat) (o : DescOut) : BitVec 256 :=
  let v := packNat [(18, o.queue), (18, 2 ^ 18 - 1 - o.queue % 2 ^ 18), (48, p.pkt.manifest.toNat), (16, o.ver),
    (2, o.colour), (1, b01 o.ct), (1, b01 o.mc), (12, p.pkt.chan), (7, p.pkt.port), (14, p.pkt.bytes.length),
    (4, slice), (16, pseq), (12, p.bucket), (32, p.pkt.time.toNat), (32, o.emeta.toNat), (15, 0)] 0
  BitVec.ofNat 256 (v * 256 + (dcrcOf v).toNat)

/-- Hands a packet's descriptor (VC0) and data (VC1) to the die-to-die interface under the slice's next PSEQ (R34, R35, R39). -/
def State.handOver (s : State) (slice : Nat) (p : Staged) (o : DescOut) : State :=
  let s := s.count 0x01 p.pkt.port o.colour (some (64 + slice)) none p.pkt.bytes.length
  let q := tget zn s.fd.d2d.pseq slice
  let d := descBits p slice q o
  let s := s.setD2d { s.fd.d2d with
    pseq := tset zn s.fd.d2d.pseq slice ((q + 1) % 65536)
    flight := s.fd.d2d.flight ++ [⟨d, p.pkt.bytes, p.pkt.origin, p.pkt.bad, none, false⟩] }
  (s.sendFlits false (flitsOf 0 (beBytes 32 d.toNat) ++ flitsOf 1 p.pkt.bytes)).leave p

end Sys2Proof.Machine
end

