-- ==== Sys2Proof/Machine/Lpm.lean ====
section
/-! DEFINITION. Longest-prefix match: lookup, routes, and the commands LPM_ADD and LPM_DEL (R134 to R141). -/

namespace Sys2Proof.Machine

/-- NHI and NHI_N of a result are complements (R134, R135). -/
def resultOk (r : Word64) : Bool := bits r 63 44 + bits r 43 24 == 2 ^ 20 - 1

/-- A route's key in the table: the address's bits beyond PLEN are clear (R138). -/
def routeKey (v6 : Bool) (vrf addr plen : Nat) : Nat :=
  let w := if v6 then 128 else 32
  ((b01 v6 * 4096 + vrf) * 2 ^ 128 + addr / 2 ^ (w - plen) * 2 ^ (w - plen)) * 256 + plen

/-- The longest matching route of length at most `n`. -/
def lpmFind (t : Tab Word64) (v6 : Bool) (vrf addr : Nat) : Nat → Option (Word64 × Nat)
  | 0 => (tfind t (routeKey v6 vrf addr 0)).map (·, 0)
  | n + 1 =>
    match tfind t (routeKey v6 vrf addr (n + 1)) with
    | some r => some (r, n + 1)
    | none => lpmFind t v6 vrf addr n

/-- UNITS: one for an IPv4 prefix, two for an IPv6 prefix (R137). -/
def lpmUnits (t : Tab Word64) : Nat := (t.map (fun r => if 2 ^ 148 ≤ r.1 then 2 else 1)).sum

/-- VRF of a channel (R136). -/
def State.vrfOf (s : State) (chan : Nat) : Nat :=
  let w := s.cfgReg (0x7F071000 + 4 * (chan / 2))
  if chan % 2 = 0 then bits w 11 0 else bits w 27 16

/-- How a lookup ends: status and result as the program reads them, or a drop with its ingress counter. -/
inductive LkRes
  | val (status : Word64) (result : Word64)
  | lost (counter : Nat)
  deriving DecidableEq, Repr

/-- A lookup of an LPM key of bytes with its MISSING flag (R135, R136, R141): the status word of selector 0x03. -/
def State.lpmLookup (s : State) (chan : Nat) (key : List Byte) (missing : Bool) (bad : Option Nat) :
    LkRes × State :=
  let fam := byteAt key 0 / 16
  if missing || !(fam == 4 || fam == 6) then (.val 2 0, s)
  else
    let v6 := fam == 6
    let vrf := s.vrfOf chan
    let s := match bad with
      | some a =>
        let s := if s.fd.look.rebuild.contains (vrf, fam) then s else s.post 0x096 [d16 vrf, d16 fam, d32 a]
        s.setLook { s.fd.look with
          rebuild := if s.fd.look.rebuild.contains (vrf, fam) then s.fd.look.rebuild
            else s.fd.look.rebuild ++ [(vrf, fam)] }
      | none => s
    if bad.isSome then (.lost 11, s)
    else
      let w := if v6 then 128 else 32
      match lpmFind s.cfg.fd.lpm v6 vrf (beNat (bytesAt key 1 (w / 8))) w with
      | some (r, n) =>
        if resultOk r then (.val (BitVec.ofNat 64 (n * 256)) r, s)
        else (.lost 10, s.post 0x094 [d16 0])
      | none => (.val 1 0, s)

/-! ## Batches -/

/-- The result word of a batch reply (R138). -/
def batchWord (applied : Nat) (fail : Byte) (aux : Nat) : Word :=
  mkWord [(16, applied), (8, fail.toNat), (8, aux)]

/-- The reply code of a batch of `n` records of which `applied` were applied (R138). -/
def batchCode (n applied : Nat) (fail : Byte) : Byte :=
  if applied = n then codeOk else if applied = 0 then fail else codePartial

/-- Cuts the words of `n` records whose first word gives each one's length; none where they do not fit or a
header is not whole (R139, R579). -/
def cutRecords (len : Word → Option Nat) : Nat → List Word → Option (List (List Word))
  | 0, ws => if ws.isEmpty then some [] else none
  | n + 1, ws =>
    match ws with
    | [] => none
    | h :: _ =>
      match len h with
      | some k =>
        if ws.length < k then none
        else (cutRecords len n (ws.drop k)).map ((ws.take k) :: ·)
      | none => none

/-- Applies records in order until one fails: the records applied, the failing code, AUX (R138). -/
def runRecords (step : List Word → State → Except (Byte × State) (State × Nat)) :
    List (List Word) → State → Nat → Nat → State × Nat × Byte × Nat
  | [], s, a, x => (s, a, 0, x)
  | r :: rs, s, a, x =>
    match step r s with
    | .ok (s, k) => runRecords step rs s (a + 1) (x + k)
    | .error (c, s) => (s, a, c, x)

/-- Runs a batch and forms its reply (R138). -/
def runBatch (step : List Word → State → Except (Byte × State) (State × Nat)) (rs : List (List Word)) (s : State) :
    State × Byte × List Word :=
  let r := runRecords step rs s 0 0
  (r.1, batchCode rs.length r.2.1 r.2.2.1, [batchWord r.2.1 r.2.2.1 r.2.2.2])

/-- The words of one LPM record by its header (R138, R139). -/
def lpmLen (add : Bool) (h : Word) : Option Nat :=
  if bits h 7 0 ≠ 0 then none
  else if bits h 31 28 = 4 then some (2 + 2 * b01 add)
  else if bits h 31 28 = 6 then some (5 + 2 * b01 add) else none

/-- The records of an LPM command, none where the layout fails. -/
def lpmRecords (add : Bool) (p : List Word) : Option (List (List Word)) :=
  let n := pf p 0 31 24
  if p.isEmpty || n = 0 || 60 < n || pf p 0 23 0 ≠ 0 then none else cutRecords (lpmLen add) n (p.drop 1)

/-- One LPM record (R137 to R140). -/
def lpmRecord (add : Bool) (r : List Word) (s : State) : Except (Byte × State) (State × Nat) :=
  let h := par r 0
  let v6 := bits h 31 28 == 6
  let plen := bits h 15 8
  let n := if v6 then 4 else 1
  let addr := beNat (((r.drop 1).take n).flatMap (fun w => beBytes 4 w.toNat))
  let k := routeKey v6 (bits h 27 16) addr plen
  let t := s.cfg.fd.lpm
  if (if v6 then 128 else 32) < plen then .error (codeBadParam, s)
  else if add then
    let res : Word64 := par r (n + 1) ++ par r (n + 2)
    if !resultOk res then .error (codeMismatch, s)
    else if (tfind t k).isNone && 6291456 < lpmUnits t + (if v6 then 2 else 1) then
      .error (codeFull, s.postOnce 0x090 0 [])
    else .ok (s.setFdCfg { s.cfg.fd with lpm := tins t k res }, 0)
  else if (tfind t k).isNone then .ok (s, 1)
  else .ok (s.setFdCfg { s.cfg.fd with lpm := tdel t k }, 0)

/-- TARGET is FD die-wide. -/
def fdWide (h : Hdr) : Bool := targetIs h 1 0x3F
/-- TARGET is TD die-wide. -/
def tdWide (h : Hdr) : Bool := targetIs h 2 0x3F
/-- TARGET is DEV die-wide. -/
def devWide (h : Hdr) : Bool := targetIs h 0 0x3F

/-- An LPM command once no rebuild holds it (R138 to R140, R152). -/
def State.lpmRun (s : State) (op : Nat) (h : Hdr) (p : List Word) : State :=
  let add := op == 0x210
  let rs := lpmRecords add p
  runCommand op h p (!fdWide h || rs.isNone) (h.priv == 2) s.slipOrQuiet []
    (runBatch (lpmRecord add) (rs.getD [])) s

/-- An LPM command: while a rebuild runs it is held (R141). -/
def State.lpmCommand (s : State) (op : Nat) (h : Hdr) (p : List Word) : State :=
  if s.fd.look.rebuild.isEmpty then s.lpmRun op h p
  else s.setLook { s.fd.look with held := s.fd.look.held ++ [⟨op, h, p⟩] }

/-- LPM_ADD (R138). -/
def execLpmAdd (h : Hdr) (p : List Word) (s : State) : Out := .next (s.lpmCommand 0x210 h p)

/-- LPM_DEL (R138). -/
def execLpmDel (h : Hdr) (p : List Word) (s : State) : Out := .next (s.lpmCommand 0x211 h p)

/-- A rebuilt subtree returns to service; the held commands run once no rebuild is left (R141). -/
def execLpmRebuildComplete (vrf : Fin 4096) (v6 : Bool) (s : State) : Out :=
  let k : Nat × Nat := (vrf.val, if v6 then 6 else 4)
  if !s.fd.look.rebuild.contains k then .next s
  else
    let l := { s.fd.look with rebuild := s.fd.look.rebuild.erase k }
    if l.rebuild.isEmpty then
      .next (l.held.foldl (fun s c => s.lpmRun c.op c.hdr c.par) (s.setLook { l with held := [] }))
    else .next (s.setLook l)

end Sys2Proof.Machine
end

