-- ==== Sys2Proof/Machine/Exact.lean ====
section
/-! DEFINITION. Exact-match tables: places, insertion, learning, aging, iterators, flushes and syncs (R142 to R165). -/

namespace Sys2Proof.Machine

/-! ## Places -/

/-- First place of a cluster's table, and of its stash. -/
def xBase (c : Nat) : Nat := c * 4194304
def xStash (c : Nat) : Nat := c * 4194304 + 2097152

/-- A cluster's running state. -/
def State.cluster (s : State) (c : Nat) : Cluster := tget dflt s.fd.look.clusters c

/-- Puts a cluster. -/
def State.setCluster (s : State) (c : Nat) (k : Cluster) : State :=
  s.setLook { s.fd.look with clusters := tset dflt s.fd.look.clusters c k }

/-- The exact-match entries. -/
def State.xt (s : State) : Tab XEnt := s.cfg.fd.exact

/-- Puts the exact-match entries. -/
def State.setXt (s : State) (t : Tab XEnt) : State := s.setFdCfg { s.cfg.fd with exact := t }

/-- The two candidate buckets of a key, as bank × 32,768 + bucket (R145). -/
def candidates (cfg : Word) (wide : Bool) (tid : Nat) (key : List Byte) : Nat × Nat :=
  let m := BitVec.ofNat 8 (b01 wide * 128 + tid) :: key
  let h1 := crc32cFrom (0xFFFFFFFF#32 ^^^ BitVec.ofNat 32 (bits cfg 31 16 * 65536)) m
  let h2 := crcMsb 0x04C11DB7#32 (0xFFFFFFFF#32 ^^^ BitVec.ofNat 32 (bits cfg 15 0)) m
  (bits h1 2 0 * 32768 + bits h1 17 3, (8 + bits h2 2 0) * 32768 + bits h2 17 3)

/-- The candidate buckets of a key now (R145). -/
def State.cand (s : State) (wide : Bool) (tid : Nat) (key : List Byte) : Nat × Nat :=
  candidates (s.cfgReg 0x7F080000) wide tid key

/-- Whether an entry has a given TID, width and key (R144). -/
def XEnt.is (e : XEnt) (tid : Nat) (wide : Bool) (key : List Byte) : Bool :=
  e.tid == tid && e.wide == wide && e.key == key

/-- The ways of bucket `b` of cluster `c` at which an entry starts. -/
def bucketPlaces (c b : Nat) : List Nat := [0, 1, 2, 3].map (fun w => xBase c + b * 4 + w)

/-- The stash places of a cluster in use, by ascending index. -/
def State.stashPlaces (s : State) (c : Nat) : List Nat :=
  (s.xt.map (·.1)).filter (fun p => xStash c ≤ p && p < xStash c + 256)

/-- The place of a key in a cluster: the first candidate bucket, the second, then the stash (R145, R153). -/
def State.xFind (s : State) (c tid : Nat) (wide : Bool) (key : List Byte) : Option (Nat × XEnt) :=
  let ab := s.cand wide tid key
  (bucketPlaces c ab.1 ++ bucketPlaces c ab.2 ++ s.stashPlaces c).findSome? (fun p =>
    match tfind s.xt p with
    | some e => if e.is tid wide key then some (p, e) else none
    | none => none)

/-- An entry that a flush hides (R161). -/
def Cluster.hides (k : Cluster) (e : XEnt) : Bool :=
  e.portv && k.flushes.any (fun f => f.port == e.port && e.stamp != tget zn k.gens e.port
    && (f.allTid || f.tid == e.tid) && (!f.learnedOnly || e.learned))

/-- The ways of a bucket in use: a wide entry takes its place and the next (R144). -/
def waysUsed (t : Tab XEnt) (c b : Nat) : List Nat :=
  (bucketPlaces c b).zipIdx.flatMap (fun pw =>
    match tfind t pw.1 with
    | some e => if e.wide then [pw.2, pw.2 + 1] else [pw.2]
    | none => [])

/-- The places of a bucket that a new entry of a width can take, lowest first (R144). -/
def freeWays (t : Tab XEnt) (c b : Nat) (wide : Bool) : List Nat :=
  let u := waysUsed t c b
  if wide then [0, 2].filter (fun w => !u.contains w && !u.contains (w + 1))
  else [0, 1, 2, 3].filter (fun w => !u.contains w)

/-- Free ways of a bucket. -/
def freeCount (t : Tab XEnt) (c b : Nat) : Nat := 4 - (waysUsed t c b).length

/-! ## Insertion (R147) -/

/-- Step 1: the place in a candidate bucket, the one with more free ways, the first on a tie. -/
def directPlace (t : Tab XEnt) (c a b : Nat) (wide : Bool) : Option Nat :=
  match freeWays t c a wide, freeWays t c b wide with
  | w :: _, v :: _ => if freeCount t c a < freeCount t c b then some (xBase c + b * 4 + v) else some (xBase c + a * 4 + w)
  | w :: _, [] => some (xBase c + a * 4 + w)
  | [], v :: _ => some (xBase c + b * 4 + v)
  | [], [] => none

/-- A relocation path under search: the moves so far, latest first, and the bucket and width in need. -/
structure Path where
  moves : List Nat
  bucket : Nat
  wide  : Bool

/-- The other candidate bucket of an entry that stands in bucket `b`. -/
def otherBucket (cfg : Word) (e : XEnt) (b : Nat) : Nat :=
  let ab := candidates cfg e.wide e.tid e.key
  if ab.1 = b then ab.2 else ab.1

/-- Where the entry at a place goes when it moves to its other candidate bucket, if a way is free there. -/
def moveTo (cfg : Word) (t : Tab XEnt) (c src : Nat) : Option (Nat × XEnt) :=
  (tfind t src).bind (fun e =>
    let b := otherBucket cfg e ((src - xBase c) / 4)
    (freeWays t c b e.wide).head?.map (fun w => (xBase c + b * 4 + w, e)))

/-- The table after the moves of a path, from its end backward; none where a move finds no free way. -/
def playPath (cfg : Word) (c : Nat) : List Nat → Tab XEnt → Option (Tab XEnt)
  | [], t => some t
  | p :: ps, t => (moveTo cfg t c p).bind (fun d => playPath cfg c ps (tins (tdel t p) d.1 d.2))

/-- Entries of bucket `b` whose leaving makes room for an entry of a width (R144, R147). -/
def leavers (t : Tab XEnt) (c b : Nat) (wide : Bool) : List (Nat × XEnt) :=
  ((bucketPlaces c b).filterMap (fun p => (tfind t p).map (p, ·))).filter (fun pe =>
    !(freeWays (tdel t pe.1) c b wide).isEmpty)

/-- One level of the search for a path: each path grown by each entry that could leave its bucket. -/
def growPaths (cfg : Word) (t : Tab XEnt) (c : Nat) (ps : List Path) : List Path :=
  ps.flatMap (fun p => ((leavers t c p.bucket p.wide).filter (fun pe => !p.moves.contains pe.1)).map
    (fun pe => ⟨pe.1 :: p.moves, otherBucket cfg pe.2 p.bucket, pe.2.wide⟩))

/-- Keeps one path to each bucket and width, and none to those seen before. -/
def prunePaths (seen : List (Nat × Bool)) : List Path → List Path × List (Nat × Bool)
  | [] => ([], seen)
  | p :: ps =>
    if seen.contains (p.bucket, p.wide) then prunePaths seen ps
    else let r := prunePaths (seen ++ [(p.bucket, p.wide)]) ps; (p :: r.1, r.2)

/-- Step 2: the shortest relocation path of at most `n` further moves that ends at a free way and whose moves make room by the
test `fits` (a chain that comes back to the bucket in need may take the way that it frees). With `all`, every path is followed;
else one to each bucket and width. -/
def findPath (cfg : Word) (t : Tab XEnt) (c : Nat) (fits : Tab XEnt → Bool) (all : Bool) :
    Nat → List Path → List (Nat × Bool) → Option (List Nat)
  | 0, _, _ => none
  | n + 1, ps, seen =>
    let g := growPaths cfg t c ps
    match g.find? (fun p => !(freeWays t c p.bucket p.wide).isEmpty && (playPath cfg c p.moves t).elim false fits) with
    | some p => some p.moves
    | none =>
      let r := if all then (g, seen) else prunePaths seen g
      if r.1.isEmpty then none else findPath cfg t c fits all n r.1 r.2

/-- A key as an iterator notes it. -/
def XEnt.name (e : XEnt) : Nat × Bool × List Byte := (e.tid, e.wide, e.key)

/-- The order in which a walk takes places: a bucket with its four ways, then each place of the stash (R159). -/
def walkUnit (p : Nat) : Nat := if p < 2097152 then p / 4 else 524288 + (p - 2097152)

/-- A walk has visited the bucket or stash place of `p` (R159). -/
def Iter.visited (i : Iter) (p : Nat) : Bool := walkUnit p < walkUnit i.pos

/-- The mark of a key in the catch list: true for a skip mark. -/
def Iter.mark (i : Iter) (n : Nat × Bool × List Byte) : Option Bool :=
  i.caught.findSome? (fun x => if (x.1, x.2.1, x.2.2.1) = n then some x.2.2.2 else none)

/-- A walk holds no mark of a key any more: its entry is deleted, or has its mark anew (R159). -/
def Iter.forget (n : Nat × Bool × List Byte) (i : Iter) : Iter :=
  { i with caught := i.caught.filter (fun x => (x.1, x.2.1, x.2.2.1) ≠ n), given := i.given.filter (· ≠ n) }

/-- Notes a move of an entry in the catch lists of the cluster's iterators, so that each entry is returned once (R159, R160).
DEDUCED (log 110): a mark that a later move makes needless leaves its place of the catch list. -/
def Iter.moved (e : XEnt) (src dst : Nat) (i : Iter) : Iter :=
  if !i.inUse || i.tail then i
  else
    let was : Bool := match i.mark e.name with
      | some skip => skip
      | none => i.visited src || i.given.contains e.name
    let j := i.forget e.name
    if was == i.visited dst then j
    else if 1024 ≤ j.caught.length then { j with inUse := false, caught := [], given := [] }
    else { j with caught := j.caught ++ [(e.tid, e.wide, e.key, was)] }

/-- Moves the entry at a place to its other candidate bucket (R147, R149). -/
def State.relocate (s : State) (c src : Nat) : State :=
  match moveTo (s.cfgReg 0x7F080000) s.xt c src with
  | some (dst, e) =>
    let k := s.cluster c
    (s.setXt (tins (tdel s.xt src) dst e)).setCluster c
      { k with iters := k.iters.map (fun i => (i.1, i.2.moved e (src - xBase c) (dst - xBase c))) }
  | none => s

/-- Steps 1 to 3: the place for a new entry, with the state after the relocations that free it. -/
def State.makeRoom (s : State) (c : Nat) (wide : Bool) (tid : Nat) (key : List Byte) : Option (Nat × State) :=
  let ab := s.cand wide tid key
  match directPlace s.xt c ab.1 ab.2 wide with
  | some p => some (p, s)
  | none =>
    let search (all : Bool) : Option (List Nat) :=
      findPath (s.cfgReg 0x7F080000) s.xt c (fun t => (directPlace t c ab.1 ab.2 wide).isSome) all 16
        [⟨[], ab.1, wide⟩, ⟨[], ab.2, wide⟩] [(ab.1, wide), (ab.2, wide)]
    match (search false).orElse (fun _ => search true) with
    | some ms =>
      let s := ms.foldl (fun s p => s.relocate c p) s
      (directPlace s.xt c ab.1 ab.2 wide).map (·, s)
    | none => none

/-- An entry as a write stamps it, with its port's generation (R161). -/
def Cluster.stamp (k : Cluster) (e : XEnt) : XEnt := { e with stamp := tget zn k.gens e.port }

/-- Writes an entry into a cluster by R146 and R147; the flag says that it went into the stash, and none
that there is no room. -/
def State.xPut (s : State) (c : Nat) (e : XEnt) : Option (State × Bool) :=
  let e := (s.cluster c).stamp e
  match s.xFind c e.tid e.wide e.key with
  | some (p, _) => some (s.setXt (tins s.xt p e), false)
  | none =>
    match s.makeRoom c e.wide e.tid e.key with
    | some (p, s) => some (s.setXt (tins s.xt p e), false)
    | none =>
      let used := s.stashPlaces c
      match (List.range 256).find? (fun i => !used.contains (xStash c + i)) with
      | some i =>
        let k := s.cluster c
        let s := (s.setXt (tins s.xt (xStash c + i) e)).setCluster c { k with order := k.order ++ [i] }
        some (if 192 < used.length + 1 then s.postOnce 0x091 c [d16 c] else s, true)
      | none => none

/-- After a delete: the oldest stash entry is tried again by steps 1 to 3 (R147). -/
def State.retryStash (s : State) (c : Nat) : State :=
  let k := s.cluster c
  match k.order with
  | i :: r =>
    match tfind s.xt (xStash c + i) with
    | some e =>
      match s.makeRoom c e.wide e.tid e.key with
      | some (p, s) =>
        let k := s.cluster c
        (s.setXt (tins (tdel s.xt (xStash c + i)) p e)).setCluster c
          { k with order := r, iters := k.iters.map (fun t => (t.1, t.2.moved e (2097152 + i) (p - xBase c))) }
      | none => s
    | none => s.setCluster c { k with order := r }
  | [] => s

/-- Deletes the entry at a place (R147): the walks forget its key (R159). -/
def State.xDel (s : State) (c p : Nat) : State :=
  match tfind s.xt p with
  | none => s
  | some e =>
    let k := s.cluster c
    let order := if xStash c ≤ p then k.order.erase (p - xStash c) else k.order
    ((s.setXt (tdel s.xt p)).setCluster c
      { k with order, iters := k.iters.map (fun i => (i.1, i.2.forget e.name)) }).retryStash c

/-- No room by R147: the first in a cluster in each second logs event 0x092. -/
def State.noRoom (s : State) (c : Nat) : State := s.postOnce 0x092 c [d16 c]

/-- HIT and STRIKE of an entry just written, which no rule states, drawn free (log 2). -/
def State.fresh (s : State) (e : XEnt) : XEnt × State :=
  let d := s.draw
  ({ e with hit := bit d.1 0, strike := bit d.1 1 }, d.2)

/-! ## Learning (R154, R155, R163) -/

/-- Adds to FD_EXACT_CNTn: kind 0 learns, 1 drops, 2 moves, 3 aged (R163). -/
def State.xCount (s : State) (c kind : Nat) : State :=
  let k := s.cluster c
  s.setCluster c { k with counts := tset z k.counts kind (tget z k.counts kind + 1) }

/-- MOVE_EN of a TID (R155). -/
def State.moveEn (s : State) (tid : Nat) : Bool := bit (s.cfgReg (0x7F080200 + 4 * tid)) 15

/-- The entry that a packet's source teaches (R154). -/
def State.learned (s : State) (tid : Nat) (wide : Bool) (key : List Byte) (port chan : Nat) : XEnt :=
  let nhi := (s.rf (0x7F080300 + 4 * tid) 31 12 + port) % 2 ^ 20
  { tid, wide, key, static := false, learned := true, portv := true, port, hit := false, strike := false,
    stamp := 0, result := BitVec.ofNat 64 ((nhi * 2 ^ 20 + (2 ^ 20 - 1 - nhi)) * 2 ^ 24 + chan % 4096) }

/-- Queues a learn, or the rewrite of a move, which is counted here (R154, R155). -/
def State.queueLearn (s : State) (c : Nat) (move : Bool) (e : XEnt) : State :=
  let k := s.cluster c
  if 4096 ≤ k.learns.length then (s.xCount c 1).postOnce 0x099 c [d16 c]
  else
    let s := s.setCluster c { k with learns := k.learns ++ [(move, e)] }
    if move then s.xCount c 2 else s

/-- Both clusters may differ (R150, R163). -/
def State.diverged (s : State) (c : Nat) : State := s.setCluster c { s.cluster c with diverged := true }

/-- A change lost to cluster `c` (R163). -/
def State.crossLost (s : State) (c : Nat) : State := ((s.diverged 0).diverged 1).post 0x093 [d16 c]

/-- Sends a change to the other cluster (R163). -/
def State.crossPost (s : State) (c : Nat) (x : Cross) : State :=
  let o := 1 - c
  let k := s.cluster o
  if 4096 ≤ k.cross.length then s.crossLost o else s.setCluster o { k with cross := k.cross ++ [x] }

/-- What a cross-posted learn does to the entry it finds (R154, R163). -/
inductive Learn
  | write | move | keep
  deriving DecidableEq

/-- The case of R154 for a cross-posted learn of `e` against what cluster `c` holds (R163). -/
def State.learnCase (s : State) (c : Nat) (e : XEnt) : Learn :=
  match s.xFind c e.tid e.wide e.key with
  | none => .write
  | some (_, o) =>
    if (s.cluster c).hides o then .write
    else if o.learned && o.port != e.port && s.moveEn e.tid then .move else .keep

/-- A cross-posted learn that changes nothing else sets HIT of a host's entry and of a learned one of its port (R154, R163). -/
def State.learnHit (s : State) (c : Nat) (e : XEnt) : State :=
  match s.xFind c e.tid e.wide e.key with
  | some (p, o) => if !o.learned || o.port == e.port then s.setXt (tins s.xt p { o with hit := true }) else s
  | none => s

/-- The entry that a learn writes: a move rewrites PORT, NHI and DATA of the one it finds, and nothing else of it (R154). -/
def State.learnEnt (s : State) (c : Nat) (e : XEnt) (move : Bool) : XEnt × State :=
  match move, s.xFind c e.tid e.wide e.key with
  | true, some (_, o) => ({ e with hit := o.hit, strike := o.strike }, s)
  | _, _ => s.fresh e

/-- The engine applies the oldest learn of a cluster: it rewrites in place an entry that has the key by now (R146, R154, R155,
R163). -/
def State.learnApply (s : State) (c : Nat) : State :=
  let k := s.cluster c
  match k.learns with
  | [] => s
  | (mv, e) :: r =>
    let f := (s.setCluster c { k with learns := r }).learnEnt c e mv
    match f.2.xPut c f.1 with
    | some (t, _) => (if mv then t else t.xCount c 0).crossPost c ⟨false, e⟩
    | none => ((s.setCluster c { k with learns := r }).xCount c 1).noRoom c

/-- The oldest change queued toward a cluster is applied there (R163). -/
def State.crossApply (s : State) (c : Nat) : State :=
  let k := s.cluster c
  match k.cross with
  | [] => s
  | x :: r =>
    let s := s.setCluster c { k with cross := r }
    if x.del then
      match s.xFind c x.ent.tid x.ent.wide x.ent.key with
      | some (p, e) => if !e.static && e.learned && !e.hit then s.xDel c p else s
      | none => s
    else
      match s.learnCase c x.ent with
      | .keep => s.learnHit c x.ent
      | w =>
        let f := s.learnEnt c x.ent (w = .move)
        match f.2.xPut c f.1 with
        | some (t, _) => t
        | none => s.crossLost c

/-- LEARN_APPLY (R155). -/
def execLearnApply (c : Fin 2) (s : State) : Out := .next (s.learnApply c)

/-- CROSS_POST_APPLY (R163). -/
def execCrossPostApply (c : Fin 2) (s : State) : Out := .next (s.crossApply c)

/-! ## Lookups -/

/-- The lookup cluster of a logical slice (R142). -/
def clusterOf (slice : Nat) : Nat := slice / 8

/-- FD_EXACT_TMAP of a template (R143). -/
def State.tmap (s : State) (tmpl : Nat) : Word := s.cfgReg (0x7F080100 + 4 * tmpl)

/-- The key bytes that a lookup takes: 16 or 32, padded with zeros (R144). -/
def exactKey (wide : Bool) (key : List Byte) : List Byte := bytesAt key 0 (if wide then 32 else 16)

/-- A way is uncorrectable: an entry with a part in it is absent, event 0x095 is logged, and the way counts as lost (R150). -/
def State.wayLost (s : State) (c a : Nat) : State :=
  let s := match tfind s.xt (xBase c + a) with
    | some _ => s.xDel c (xBase c + a)
    | none => match (if a % 2 = 1 then tfind s.xt (xBase c + a - 1) else none) with
      | some e => if e.wide then s.xDel c (xBase c + a - 1) else s
      | none => s
  let k := s.cluster c
  (s.setCluster c { k with diverged := true, waysLost := k.waysLost + 1 }).post 0x095
    [d16 c, d16 (a / 4 / 32768), d16 (a / 4 % 32768), d16 (a % 4)]

/-- An exact-match lookup with a template (R135, R144, R154): the status word of selector 0x05. -/
def State.exactLookup (s : State) (slice tmpl port chan : Nat) (key : List Byte) (missing bad : Bool) :
    LkRes × State :=
  let m := s.tmap tmpl
  let c := clusterOf slice
  let tid := bits m 13 8
  let wide := bit m 7
  let key := exactKey wide key
  let learn (move : Bool) (s : State) : State := s.queueLearn c move (s.learned tid wide key port chan)
  if missing then (.val 2 0, s)
  else
    let miss (s : State) : LkRes × State := (.val 1 0, if bit m 6 then learn false s else s)
    match s.xFind c tid wide key with
    | none => miss s
    | some (p, e) =>
      if bad && p < xStash c then miss (s.wayLost c (p - xBase c))
      else if (s.cluster c).hides e then miss s
      else if !resultOk e.result then (.lost 10, s.post 0x094 [d16 (1 + c)])
      else
        let other := bit m 6 && e.learned && e.port != port
        let s := if other && s.moveEn tid then learn true s else s
        let s := s.setXt (tins s.xt p { e with hit := true })
        (.val (BitVec.ofNat 64 (b01 e.learned * 256)) e.result, s)

/-! ## Aging (R156, R157) -/

/-- One entry of a pass, by its key, wherever it stands by now. -/
def State.ageEntry (s : State) (c : Nat) (n : Nat × Bool × List Byte) : State :=
  match s.xFind c n.1 n.2.1 n.2.2 with
  | none => s
  | some (p, e) =>
    if e.hit then s.setXt (tins s.xt p { e with hit := false, strike := false })
    else if !e.strike then s.setXt (tins s.xt p { e with strike := true })
    else
      match (s.xFind (1 - c) e.tid e.wide e.key).filter (fun x => !(s.cluster (1 - c)).hides x.2 && (x.2.hit || !x.2.strike)) with
      | some _ => s.setXt (tins s.xt p { e with strike := false })
      | none => ((s.xDel c p).xCount c 3).crossPost c ⟨true, e⟩

/-- The keys of a cluster's entries of a TID that may age (R156). -/
def State.ageKeys (s : State) (c tid : Nat) : List (Nat × Bool × List Byte) :=
  (s.xt.filter (fun x => xBase c ≤ x.1 && x.1 < xBase (c + 1) && x.2.tid == tid && !x.2.static)).map (·.2.name)

/-- The time between two passes of a TID, in ns of DEVTIME: AGE × 500 ms, where 1 acts as 2; none with AGE 0 (R155, R156). -/
def State.agePeriod (s : State) (tid : Nat) : Option Nat :=
  let n := s.rf (0x7F080200 + 4 * tid) 31 16
  if n = 0 then none else some (max n 2 * ms 500)

/-- A pass of a TID is due in a cluster: a DEVTIME multiple of its period has come since the last pass, and since the last write
of AGE (R156, R157). -/
def State.ageDue (s : State) (c tid : Nat) : Bool :=
  match s.agePeriod tid with
  | none => false
  | some p => (tget z (s.cluster c).passed tid).toNat < s.now.toNat / p * p

/-- Aging passes are counted from now (R157). -/
def State.ageFrom (s : State) (c tid : Nat) : State :=
  let k := s.cluster c
  s.setCluster c { k with passed := tset z k.passed tid s.now }

/-- Aging passes of both clusters are counted from now, for the TIDs given. -/
def State.ageAnew (s : State) (tids : List Nat) : State :=
  tids.foldl (fun s tid => (s.ageFrom 0 tid).ageFrom 1 tid) s

/-- AGING_PASS (R150, R156): the sweeper meets uncorrectable ways, and a pass that is due ages the TID's entries. -/
def execAgingPass (c : Fin 2) (tid : Fin 64) (bad : List Nat) (s : State) : Out :=
  if s.domain 5 ≠ 0 then .next s
  else
    let s := bad.foldl (fun s a => if a < 2097152 then s.wayLost c a else s) s
    .next (if s.ageDue c tid then (s.ageKeys c tid).foldl (fun s n => s.ageEntry c n) (s.ageFrom c tid) else s)

/-! ## Host records (R151 to R153) -/

/-- The words of one TBL record by its header (R151): every field of a TBL_DELETE or TBL_SEARCH record but TID
and WIDE is zero. -/
def tblLen (ins : Bool) (h : Word) : Option Nat :=
  if bits h 15 0 ≠ 0 || (!ins && bits h 24 16 ≠ 0) then none
  else some (1 + (if bit h 25 then 8 else 4) + 2 * b01 ins)

/-- The key bytes of a TBL record. -/
def recKey (r : List Word) (wide : Bool) : List Byte :=
  ((r.drop 1).take (if wide then 8 else 4)).flatMap (fun w => beBytes 4 w.toNat)

/-- The clusters that a CLUSTER field selects (R151). -/
def clustersOf (n : Nat) : List Nat := (if n % 2 = 1 then [0] else []) ++ (if 2 ≤ n then [1] else [])

/-- Writes an entry into every selected cluster that has room; the flag says that it went into a stash (R151). -/
def State.xPutAll (s : State) (e : XEnt) (cl : List Nat) : State × Bool :=
  cl.foldl (fun x c => match x.1.xPut c e with | some (t, b) => (t, x.2 || b) | none => x) (s, false)

/-- One TBL_INSERT record (R135, R146, R147, R151). -/
def insertRecord (cl : List Nat) (r : List Word) (s : State) : Except (Byte × State) (State × Nat) :=
  let h := par r 0
  let wide := bit h 25
  let n := if wide then 9 else 5
  let res : Word64 := par r n ++ par r (n + 1)
  let e : XEnt := {
    tid := bits h 31 26, wide, key := recKey r wide, static := bit h 24, learned := false,
    portv := bit h 23, port := bits h 22 16, hit := false, strike := false, stamp := 0, result := res }
  if !resultOk res then .error (codeMismatch, s)
  else
    let f := s.fresh e
    let full := cl.filter (fun c => (f.2.xPut c f.1).isNone)
    if full.isEmpty then let x := f.2.xPutAll f.1 cl; .ok (x.1, b01 x.2)
    else .error (codeFull, full.foldl (fun s c => s.noRoom c) s)

/-- One TBL_DELETE record (R151). -/
def deleteRecord (cl : List Nat) (r : List Word) (s : State) : Except (Byte × State) (State × Nat) :=
  let h := par r 0
  let wide := bit h 25
  let key := recKey r wide
  let found := cl.any (fun c => (s.xFind c (bits h 31 26) wide key).elim false (fun x => !(s.cluster c).hides x.2))
  .ok (cl.foldl (fun s c => match s.xFind c (bits h 31 26) wide key with
    | some (p, _) => s.xDel c p | none => s) s, b01 (!found))

/-- The records of TBL_INSERT or TBL_DELETE, none where the layout fails. -/
def tblRecords (ins : Bool) (p : List Word) : Option (List (List Word)) :=
  let n := pf p 0 29 24
  if p.isEmpty || n = 0 || 32 < n || pf p 0 23 0 ≠ 0 then none else cutRecords (tblLen ins) n (p.drop 1)

/-- TBL_INSERT (R151). -/
def execTblInsert (h : Hdr) (p : List Word) (s : State) : Out :=
  let rs := tblRecords true p
  let cl := clustersOf (pf p 0 31 30)
  .next (runCommand 0x200 h p (!fdWide h || rs.isNone || cl.isEmpty) (h.priv == 2) s.slipOrQuiet []
    (runBatch (insertRecord cl) (rs.getD [])) s)

/-- TBL_DELETE (R151). -/
def execTblDelete (h : Hdr) (p : List Word) (s : State) : Out :=
  let rs := tblRecords false p
  let cl := clustersOf (pf p 0 31 30)
  .next (runCommand 0x201 h p (!fdWide h || rs.isNone || cl.isEmpty) (h.priv == 2) s.slipOrQuiet []
    (runBatch (deleteRecord cl) (rs.getD [])) s)

/-- The four result words of TBL_SEARCH (R153). -/
def searchWords (c : Nat) : Option (Nat × XEnt) → List Word
  | none => [0, 0, 0, 0]
  | some (p, e) =>
    let a := (p - xBase c) / 4
    [mkWord [(1, 1), (1, b01 e.learned), (1, b01 e.static), (1, b01 e.portv), (7, e.port), (1, b01 e.hit),
      (1, b01 e.strike), (19, 0)],
     if xStash c ≤ p then mkWord [(21, 0), (1, 1), (2, 0), (8, p - xStash c)]
     else mkWord [(4, a / 32768), (15, a % 32768), (2, (p - xBase c) % 4), (11, 0)],
     e.result.extractLsb' 32 32, e.result.extractLsb' 0 32]

/-- TBL_SEARCH (R153). -/
def execTblSearch (h : Hdr) (p : List Word) (s : State) : Out :=
  let rs := if p.isEmpty || pf p 0 29 0 ≠ 0 then none else cutRecords (tblLen false) 1 (p.drop 1)
  let cl := clustersOf (pf p 0 31 30)
  .next (runCommand 0x202 h p (!fdWide h || rs.isNone || cl.length != 1) false s.slipOrQuiet []
    (fun s =>
      let c := cl.headD 0
      let r := (rs.getD []).headD []
      let wide := bit (par r 0) 25
      let x := (s.xFind c (pf r 0 31 26) wide (recKey r wide)).filter (fun x => !(s.cluster c).hides x.2)
      (s, codeOk, searchWords c x)) s)

/-! ## Iterators (R158 to R160) -/

/-- A record of TBL_NEXT (R158). -/
def nextRecord (e : XEnt) : List Word :=
  [mkWord [(6, e.tid), (1, b01 e.wide), (1, b01 e.static), (1, b01 e.portv), (7, e.port), (1, b01 e.learned),
    (1, b01 e.hit), (14, 0)]] ++ (List.range (if e.wide then 8 else 4)).map (fun i =>
      BitVec.ofNat 32 (beNat (bytesAt e.key (4 * i) 4))) ++ [e.result.extractLsb' 32 32, e.result.extractLsb' 0 32]

/-- Whether an entry meets an iterator's filters. -/
def Iter.wants (i : Iter) (e : XEnt) : Bool := (i.allTid || i.tid == e.tid) && (!i.learnedOnly || e.learned)

/-- The entries still to return out of the buckets and the stash, with their places in the cluster (R159). -/
def State.unvisited (s : State) (c : Nat) (i : Iter) : List (Nat × XEnt) :=
  let k := s.cluster c
  ((s.xt.filter (fun x => xBase c ≤ x.1 && x.1 < xBase (c + 1))).map (fun x => (x.1 - xBase c, x.2))).filter
    (fun x => !i.visited x.1 && i.wants x.2 && !k.hides x.2 && !i.given.contains x.2.name && i.mark x.2.name != some true)

/-- Takes at most `n` entries from the catch list, looking each key up again (R159). -/
def State.takeCaught (s : State) (c : Nat) (i : Iter) :
    Nat → List (Nat × Bool × List Byte × Bool) → List XEnt × List (Nat × Bool × List Byte × Bool)
  | _, [] => ([], [])
  | n, x :: xs =>
    match (if x.2.2.2 then none else s.xFind c x.1 x.2.1 x.2.2.1) with
    | some (_, e) =>
      if i.wants e && !(s.cluster c).hides e then
        match n with
        | 0 => ([], x :: xs)
        | n + 1 => let r := s.takeCaught c i n xs; (e :: r.1, r.2)
      else s.takeCaught c i n xs
    | none => s.takeCaught c i n xs

/-- One TBL_NEXT of an iterator in use: its records, whether the walk is done, and the iterator after it. -/
def State.iterNext (s : State) (c n : Nat) (i : Iter) : List XEnt × Bool × Iter :=
  let u := if i.tail then [] else s.unvisited c i
  if n < u.length then
    let next := (u.getD n default).1
    let back := (u.take n).filter (fun x => walkUnit x.1 = walkUnit next)
    let old := if walkUnit i.pos = walkUnit next then i.given else []
    ((u.take n).map (·.2), false, { i with pos := next, given := old ++ back.map (·.2.name) })
  else
    let t := s.takeCaught c i (n - u.length) i.caught
    (u.map (·.2) ++ t.1, t.2.isEmpty, { i with tail := true, caught := t.2 })

/-- TBL_NEXT (R158 to R160). -/
def execTblNext (h : Hdr) (p : List Word) (s : State) : Out :=
  let cl := clustersOf (pf p 0 31 30)
  let n := pf p 0 15 8
  let c := cl.headD 0
  let hd := pf p 0 29 28
  let fin := bit (par p 0) 26
  .next (runCommand 0x203 h p
    (!fdWide h || p.length != 1 || cl.length != 1 || 32 < n || (n == 0 && !fin) || pf p 0 17 16 != 0 || pf p 0 7 0 != 0)
    false s.slipOrQuiet []
    (fun s =>
      let k := s.cluster c
      let i0 := tget dflt k.iters hd
      let i : Iter := if bit (par p 0) 27 then
          { inUse := true, allTid := bit (par p 0) 25, learnedOnly := bit (par p 0) 24, tid := pf p 0 23 18, pos := 0,
            caught := [], given := [], tail := false, last := s.mono }
        else i0
      if !i.inUse then (s, codeRestart, [])
      else
        let r := s.iterNext c n i
        let j : Iter := if fin then default else { r.2.2 with last := s.mono }
        (s.setCluster c { k with iters := tset dflt k.iters hd j }, codeOk,
          mkWord [(1, b01 r.2.1), (7, 0), (8, r.1.length), (16, 0)] :: r.1.flatMap nextRecord)) s)

/-- TBL_ITERATOR_TIMEOUT (R160): 1 s without a TBL_NEXT releases the iterator. -/
def execTblIteratorTimeout (c : Fin 2) (h : Fin 4) (s : State) : Out :=
  let k := s.cluster c
  let i := tget dflt k.iters h.val
  if i.inUse && i.last + 1000000000 ≤ s.mono then
    .next (s.setCluster c { k with iters := tset dflt k.iters h.val default })
  else .next s

/-! ## Flushes (R161, R162) -/

/-- TBL_FLUSH_PORT (R161, R162). -/
def execTblFlushPort (h : Hdr) (p : List Word) (s : State) : Out :=
  let cl := clustersOf (pf p 0 31 30)
  let port := pf p 0 29 23
  .next (runCommand 0x204 h p
    (!fdWide h || p.length != 1 || cl.isEmpty || pf p 0 14 0 != 0) (h.priv == 2) s.slipOrQuiet
    [(cl.any (fun c => 8 ≤ (s.cluster c).flushes.length || (s.cluster c).flushes.any (·.port == port)), codeBusy)]
    (fun s => (cl.foldl (fun s c =>
        let k := s.cluster c
        s.setCluster c { k with
          gens := tset zn k.gens port ((tget zn k.gens port + 1) % 4)
          flushes := k.flushes ++ [⟨port, bit (par p 0) 22, pf p 0 21 16, bit (par p 0) 15, s.mono, pf p 0 31 30⟩] }) s,
      codeDeferred, [])) s)

/-- The sweeper ends the flushes of a port in one cluster: hidden entries are deleted, the port's others take
the present generation (R161). -/
def State.flushEnd (s : State) (c port : Nat) : State :=
  let k := s.cluster c
  let mine := s.xt.filter (fun x => xBase c ≤ x.1 && x.1 < xBase (c + 1) && x.2.portv && x.2.port == port)
  let gone := mine.filter (fun x => k.hides x.2)
  let s := (mine.filter (fun x => !k.hides x.2)).foldl (fun s x => s.setXt (tins s.xt x.1 (k.stamp x.2))) s
  let s := gone.foldl (fun s x => match s.xFind c x.2.tid x.2.wide x.2.key with
    | some (p, _) => s.xDel c p | none => s) s
  let k := s.cluster c
  s.setCluster c { k with flushes := k.flushes.filter (·.port != port) }

/-- The clusters of the flush command on a port that ends first: the one accepted first (R161). DEDUCED (log 110). -/
def State.flushOf (s : State) (port : Nat) : Option Nat :=
  match (s.cluster 0).flushes.find? (·.port == port), (s.cluster 1).flushes.find? (·.port == port) with
  | some a, some b => some (if a.since ≤ b.since then a.clusters else b.clusters)
  | some a, none => some a.clusters
  | none, some b => some b.clusters
  | none, none => none

/-- FLUSH_COMPLETE (R161): every cluster of a flush command is done. -/
def execFlushComplete (port : Fin 128) (s : State) : Out :=
  match s.flushOf port with
  | some m => .next (((clustersOf m).foldl (fun s c => s.flushEnd c port) s).post 0x097 [d16 port.val])
  | none => .next s

/-! ## Syncs (R164) -/

/-- Applies every queued learn, then every queued cross-post (R164). -/
def State.barrier (s : State) : State :=
  let s := [0, 1].foldl (fun s c => (s.cluster c).learns.foldl (fun s _ => s.learnApply c) s) s
  [0, 1].foldl (fun s c => (s.cluster c).cross.foldl (fun s _ => s.crossApply c) s) s

/-- The entries of a cluster that a sync takes, without the hidden ones. -/
def State.syncEnts (s : State) (c : Nat) (r : SyncRun) : List XEnt :=
  ((s.xt.filter (fun x => xBase c ≤ x.1 && x.1 < xBase (c + 1) && (r.allTid || r.tid == x.2.tid))).map (·.2)).filter
    (fun e => !(s.cluster c).hides e)

/-- Whether two copies of a key hold the same content. -/
def XEnt.same (a b : XEnt) : Bool :=
  a.result == b.result && a.static == b.static && a.learned == b.learned && a.portv == b.portv && a.port == b.port

/-- Copies the entries `es` into cluster `c`, those present with other content too when `write`; counts the entries
written and those without room. -/
def State.syncInto (s : State) (c : Nat) (write : Bool) : List XEnt → Nat → Nat → State × Nat × Nat
  | [], n, m => (s, n, m)
  | e :: es, n, m =>
    match (s.xFind c e.tid e.wide e.key).filter (fun x => !(s.cluster c).hides x.2) with
    | some (_, o) =>
      if write && !o.same e then
        match s.xPut c e with
        | some (t, _) => t.syncInto c write es (n + 1) m
        | none => s.syncInto c write es n (m + 1)
      else s.syncInto c write es n m
    | none =>
      match s.xPut c e with
      | some (t, _) => t.syncInto c write es (n + 1) m
      | none => (s.noRoom c).syncInto c write es n (m + 1)

/-- Deletes from cluster `c` what cluster `o` does not hold; counts the entries deleted. -/
def State.syncPrune (s : State) (c o : Nat) : List XEnt → Nat → State × Nat
  | [], n => (s, n)
  | e :: es, n =>
    match (s.xFind o e.tid e.wide e.key).filter (fun x => !(s.cluster o).hides x.2) with
    | some _ => s.syncPrune c o es n
    | none =>
      match s.xFind c e.tid e.wide e.key with
      | some (p, _) => (s.xDel c p).syncPrune c o es (n + 1)
      | none => s.syncPrune c o es n

/-- The writes of a sync, with the entries written or deleted and those without room (R164). -/
def State.syncRun (s : State) (r : SyncRun) : State × Nat × Nat :=
  if r.mode = 1 then
    let a := s.syncInto 1 true (s.syncEnts 0 r) 0 0
    a.1.syncInto 0 false (a.1.syncEnts 1 r) a.2.1 a.2.2
  else
    let o := if r.mode = 2 then 0 else 1
    let d := s.syncPrune (1 - o) o (s.syncEnts (1 - o) r) 0
    d.1.syncInto (1 - o) true (d.1.syncEnts o r) d.2 0

/-- A sync of mode 2 or 3 releases the iterators of the cluster that it writes (R160). -/
def State.syncFrees (s : State) (mode : Nat) : State :=
  let c := if mode = 2 then 1 else 0
  if mode < 2 then s else s.setCluster c { s.cluster c with iters := [] }

/-- TBL_SYNC (R164). -/
def execTblSync (h : Hdr) (p : List Word) (s : State) : Out :=
  let mode := pf p 0 31 30
  .next (runCommand 0x205 h p (!fdWide h || p.length != 1 || pf p 0 22 0 != 0) (h.priv == 2) s.slipOrQuiet
    [(s.fd.look.sync.isSome, codeBusy)]
    (fun s =>
      let s := s.barrier
      if mode = 0 then (s, codeOk, [])
      else
        let s := s.syncFrees mode
        (s.setLook { s.fd.look with sync := some ⟨mode, bit (par p 0) 29, pf p 0 28 23⟩ }, codeDeferred, [])) s)

/-- TBL_SYNC_COMPLETE (R164). -/
def execTblSyncComplete (s : State) : Out :=
  match s.fd.look.sync with
  | none => .next s
  | some r =>
    let x := s.syncRun r
    let s := (x.1.setLook { x.1.fd.look with sync := none }).syncFrees r.mode
    let s := if r.allTid && x.2.2 = 0 then
        (s.setCluster 0 { s.cluster 0 with diverged := false }).setCluster 1 { s.cluster 1 with diverged := false }
      else s
    .next (s.post 0x098 [d32 x.2.1, d32 x.2.2])

/-- A write to FD_EXACT_HASHCFG empties the tables (R13, R145). -/
def State.hashCfgWrite (s : State) (v : Word) : State :=
  let s := (s.setCfgReg 0x7F080000 v).setXt []
  [0, 1].foldl (fun s c => s.setCluster c { s.cluster c with order := [], flushes := [], iters := [] }) s

end Sys2Proof.Machine
end

