-- ==== Sys2Proof/Machine/SpareOps.lean ====
section
/-! DEFINITION. Spares and the life log as every substitution uses them (R371, R374, R376). -/

namespace Sys2Proof.Machine

/-- Spares provided by KIND (R371). -/
def provided (kind : Nat) : Nat :=
  [0, 1, 34, 4, 1, 16128, 4096, 4, 192, 7, 4096, 8, 40].getD kind 0

/-- Spares used by KIND. -/
def State.spareUsed (s : State) (kind : Nat) : Nat := tget zn s.spares.used kind

/-- Spares left by KIND. -/
def State.spareLeft (s : State) (kind : Nat) : Nat := provided kind - s.spareUsed kind

/-- A kind is ahead of budget when used ÷ provided exceeds POH ÷ 219,150 + 0.25 (R376). -/
def aheadOf (kind used poh : Nat) : Bool := provided kind * (4 * poh + 219150) < used * 219150 * 4

/-- The location of a life log record: the words P1 and P2 of SPARE_APPLY (R372, R374). -/
def lifeLoc (die slice unit row : Nat) : Nat := ((die * 64 + slice) * 2 ^ 24 + unit) * 2 ^ 32 + row

/-- NEW of a record without a new unit (R374). -/
def noUnit : Nat := 2 ^ 64 - 1

/-- Adds a record to the life log (R374): it reaches both copies by its own step. -/
def State.recordLife (s : State) (kind cause loc old new left : Nat) : State :=
  if 1048576 ≤ s.spares.log.length + s.spares.unwritten.length then s.post 0x1D7 []
  else { s with spares := { s.spares with
    unwritten := s.spares.unwritten ++ [⟨s.now, s.spares.poh, kind, cause, loc, old, new, left⟩] } }

/-- Takes one spare of a kind into use, with the events of the budget (R376). -/
def State.takeSpare (s : State) (kind : Nat) : State :=
  let u := s.spareUsed kind
  let t := { s with spares := { s.spares with used := tset zn s.spares.used kind (u + 1) } }
  let t := if !aheadOf kind u s.spares.poh && aheadOf kind (u + 1) s.spares.poh then t.post 0x1D3 [d16 kind] else t
  if u + 1 = provided kind then t.post 0x1D4 [d16 kind] else t

/-- A substitution: the spare is used and the life log records it (R374, R376). -/
def State.substitute (s : State) (kind cause loc old new : Nat) : State :=
  let t := s.takeSpare kind
  t.recordLife kind cause loc old new (t.spareLeft kind)

end Sys2Proof.Machine
end

