-- ==== Sys2Proof/Machine/Asc.lean ====
section
/-! DEFINITION. Associative banks: searches, entries and their order, block moves, commands, scrubbing and spare
banks (R167 to R194). -/

namespace Sys2Proof.Machine

/-- Puts the associative banks' running state. -/
def State.setAsc (s : State) (a : Asc) : State := s.setLook { s.fd.look with asc := a }
/-- The associative banks' running state. -/
def State.asc (s : State) : Asc := s.fd.look.asc
/-- A chain's configuration. -/
def State.chain (s : State) (c : Nat) : ChainCfg := tget dflt s.cfg.fd.chains c
/-- W of a chain: 1, 2 or 4 (R168). -/
def ChainCfg.w (c : ChainCfg) : Nat := 2 ^ c.width
/-- Rows of a chain: 4,096 × D. -/
def ChainCfg.rows (c : ChainCfg) : Nat := 4096 * (c.depthM1 + 1)
/-- The entries of all chains. -/
def State.ae (s : State) : Tab AEnt := s.cfg.fd.asc
/-- Puts the entries of all chains. -/
def State.setAe (s : State) (t : Tab AEnt) : State := s.setFdCfg { s.cfg.fd with asc := t }
/-- The valid rows of a chain: address and entry, ascending. -/
def State.chainRows (s : State) (c : Nat) : List (Nat × AEnt) :=
  (s.ae.filter (fun x => x.1 / 65536 == c)).map (fun x => (x.1 % 65536, x.2))

/-- The address of a chain that a block move has copied and not yet overwritten (R180, R181). -/
def State.stale (s : State) (c : Nat) : Option Nat :=
  match s.asc.run with
  | some r => if r.move.chain = c then some r.move.dst else none
  | none => none

/-- The entries of a chain, each once: the copy that a running move leaves behind is not one (R181). -/
def State.chainEnts (s : State) (c : Nat) : List (Nat × AEnt) :=
  (s.chainRows c).filter (fun x => some x.1 != s.stale c)

/-- The entry that a handle names, with the address the handle map holds (R172, R181). -/
def State.byHandle (s : State) (c h : Nat) : Option (Nat × AEnt) := (s.chainEnts c).find? (·.2.handle == h)

/-- Whether a row of a chain is retired: a row of one of its banks is (R194). -/
def State.rowRetired (s : State) (c a : Nat) : Bool :=
  let k := s.chain c
  (List.range k.w).any (fun j => s.asc.retired.contains (k.first + k.w * (a / 4096) + j, a % 4096))

/-! ## Searches (R173 to R177) -/

/-- The 640-bit key of a list of bytes, padded with zeros, its first byte most significant (R168, R173). -/
def ascKey (key : List Byte) : BitVec 640 := BitVec.ofNat 640 (beNat (bytesAt key 0 80))

/-- Whether an entry matches a key (R170). -/
def AEnt.fits (e : AEnt) (k : BitVec 640) : Bool := k &&& e.mask == e.value

/-- The depth positions of a chain that a bank mask of 64 bits activates (R177). -/
def State.positions (s : State) (c mask : Nat) : List Nat :=
  let k := s.chain c
  (List.range (k.depthM1 + 1)).filter (fun d =>
    (s.chainRows c).any (fun x => x.1 / 4096 == d)
      && (List.range k.w).all (fun j => mask / 2 ^ (k.first + k.w * d + j) % 2 == 1))

/-- The winner within one chain (R174). -/
def State.chainWin (s : State) (c mask : Nat) (key : BitVec 640) : Option (Nat × AEnt) :=
  let ps := s.positions c mask
  (s.chainRows c).find? (fun x => ps.contains (x.1 / 4096) && x.2.fits key)

/-- The enabled chains of a set of 16 bits. -/
def State.chainsIn (s : State) (set : Nat) : List Nat :=
  (List.range 16).filter (fun c => set / 2 ^ c % 2 == 1 && (s.chain c).en)

/-- The winner across chains: the lowest PRI, then the lowest chain (R174). -/
def bestOf : List (Nat × Nat × AEnt) → Option (Nat × Nat × AEnt)
  | [] => none
  | x :: xs =>
    match bestOf xs with
    | some y => if y.2.2.pri < x.2.2.pri then some y else some x
    | none => some x

/-- A search of a set of chains under a bank mask (R173, R174). -/
def State.ascSearch (s : State) (set mask : Nat) (key : BitVec 640) : Option (Nat × Nat × AEnt) :=
  bestOf ((s.chainsIn set).filterMap (fun c => (s.chainWin c mask key).map (c, ·)))

/-- Bank activations of a search (R177, R179). -/
def State.activations (s : State) (set mask : Nat) : Nat :=
  ((s.chainsIn set).map (fun c => (s.positions c mask).length * (s.chain c).w)).sum

/-- Counts bank activations (R179). -/
def State.activate (s : State) (set mask : Nat) : State :=
  s.setAsc { s.asc with actNow := s.asc.actNow + s.activations set mask }

/-- The set of chains and the bank mask of a template under a rule bank (R176, R177). -/
def RuleBank.ascMaps (b : RuleBank) (tmpl : Nat) : Nat × Nat :=
  (bits (b.reg (0x7F090100 + 4 * tmpl)) 31 16,
   (b.reg (0x7F090300 + 4 * tmpl)).toNat * 2 ^ 32 + (b.reg (0x7F090200 + 4 * tmpl)).toNat)

/-- A search with a template (R173, R191): the status word of selector 0x07. -/
def State.ascLookup (s : State) (b : RuleBank) (tmpl : Nat) (key : List Byte) (missing bad : Bool) : LkRes × State :=
  let m := b.ascMaps tmpl
  if (s.chainsIn m.1).isEmpty then (.val (BitVec.ofNat 64 (2 + 4 * b01 missing)) 0, s)
  else
    let r := s.ascSearch m.1 m.2 (ascKey key)
    let s := s.activate m.1 m.2
    match r with
    | some (c, a, e) =>
      let k := s.chain c
      if bad then (.lost 12, s.post 0x0A4 [d16 (k.first + k.w * (a / 4096)), d16 (a % 4096)])
      else if !resultOk e.result then (.lost 10, s.post 0x0A5 [d16 c, d16 e.handle])
      else (.val (BitVec.ofNat 64 (e.handle * 65536 + c * 16 + 4 * b01 missing)) e.result, s)
    | none => (.val (BitVec.ofNat 64 (1 + 4 * b01 missing)) 0, s)

/-! ## Insertion (R180 to R183) -/

/-- Puts an entry at an address of a chain. -/
def State.putRow (s : State) (c a : Nat) (e : AEnt) : State := s.setAe (tins s.ae (c * 65536 + a) e)

/-- Invalidates an address of a chain. -/
def State.dropRow (s : State) (c a : Nat) : State := s.setAe (tdel s.ae (c * 65536 + a))

/-- The insertion point: just after the last entry whose PRI is `pri` or lower (R180). -/
def insertPoint (rows : List (Nat × AEnt)) (pri : Nat) : Nat :=
  (rows.filter (fun x => x.2.pri ≤ pri)).foldl (fun m x => max m (x.1 + 1)) 0

/-- Whether an address of a chain is a hole: neither an entry nor a retired row (R171, R194). -/
def State.isHole (s : State) (c a : Nat) : Bool := (tfind s.ae (c * 65536 + a)).isNone && !s.rowRetired c a

/-- The hole nearest to `p`, at or below it in the chain; on a tie the one at the higher address (R180). -/
def State.nearHole (s : State) (c p : Nat) : Option Nat :=
  let n := (s.chain c).rows
  let dn := ((List.range (n - p)).map (· + p)).find? (s.isHole c)
  let up := ((List.range (min p n)).reverse).find? (s.isHole c)
  match dn, up with
  | some h, some g => if h - p ≤ p - g then some h else some g
  | some h, none => some h
  | none, g => g

/-- The block move for an entry, none for a full chain (R180). -/
def State.plan (s : State) (c : Nat) (e : AEnt) : Option BlockMove :=
  let rows := s.chainRows c
  let p := insertPoint rows e.pri
  (s.nearHole c p).map (fun h =>
    if p ≤ h then ⟨c, e, ((rows.map (·.1)).filter (fun a => p ≤ a && a < h)).reverse, h⟩
    else ⟨c, e, (rows.map (·.1)).filter (fun a => h < a && a < p), h⟩)

/-- The final write of an insertion: the new entry at its place, and the old entry of its handle invalidated (R183). -/
def State.finalWrite (s : State) (m : BlockMove) : State :=
  let s := s.putRow m.chain m.dst m.ent
  match (s.chainRows m.chain).find? (fun x => x.2.handle == m.ent.handle && x.1 != m.dst) with
  | some (a, _) => s.dropRow m.chain a
  | none => s

/-- VALUE or MASK from 5 × W words, at the most significant end. -/
def ascWords (ws : List Word) : BitVec 640 :=
  BitVec.ofNat 640 (beNat (ws.flatMap (fun w => beBytes 4 w.toNat)) * 2 ^ (640 - 32 * ws.length))

/-- The entry of an ASC_INSERT record (R170, R185). -/
def ascEntry (w : Nat) (r : List Word) : AEnt :=
  let mask := ascWords ((r.drop (2 + 5 * w)).take (5 * w))
  { pri := pf r 1 31 16, handle := pf r 0 15 0, value := ascWords ((r.drop 2).take (5 * w)) &&& mask, mask
    result := par r (2 + 10 * w) ++ par r (3 + 10 * w) }

/-- One ASC_INSERT record: a failing code, the state after a record that needs no step, or the move it needs;
with 1 when the handle was already there (R180, R183, R186). -/
def State.insertOne (s : State) (r : List Word) : Except (Byte × State) (State × Option BlockMove × Nat) :=
  let c := pf r 0 31 28
  let k := s.chain c
  let e := ascEntry k.w r
  if !k.en then .error (codeBadParam, s)
  else if !resultOk e.result then .error (codeMismatch, s)
  else
    let old := s.byHandle c e.handle
    match old with
    | some (a, o) =>
      if o.pri = e.pri then .ok (s.putRow c a e, none, 1)
      else
        match s.plan c e with
        | some m => if m.path.isEmpty then .ok (s.finalWrite m, none, 1) else .ok (s, some m, 1)
        | none => .error (codeFull, s.postOnce 0x0A6 0 [d16 c])
    | none =>
      match s.plan c e with
      | some m => if m.path.isEmpty then .ok (s.finalWrite m, none, 0) else .ok (s, some m, 0)
      | none => .error (codeFull, s.postOnce 0x0A6 0 [d16 c])

/-- Ends an ASC_INSERT: its reply names each placed entry's address as it then stands (R185). -/
def State.insertEnd (s : State) (cmd : Started) (applied aux : Nat) (fail : Byte) (placed : List (Nat × Nat)) : State :=
  let s := s.setAsc { s.asc with run := none }
  s.finishDone cmd.op cmd.hdr cmd.par (batchCode (pf cmd.par 0 31 24) applied fail)
    (batchWord applied fail aux :: placed.map (fun x =>
      BitVec.ofNat 32 ((s.byHandle x.1 x.2).elim 0 (·.1))))

/-- Places the records of an ASC_INSERT until one needs block-move steps (R180, R185). -/
def State.insertGo (s : State) (cmd : Started) : List (List Word) → Nat → Nat → List (Nat × Nat) → State
  | [], a, x, pl => s.insertEnd cmd a x 0 pl
  | r :: rs, a, x, pl =>
    match s.insertOne r with
    | .error (code, t) => t.insertEnd cmd a x code pl
    | .ok (t, none, k) => t.insertGo cmd rs (a + 1) (x + k) (pl ++ [(pf r 0 31 28, pf r 0 15 0)])
    | .ok (t, some m, k) =>
      t.setAsc { t.asc with run := some ⟨cmd, rs, a + 1, x + k, pl ++ [(pf r 0 31 28, pf r 0 15 0)], m⟩ }

/-! ## Commands (R185 to R188) -/

/-- Cuts the records of an ASC_INSERT by their chains' widths; a record of a chain that is not enabled has no
width, and takes the words that are left (R579, log 20). -/
def State.cutInsert (s : State) : Nat → List Word → Option (List (List Word))
  | 0, ws => if ws.isEmpty then some [] else none
  | n + 1, ws =>
    let k := s.chain (pf ws 0 31 28)
    let len := 4 + 10 * k.w
    if ws.isEmpty || pf ws 0 27 16 ≠ 0 then none
    else if !k.en then some [ws]
    else if ws.length < len || pf ws 1 15 0 ≠ 0 then none
    else (s.cutInsert n (ws.drop len)).map (ws.take len :: ·)

/-- The words of an ASC_WRITE or ASC_DELETE record. -/
def ascLen (n : Nat) (h : Word) : Option Nat := if bits h 27 16 ≠ 0 then none else some n

/-- One ASC_WRITE record (R185, R186). -/
def ascWriteRec (r : List Word) (s : State) : Except (Byte × State) (State × Nat) :=
  let c := pf r 0 31 28
  let res : Word64 := par r 1 ++ par r 2
  if !(s.chain c).en then .error (codeBadParam, s)
  else if !resultOk res then .error (codeMismatch, s)
  else
    match s.byHandle c (pf r 0 15 0) with
    | some (a, e) => .ok (s.putRow c a { e with result := res }, 0)
    | none => .ok (s, 1)

/-- One ASC_DELETE record (R184, R186). -/
def ascDeleteRec (r : List Word) (s : State) : Except (Byte × State) (State × Nat) :=
  let c := pf r 0 31 28
  if !(s.chain c).en then .error (codeBadParam, s)
  else
    match s.byHandle c (pf r 0 15 0) with
    | some (a, _) => .ok (s.dropRow c a, 0)
    | none => .ok (s, 1)

/-- Words of a key at the most significant end of 640 bits. -/
def keyWords (v : BitVec 640) : List Word :=
  (List.range 20).map (fun i => v.extractLsb' (608 - 32 * i) 32)

/-- ASC_SEARCH's four result words (R187). -/
def ascSearchWords (noChain : Bool) : Option (Nat × Nat × AEnt) → List Word
  | some (c, a, e) => [mkWord [(1, 1), (11, 0), (4, c), (16, a)], mkWord [(16, e.pri), (16, e.handle)],
      e.result.extractLsb' 32 32, e.result.extractLsb' 0 32]
  | none => [mkWord [(1, 0), (1, b01 noChain), (30, 0)], 0, 0, 0]

/-- ASC_READ's 44 result words (R188). -/
def ascReadWords (c : Nat) : Option (Nat × AEnt) → List Word
  | some (a, e) => [mkWord [(1, 1), (11, 0), (4, c), (16, a)], mkWord [(16, e.pri), (16, e.handle)]]
      ++ keyWords e.value ++ keyWords e.mask ++ [e.result.extractLsb' 32 32, e.result.extractLsb' 0 32]
  | none => List.replicate 44 0

/-- The banks of a chain, as a range. -/
def ChainCfg.overlaps (a b : ChainCfg) : Bool :=
  a.first < b.first + b.w * (b.depthM1 + 1) && b.first < a.first + a.w * (a.depthM1 + 1)

/-- ASC_CHAIN_CFG (R169). -/
def State.ascChainCfg (s : State) (h : Hdr) (p : List Word) : State :=
  let c := pf p 0 31 28
  let k : ChainCfg := ⟨bit (par p 0) 27, pf p 0 26 25, pf p 0 24 21, pf p 0 20 15⟩
  let bad := !fdWide h || p.length != 1 || pf p 0 14 0 != 0 || k.width == 3 || k.first % k.w != 0
    || 64 < k.first + k.w * (k.depthM1 + 1)
    || (List.range 16).any (fun d => d != c && (s.chain d).en && k.overlaps (s.chain d))
  runSimple 0x305 h p bad (h.priv == 2) s.slipOrQuiet [(!modeOpensStatic s.pwr.mode, codeRunning)]
    (fun s => s.setFdCfg { s.cfg.fd with
      chains := tset dflt s.cfg.fd.chains c k, asc := s.cfg.fd.asc.filter (fun x => x.1 / 65536 != c) }) s

/-- An ASC command at its turn (R185 to R188). -/
def State.ascExec (s : State) (cmd : Started) : State :=
  let h := cmd.hdr
  let p := cmd.par
  let n := pf p 0 31 24
  let batch (top : Nat) : Bool := !fdWide h || p.isEmpty || n == 0 || top < n || pf p 0 23 0 != 0
  match cmd.op with
  | 0x300 =>
    let rs := cutRecords (ascLen 3) n (p.drop 1)
    runCommand 0x300 h p (batch 32 || rs.isNone) (h.priv == 2) s.slipOrQuiet [] (runBatch ascWriteRec (rs.getD [])) s
  | 0x301 =>
    let rs := s.cutInsert n (p.drop 1)
    match ([(batch 16 || rs.isNone, codeBadParam), (h.priv == 2, codeNotPermitted), (s.slipOrQuiet, codeModeWrong),
        (s.mirrorRefuses 0x301 h, codeNotActing)]).find? (·.1) with
    | some c => s.finish 0x301 h p.length c.2 []
    | none => s.insertGo cmd (rs.getD []) 0 0 []
  | 0x302 =>
    let rs := cutRecords (ascLen 1) n (p.drop 1)
    runCommand 0x302 h p (batch 32 || rs.isNone) (h.priv == 2) s.slipOrQuiet [] (runBatch ascDeleteRec (rs.getD [])) s
  | 0x303 =>
    runCommand 0x303 h p (!fdWide h || p.length != 21 || pf p 0 24 16 != 0) false s.slipOrQuiet []
      (fun s =>
        let m := s.cfg.fd.rules.ascMaps (pf p 0 31 26)
        let (set, mask) := if bit (par p 0) 25 then (pf p 0 15 0, 2 ^ 64 - 1) else m
        let key := ascWords (p.drop 1)
        (s.activate set mask, codeOk, ascSearchWords (s.chainsIn set).isEmpty (s.ascSearch set mask key))) s
  | 0x304 =>
    runCommand 0x304 h p (!fdWide h || p.length != 1 || pf p 0 26 16 != 0) false s.slipOrQuiet []
      (fun s =>
        let c := pf p 0 31 28
        let a := pf p 0 15 0
        let r := if bit (par p 0) 27 then s.byHandle c a else (tfind s.ae (c * 65536 + a)).map (a, ·)
        (s, codeOk, ascReadWords c r)) s
  | _ => s.ascChainCfg h p

/-- Runs the waiting ASC commands, at most `n`, until one needs block-move steps (R185). -/
def State.ascNext (s : State) : Nat → State
  | 0 => s
  | n + 1 =>
    match s.asc.run, s.asc.waits with
    | none, c :: cs => ((s.setAsc { s.asc with waits := cs }).ascExec c).ascNext n
    | _, _ => s

/-- An ASC command is accepted: it runs at once, or waits its turn (R185). -/
def State.ascCommand (s : State) (op : Nat) (h : Hdr) (p : List Word) : State :=
  (s.setAsc { s.asc with waits := s.asc.waits ++ [⟨op, h, p⟩] }).ascNext (s.asc.waits.length + 1)

/-- ASC_WRITE (R185). -/
def execAscWrite (h : Hdr) (p : List Word) (s : State) : Out := .next (s.ascCommand 0x300 h p)
/-- ASC_INSERT (R180, R185). -/
def execAscInsert (h : Hdr) (p : List Word) (s : State) : Out := .next (s.ascCommand 0x301 h p)
/-- ASC_DELETE (R184, R185). -/
def execAscDelete (h : Hdr) (p : List Word) (s : State) : Out := .next (s.ascCommand 0x302 h p)
/-- ASC_SEARCH (R187). -/
def execAscSearch (h : Hdr) (p : List Word) (s : State) : Out := .next (s.ascCommand 0x303 h p)
/-- ASC_READ (R188). -/
def execAscRead (h : Hdr) (p : List Word) (s : State) : Out := .next (s.ascCommand 0x304 h p)
/-- ASC_CHAIN_CFG (R169). -/
def execAscChainCfg (h : Hdr) (p : List Word) (s : State) : Out := .next (s.ascCommand 0x305 h p)

/-- ASC_BLOCK_MOVE_STEP (R180 to R182): a step copies one entry, or the absence of one that R192 took meanwhile; after the last,
the new entry is written, and the command goes on. -/
def execAscBlockMoveStep (s : State) : Out :=
  match s.asc.run with
  | none => .next s
  | some r =>
    match r.move.path with
    | a :: rest =>
      let s := match tfind s.ae (r.move.chain * 65536 + a) with
        | some e => s.putRow r.move.chain r.move.dst e
        | none => s.dropRow r.move.chain r.move.dst
      .next (s.setAsc { s.asc with run := some { r with move := { r.move with path := rest, dst := a } } })
    | [] =>
      let s := (s.finalWrite r.move).setAsc { s.asc with run := none }
      .next ((s.insertGo r.cmd r.recs r.applied r.aux r.placed).ascNext (s.asc.waits.length + 1))

/-! ## Scrubbing and spare banks (R190 to R194) -/

/-- The chain and address of a row of a logical bank. -/
def State.rowChain (s : State) (bank row : Nat) : Option (Nat × Nat) :=
  ((List.range 16).find? (fun c => (s.chain c).en && (s.chain c).first ≤ bank
    && bank < (s.chain c).first + (s.chain c).w * ((s.chain c).depthM1 + 1))).map
    (fun c => (c, (bank - (s.chain c).first) / (s.chain c).w * 4096 + row))

/-- The entry at a row of a logical bank, with its chain and address. -/
def State.rowEnt (s : State) (bank row : Nat) : Option (Nat × Nat × AEnt) :=
  match s.rowChain bank row with
  | some (c, a) => (tfind s.ae (c * 65536 + a)).map (fun e => (c, a, e))
  | none => none

/-- Physical bank of a logical bank (R167). -/
def State.bankPhys (s : State) (b : Nat) : Nat := tget idn s.asc.phys b

/-- A bank meets the condition of R193: its copy to a spare begins, or waits for the one that runs. -/
def State.bankFails (s : State) (bank : Nat) : State :=
  match s.asc.swap with
  | some b => if b = bank || s.asc.failing.contains bank then s else s.setAsc { s.asc with failing := s.asc.failing ++ [bank] }
  | none => if s.asc.spares.isEmpty then s else s.setAsc { s.asc with swap := some bank }

/-- A block move loses the row at an address of its chain (R194): it passes over a row still ahead of it; where the row was to be
written next, the move is planned anew, and in a chain that is full by now the record fails. -/
def State.moveLoses (s : State) (c a : Nat) : State :=
  match s.asc.run with
  | none => s
  | some r =>
    if r.move.chain ≠ c then s
    else if r.move.dst ≠ a then
      s.setAsc { s.asc with run := some { r with move := { r.move with path := r.move.path.filter (· ≠ a) } } }
    else
      match s.plan c r.move.ent with
      | some m => s.setAsc { s.asc with run := some { r with move := m } }
      | none =>
        let aux := r.aux - b01 (s.byHandle c r.move.ent.handle).isSome
        ((s.postOnce 0x0A6 0 [d16 c]).insertEnd r.cmd (r.applied - 1) aux codeFull r.placed.dropLast).ascNext
          (s.asc.waits.length + 1)

/-- With no spare left, a row that differs again is retired (R194, R374). -/
def State.retireRow (s : State) (bank row : Nat) : State :=
  if s.asc.retired.contains (bank, row) then s
  else
    let s := match s.rowEnt bank row with
      | some (c, a, _) => s.dropRow c a
      | none => s
    let s := s.setAsc { s.asc with retired := s.asc.retired ++ [(bank, row)] }
    let s := match s.rowChain bank row with
      | some (c, a) => s.moveLoses c a
      | none => s
    (s.post 0x0A2 [d16 bank, d16 row]).recordLife 14 0 (lifeLoc 1 0x3F bank row) (s.bankPhys bank) noUnit 0

/-- The DEVTIME hour, by which repairs of a bank are counted (R193). -/
def State.hour (s : State) : Nat := s.now.toNat / 3600000000000

/-- ASC_SCRUB_COMPARE (R189 to R194): a row is compared with its shadow; an entry whose shadow is uncorrectable becomes
invalid (R192). -/
def execAscScrubCompare (bank : Fin 64) (row : Fin 4096) (differs shadowBad : Bool) (s : State) : Out :=
  if s.domain 5 ≠ 0 then .next s
  else if shadowBad then
    match s.rowEnt bank row with
    | some (c, a, e) => .next ((s.dropRow c a).post 0x0A3 [d16 c, d16 e.handle])
    | none => .next s
  else
    let k : Nat × Nat := (bank.val, row.val)
    let again := s.asc.suspect.contains k
    if !differs then .next (s.setAsc { s.asc with suspect := s.asc.suspect.filter (· != k) })
    else
      let old := tget (fun _ => (0, 0)) s.asc.repairs bank.val
      let n := if old.1 = s.hour then old.2 + 1 else 1
      let s := (s.setAsc { s.asc with
        suspect := if again then s.asc.suspect else s.asc.suspect ++ [k]
        repairs := tset (fun _ => (0, 0)) s.asc.repairs bank.val (s.hour, n) }).postOnce 0x0A0 bank.val
          [d16 bank.val, d16 row.val]
      if s.asc.spares.isEmpty && s.asc.swap.isNone then .next (if again then s.retireRow bank row else s)
      else if again || 64 ≤ n then .next (s.bankFails bank)
      else .next s

/-- Ends the copy of a bank: the mapping swaps (R193, R374). -/
def State.bankSwap (s : State) (bank cause : Nat) : State :=
  match s.asc.spares with
  | sp :: rest =>
    let old := s.bankPhys bank
    let s := s.setAsc { s.asc with
      phys := tset idn s.asc.phys bank sp, spares := rest
      swap := if rest.isEmpty then none else s.asc.failing.head?
      failing := if rest.isEmpty then [] else s.asc.failing.drop 1
      suspect := s.asc.suspect.filter (·.1 != bank)
      repairs := tset (fun _ => (0, 0)) s.asc.repairs bank (0, 0) }
    (s.post 0x0A1 [d16 bank, d16 old]).substitute 3 cause (lifeLoc 1 0x3F bank 0) old sp
  | [] => s.setAsc { s.asc with swap := none, failing := [] }

/-- ASC_SPARE_SWAP (R193). -/
def execAscSpareSwap (s : State) : Out :=
  match s.asc.swap with
  | some b => .next (s.bankSwap b 0)
  | none => .next s

/-- ASC_ACT_MS_END (R179). -/
def execAscActMsEnd (s : State) : Out :=
  let n := s.asc.actNow
  let s := s.setAsc { s.asc with actMs := BitVec.ofNat 32 (min n (2 ^ 32 - 1)), actNow := 0 }
  .next (if 307200000 < n then s.post 0x0A7 [] else s)

end Sys2Proof.Machine
end

