-- ==== Sys2Proof/Machine/Edits.lean ====
section
/-! DEFINITION. The egress editor: the walk of R578, the edits of R202 and the ECN edit of R279, over the bytes of
a frame without its FCS. -/

namespace Sys2Proof.Machine

/-- What the walk finds (R578): the offset of the EtherType, VLAN tags, label stack entries, and the IP header's
offset with whether it is version 6. -/
structure Walk where
  tags   : Nat
  ether  : Nat
  labels : List Nat
  ip     : Option (Nat × Bool)
  deriving DecidableEq, Repr

/-- Up to `n` VLAN tags from offset `o` (R578 step 2). -/
def walkTags (w : List Byte) : Nat → Nat → Nat → Nat × Nat
  | 0, o, k => (o, k)
  | n + 1, o, k =>
    if (be16 w o = 0x8100 || be16 w o = 0x88A8) && o + 4 ≤ w.length then walkTags w n (o + 4) (k + 1) else (o, k)

/-- Up to `n` label stack entries from offset `o`: their offsets, and the offset after an entry with S = 1
(R578 step 4). -/
def walkLabels (w : List Byte) : Nat → Nat → List Nat → List Nat × Option Nat
  | 0, _, ls => (ls, none)
  | n + 1, o, ls =>
    if w.length < o + 4 then (ls, none)
    else if byteAt w (o + 2) % 2 = 1 then (ls ++ [o], some (o + 4))
    else walkLabels w n (o + 4) (ls ++ [o])

/-- The IP header at `o` of a version, whole within the window (R578 step 5). -/
def walkIp (w : List Byte) (o : Nat) (v6 : Bool) : Option (Nat × Bool) :=
  let len := if v6 then 40 else max 20 (byteAt w o % 16 * 4)
  if o < w.length && o + len ≤ w.length then some (o, v6) else none

/-- The walk of a frame (R578). -/
def walk (frame : List Byte) : Walk :=
  let w := frame.take 256
  let (o, k) := walkTags w 2 12 0
  if w.length < o + 2 then ⟨k, o, [], none⟩
  else
    let et := be16 w o
    if et = 0x8847 || et = 0x8848 then
      let (ls, q) := walkLabels w 8 (o + 2) []
      ⟨k, o, ls, match q with
        | some q => if byteAt w q / 16 = 4 then walkIp w q false else if byteAt w q / 16 = 6 then walkIp w q true else none
        | none => none⟩
    else ⟨k, o, [], if et = 0x0800 then walkIp w (o + 2) false else if et = 0x86DD then walkIp w (o + 2) true else none⟩

/-- `frame` with `new` in place of the `n` bytes at `o`. -/
def splice (frame : List Byte) (o n : Nat) (new : List Byte) : List Byte :=
  frame.take o ++ new ++ frame.drop (o + n)

/-- Ones' complement sum of the 16-bit words of a list of bytes. -/
def onesSum : List Byte → Nat
  | a :: b :: r => let t := onesSum r + a.toNat * 256 + b.toNat; if 65535 < t then t - 65535 else t
  | [a] => a.toNat * 256
  | [] => 0

/-- The frame with the checksum of the IPv4 header at `o` computed again (R202). -/
def fixV4 (frame : List Byte) (o : Nat) : List Byte :=
  let f := splice frame (o + 10) 2 [0, 0]
  let len := max 20 (byteAt frame o % 16 * 4)
  splice f (o + 10) 2 (beBytes 2 (65535 - onesSum ((f.drop o).take len)))

/-- The traffic class of an IP header: the DSCP and ECN byte. -/
def ipTos (frame : List Byte) (ip : Nat × Bool) : Nat :=
  if ip.2 then byteAt frame ip.1 % 16 * 16 + byteAt frame (ip.1 + 1) / 16 else byteAt frame (ip.1 + 1)

/-- The frame with that byte set, and the IPv4 checksum with it. -/
def setTos (frame : List Byte) (ip : Nat × Bool) (v : Nat) : List Byte :=
  if ip.2 then
    splice frame ip.1 2 [BitVec.ofNat 8 (byteAt frame ip.1 / 16 * 16 + v / 16),
      BitVec.ofNat 8 (v % 16 * 16 + byteAt frame (ip.1 + 1) % 16)]
  else fixV4 (splice frame (ip.1 + 1) 1 [BitVec.ofNat 8 v]) ip.1

/-- What an edit does to a frame (R202). -/
inductive Edited
  | done (frame : List Byte)
  /-- Its layer is not found: EDIT_SKIP. -/
  | skip
  /-- A TTL or hop limit of 0: the packet is dropped. -/
  | ttlZero
  deriving DecidableEq, Repr

/-- The label stack entry at `o` as a number. -/
def labelAt (f : List Byte) (o : Nat) : Nat := beNat (bytesAt f o 4)

/-- One edit of a frame (R202). -/
def editOne (f : List Byte) (e : EditOp) : Edited :=
  let w := walk f
  match e.code with
  | 0 => .done (splice f 0 12 (beBytes 6 (bits e.a 47 0) ++ beBytes 6 (bits e.b 47 0)))
  | 1 =>
    let v := bits e.a 31 0
    if w.labels.isEmpty then
      .done (splice f w.ether 2 (beBytes 2 0x8847 ++ beBytes 4 (if v / 256 % 2 = 1 then v else v + 256)))
    else .done (splice f (w.ether + 2) 0 (beBytes 4 (if v / 256 % 2 = 1 then v - 256 else v)))
  | 2 =>
    match w.labels with
    | o :: _ =>
      let bottom := labelAt f o / 256 % 2 == 1
      let g := splice f o 4 []
      let nib := if o < g.length then byteAt g o / 16 else 0
      if bottom && nib == 4 then .done (splice g w.ether 2 (beBytes 2 0x0800))
      else if bottom && nib == 6 then .done (splice g w.ether 2 (beBytes 2 0x86DD))
      else .done g
    | [] => .skip
  | 3 =>
    match w.labels with
    | o :: _ => .done (splice f o 4 (beBytes 4 (bits e.a 19 0 * 4096 + labelAt f o % 4096)))
    | [] => .skip
  | 4 => .done (splice f 12 0 (beBytes 4 (bits e.a 31 0)))
  | 5 => if w.tags = 0 then .skip else .done (splice f 12 4 [])
  | 6 =>
    match w.ip with
    | some (o, v6) =>
      let i := if v6 then o + 7 else o + 8
      if byteAt f i = 0 then .ttlZero
      else
        let g := splice f i 1 [BitVec.ofNat 8 (byteAt f i - 1)]
        .done (if v6 then g else fixV4 g o)
    | none => .skip
  | 7 =>
    match w.ip with
    | some ip => .done (setTos f ip (bits e.a 5 0 * 4 + ipTos f ip % 4))
    | none => .skip
  | 8 => .done (splice f 12 0 e.bytes)
  | _ => .skip

/-- The edits of a packet in program order: the frame, the edits skipped, and whether it goes on (R202). -/
def editAll : List EditOp → List Byte → Nat → List Byte × Nat × Bool
  | [], f, n => (f, n, true)
  | e :: es, f, n =>
    match editOne f e with
    | .done g => editAll es g n
    | .skip => editAll es f (n + 1)
    | .ttlZero => (f, n, false)

/-- The ECN edit of a chosen packet (R279): the frame and whether it is ECT or CE. -/
def ecnEdit (f : List Byte) : List Byte × Bool :=
  match (walk f).ip with
  | some ip =>
    let t := ipTos f ip
    if t % 4 = 1 || t % 4 = 2 then (setTos f ip (t / 4 * 4 + 3), true) else (f, t % 4 == 3)
  | none => (f, false)

/-- A frame as it is sent: its FCS computed over it, complemented for a stomped one (R233). -/
def withFcs (body : List Byte) (stomp : Bool) : List Byte :=
  body ++ leBytes (if stomp then ~~~ crcFcs body else crcFcs body)

end Sys2Proof.Machine
end

