-- ==== Sys2Proof/Machine/Runs.lean ====
section
/-! DEFINITION. Pattern runs: what runs on a lane, what a tick of the clock counts, and what stops a run (R544 to R551). -/

namespace Sys2Proof.Machine

/-- Units of a TYPE (R544). -/
def prbsUnits (type : Nat) : Nat := [128, 192, 8, 24, 8, 1].getD type 0

/-- A generator and checker. -/
def State.prbs (s : State) (type unit : Nat) : Prbs := tget dflt s.test.prbs (type * 512 + unit)
def State.putPrbs (s : State) (type unit : Nat) (x : Prbs) : State :=
  { s with test := { s.test with prbs := tset dflt s.test.prbs (type * 512 + unit) x } }

/-- A run's fields of P0 (R549). -/
def Prbs.runs (x : Prbs) : Bool := x.cfg != 0
def Prbs.gen (x : Prbs) : Bool := bit x.cfg 11
def Prbs.chk (x : Prbs) : Bool := bit x.cfg 10
def Prbs.loop (x : Prbs) : Nat := bits x.cfg 4 3

/-- Stops the runs that `f` names by TYPE and unit; their counts freeze, and one event names the first (R551). -/
def State.stopWhere (s : State) (f : Nat → Nat → Bool) : State :=
  let l := s.test.prbs.filter (fun x : Nat × Prbs => f (x.1 / 512) (x.1 % 512) && x.2.runs)
  match l with
  | [] => s
  | u :: _ =>
    let s := l.foldl (fun s x => s.putPrbs (x.1 / 512) (x.1 % 512) { x.2 with cfg := 0, lock := false }) s
    s.post 0x1F7 [d16 0, d16 (u.1 / 512), d16 (u.1 % 512)]

/-- Stops the runs of a TYPE. -/
def State.stopRuns (s : State) (type : Nat) (f : Nat → Bool) : State := s.stopWhere (fun t u => t == type && f u)

/-! ## Self-test runs (R553 to R555) -/

/-- The run of a KIND: P0 and the slice of TARGET. -/
def State.bistRun (s : State) (kind : Nat) : Option (Word × Nat) := tget none0 s.test.running kind

/-- A run ends with a result: 0 pass, 1 repaired, 2 not repaired, 3 aborted (R554, R559). -/
def State.bistEnd (s : State) (kind result failing ms : Nat) : State :=
  { s with test := { s.test with
      running := tset none0 s.test.running kind none
      results := tset dflt s.test.results kind ⟨result, failing, ms⟩ } }.post 0x1F7 [d16 1, d16 kind, d16 result, d16 failing]

/-- Aborts the KIND 6 run of a logical slice, or of the spare, when something needs it (R555). -/
def State.abortBist (s : State) (spare : Bool) (l : Nat) : State :=
  match s.bistRun 6 with
  | some (p0, sl) => if bit p0 25 == spare && (spare || sl == l) then s.bistEnd 6 3 0 0 else s
  | none => s

/-- Both counts stop here (R546). -/
def prbsTop : Nat := 2 ^ 48 - 1

/-- Counts bits in quarters and errors while the checker is locked (R546). -/
def Prbs.count (x : Prbs) (quarters errors : Nat) : Prbs :=
  if !x.lock || prbsTop * 4 ≤ x.nbits then x
  else { x with nbits := min (prbsTop * 4) (x.nbits + quarters), errors := min prbsTop (x.errors + errors) }

/-- Quarter bits of a lane in a tick of 20 ns (R34, R46, R294, R333): 212.5, 106.25, 16 and 10.3125 Gb/s; the PCIe rate is what the
link has trained to, and its bits reach the checker by the row of a lost lock. -/
def prbsRate (type : Nat) : Nat := [17000, 17000, 8500, 1280, 0, 825].getD type 0

/-- Errors of MODE 2 between two counts of quarter bits sent (R548). -/
def insertedIn (ins : Word) (a b : Nat) : Nat :=
  let k := bits ins 29 26
  if bits ins 31 30 = 2 && 3 ≤ k && k ≤ 12 then b / (4 * 10 ^ k) - a / (4 * 10 ^ k) else 0

/-- One tick of a run: what its own transmitter inserts reaches its checker through a near-end loopback (R547, R548). -/
def Prbs.tick (x : Prbs) (rate : Nat) : Prbs :=
  if !x.runs then x
  else
    let n := x.sent + rate
    { (if x.chk then x.count rate (if x.loop = 1 && x.gen then insertedIn x.ins x.sent n else 0) else x) with sent := n }

/-- One tick of every run. -/
def State.tickRuns (s : State) : State :=
  { s with test := { s.test with prbs := s.test.prbs.map (fun x : Nat × Prbs => (x.1, x.2.tick (prbsRate (x.1 / 512)))) } }

end Sys2Proof.Machine
end

