-- ==== Sys2Proof/Machine/Gangway.lean ====
section
/-! DEFINITION. Moves of buckets between FD slices: GANGWAY_MOVE, the moves of drains, and the refill of the punt
buckets (R104 to R108, R127, R128, R479, R583). -/

namespace Sys2Proof.Machine

/-- The power domain of a physical FD slice's ingress half (R475). -/
def ingressDomain (phys : Nat) : Nat := 14 + 2 * phys

/-- Wakes that wait begin as far as the surge rule lets them: at most 2 supply ramps in any 4 µs, and at most 4 exits from the gated
state in any 100 ns (R477). -/
def State.surge (s : State) : State :=
  s.pwr.wakeQ.foldl (fun s x =>
    let w := s.pwr
    let ramps := w.ramps.filter (fun t => s.mono < t + 4000)
    let leaves := w.leaves.filter (fun t => s.mono < t + 100)
    if x.2 then
      if ramps.length < 2 then { s with pwr := { w with ramps := ramps ++ [s.mono], wakeQ := w.wakeQ.erase x } } else s
    else if leaves.length < 4 then { s with pwr := { w with leaves := leaves ++ [s.mono], wakeQ := w.wakeQ.erase x } }
    else s) s

/-- Asks for a domain's wake (R477). -/
def State.askWake (s : State) (d : Nat) : State :=
  if s.supplied d = 3 then s
  else
    let off := s.supplied d == 2
    let s := s.setDomain d 3
    State.surge { s with pwr := { s.pwr with wakeQ := s.pwr.wakeQ ++ [(d, off)] } }

/-- Begins the wake of a logical ingress half (R105, R476, R477); a self-test of it ends (R555). -/
def State.wakeHalf (s : State) (l : Nat) : State := (s.abortBist false l).askWake (ingressDomain (s.physOf l))

/-! ## The rollout and its microcode (R206, R212, R218, R219) -/

/-- MCSEQ of a physical slice (R198). -/
def State.mcseq (s : State) (phys : Nat) : Nat := tget zn s.fd.eng.seqs phys

/-- The running set, the first of the golden copies, and the sequence of the next one (R218). -/
def State.runSeq (s : State) : Nat := (s.fd.eng.golden.head?.map MicroSet.seq).getD 0
def State.nextSeq (s : State) : Nat := (s.runSeq + 1) % 256

/-- The golden copy of a set (R212). -/
def State.goldenSet (s : State) (seq : Nat) : Option MicroSet := s.fd.eng.golden.find? (·.seq == seq)

/-- The control store of a half that is on is loaded from the golden copy (R212, R213). -/
def State.loadHalf (s : State) (d seq : Nat) : State :=
  if s.domain d = 2 then s else s.setEng { s.fd.eng with stores := tset none0 s.fd.eng.stores d (s.goldenSet seq) }

/-- Loads a set into a physical slice. -/
def State.loadSet (s : State) (phys seq : Nat) : State :=
  let s := s.setEng { s.fd.eng with seqs := tset zn s.fd.eng.seqs phys seq }
  (s.loadHalf (ingressDomain phys) seq).loadHalf (ingressDomain phys + 1) seq

/-- The set in the control store of a half: none while the half is off (R213). -/
def State.storeSet (s : State) (d : Nat) : Option MicroSet := if s.domain d = 2 then none else tget none0 s.fd.eng.stores d

/-- Puts the rollout. -/
def State.setRoll (s : State) (r : Option Roll) : State := s.setEng { s.fd.eng with roll := r }

/-- The patches of an image, all of them loaded. -/
def allLoaded (l : List (PatchRec × Bool)) : List (PatchRec × Bool) := l.map (fun p => (p.1, true))

/-- Slot `k` is the running microcode slot (R218, R503, R512). -/
def State.slotRuns (s : State) (k : Nat) : State :=
  let f := s.fw
  let old := tget dflt f.images (2 + f.mcSlot)
  let new := tget dflt f.images (2 + k)
  let im := if k = f.mcSlot then f.images else tset dflt f.images (2 + f.mcSlot) { old with state := if old.state = 5 then 3 else old.state }
  { s with fw := { f with
      mcSlot := k, images := tset dflt im (2 + k) { new with state := 5, patches := allLoaded new.patches } } }

/-- A rollout's step is over: the next one is due, or the rollout ends, its slot runs and its set alone is kept (R218, R512). -/
def State.rollNext (s : State) (r : Roll) : State :=
  if r.step < 15 then s.setRoll (some { r with step := r.step + 1, stage := 0, away := [] })
  else
    let s := (((s.setRoll none).post 0x0CA [d16 r.seq]).slotRuns (1 - s.fw.mcSlot))
    s.setEng { s.fd.eng with golden := s.fd.eng.golden.filter (·.seq == r.seq) }

/-- A step has loaded and tested its slice (R218). -/
def State.rollDone (s : State) (r : Roll) : State := (s.post 0x0C9 [d16 r.step]).rollNext r

/-- A step of a microcode rollout runs (R108, R220). -/
def State.rollStep (s : State) : Bool :=
  match s.fd.eng.roll with
  | some r => r.stage != 0
  | none => false

/-- A bucket that the running step in place moves (R219). -/
def State.rollAway (s : State) (b : Nat) : Bool :=
  match s.fd.eng.roll with
  | some r => r.away.contains b
  | none => false

/-- A move of this bucket runs. -/
def Gangway.moving (g : Gangway) (b : Nat) : Bool := g.moves.any (·.bucket == b)

/-- Begins a move; a gated or powered-off target wakes first (R105). -/
def State.startMove (s : State) (b t : Nat) (pin : Option Bool) (drain : Bool) : State :=
  let asleep := s.sliceSt t == 1 || s.sliceSt t == 2
  let s := if asleep then s.wakeHalf t else s
  s.setGang { s.fd.gang with
    moves := s.fd.gang.moves ++ [⟨b, t, asleep, [], s.mono, false, pin, drain⟩] }

/-- Puts the PIN value of a bucket. -/
def State.putPin (s : State) (b : Nat) (pin : Bool) : State :=
  s.setGang { s.fd.gang with pins := tset noB s.fd.gang.pins b pin }

/-- GANGWAY_MOVE goes on with its next buckets: two moves at a time, in ascending order; a bucket that another
move holds is waited for (R107). -/
def State.pumpCmd : Nat → State → State
  | 0, s => s
  | n + 1, s =>
    match s.fd.gang.cmd with
    | none => s
    | some c =>
      let g := s.fd.gang
      if c.last < c.next then
        if g.moves.any (·.pin.isSome) then s
        else (s.setGang { g with cmd := none }).post 0x080 [d16 c.first]
      else
        let on := { c with next := c.next + 1 }
        if g.moving c.next then s
        else if !s.hasPhys c.slice then State.pumpCmd n (s.setGang { g with cmd := some on })
        else if s.bucketSlice c.next = c.slice then
          State.pumpCmd n ((s.setGang { g with cmd := some on }).putPin c.next c.pin)
        else if 2 ≤ g.moves.length then s
        else State.pumpCmd n ((s.setGang { g with cmd := some on }).startMove c.next c.slice (some c.pin) false)

/-- A planned move of a drain that the ferryman made: its bucket's slice is there, and no step in place moves it. -/
def State.ferryMove (s : State) (b : Nat) : Bool := s.hasPhys (s.bucketSlice b) && !s.rollAway b

/-- The next planned move of a drain that may begin: none of the ferryman's during a step of a rollout (R220). -/
def State.nextDrain (s : State) : Option (Nat × Nat) :=
  s.fd.gang.drains.find? (fun x => !s.fd.gang.moving x.1 && !(s.rollStep && s.ferryMove x.1))

/-- A drain goes on with its next buckets, two moves at a time (R219, R479, R583); a bucket pinned meanwhile stays where the
ferryman would move it (R104). -/
def State.pumpDrain : Nat → State → State
  | 0, s => s
  | n + 1, s =>
    match s.nextDrain with
    | none => s
    | some x =>
      if 2 ≤ s.fd.gang.moves.length then s
      else
        let s' := s.setGang { s.fd.gang with drains := s.fd.gang.drains.erase x }
        if tget noB s.fd.gang.pins x.1 && s.ferryMove x.1 then State.pumpDrain n s' else State.pumpDrain n (s'.startMove x.1 x.2 none true)

/-- Begins every move that may begin. -/
def State.pumpMoves (s : State) : State := State.pumpDrain (s.fd.gang.drains.length + 1) (State.pumpCmd 4098 s)

/-- Packets of a hold buffer enter a slice in order, and channels whose last earlier packet one of them was go on (R105, R116). -/
def State.enterHeld (s : State) (l : Nat) (ps : List Staged) : State :=
  ((ps.map (·.pkt.chan)).eraseDups).foldl (fun s c => s.freeChan c) (ps.foldl (fun s p => s.enter l p) s)

/-- A step in place is over once its buckets are back (R219). -/
def State.rollBack (s : State) : State :=
  match s.fd.eng.roll with
  | some r =>
    if r.stage = 5 && r.away.all (fun b => !s.fd.gang.moving b && !s.fd.gang.drains.any (·.1 == b)) then (s.rollDone r).pumpMoves else s
  | none => s

/-- Steps 3 and 4 of a move (R105). -/
def State.finishMove (s : State) (m : GangMove) : State :=
  let g := s.fd.gang
  let s := s.setGang { g.putMap m.bucket m.target with moves := g.moves.filter (·.bucket != m.bucket) }
  let s := match m.pin with | some p => s.putPin m.bucket p | none => s
  (s.enterHeld m.target m.held).pumpMoves.rollBack

/-- Puts back what an abandoned move holds, and drops the move (R106). -/
def State.dropMove (s : State) (m : GangMove) : State :=
  let s := s.setGang { s.fd.gang with moves := s.fd.gang.moves.filter (·.bucket != m.bucket) }
  s.enterHeld (s.bucketSlice m.bucket) m.held

/-- The move of a bucket that holds its packets. -/
def Gangway.holding (g : Gangway) (b : Nat) : Option GangMove :=
  g.moves.find? (fun m => m.bucket == b && !m.waking)

/-- GANGWAY_MOVE_DRAINED (R105): no packet of the bucket is left in its old slice. -/
def execGangwayMoveDrained (b : Fin 4096) (s : State) : Out :=
  match s.fd.gang.holding b with
  | some m => .next (if tget zn s.fd.gang.counts b = 0 then s.finishMove m else s)
  | none => .next s

/-- GANGWAY_MOVE_ABANDON (R106): the bucket's count has not reached zero within 10 µs. A bucket of a drain is
moved again later. -/
def execGangwayMoveAbandon (b : Fin 4096) (s : State) : Out :=
  match s.fd.gang.holding b with
  | some m =>
    if tget zn s.fd.gang.counts b = 0 || s.mono < m.since + 10000 then .next s
    else
      let s := (s.dropMove m).post 0x081 [d16 2]
      let s := if m.drain then
          s.setGang { s.fd.gang with drains := s.fd.gang.drains ++ [(m.bucket, m.target)] }
        else s
      .next s.pumpMoves
  | none => .next s

/-- The greatest of a list by a measure, the first of equals. -/
def mostBy (f : Nat → Nat) : List Nat → Option Nat
  | [] => none
  | a :: l =>
    match mostBy f l with
    | some b => some (if f a < f b then b else a)
    | none => some a

/-- Halves in service, those of a running drain included (R24, R479). -/
def State.inService (s : State) : List Nat := slices.filter (fun l => s.hasPhys l && (s.sliceSt l = 0 || s.sliceSt l = 3))

/-- Buckets that the ferryman may move from a slice to another: none pinned, and deep ones between deep slices only (R480). -/
def State.mayMove (s : State) (src dst b : Nat) : Bool :=
  !tget noB s.fd.gang.pins b && !(s.deepOn && deepBucket b && !(s.deepSlices.contains src && s.deepSlices.contains dst))

/-- Rebalancing onto a woken half (R479): the heaviest bucket of the slice with the highest u, while the donor's u stays at
least as high as the receiver's. -/
def State.rebalance (s : State) (dst : Nat) : Nat → Tab Nat → List (Nat × Nat) → List (Nat × Nat) × Tab Nat
  | 0, use, l => (l, use)
  | n + 1, use, l =>
    match mostBy (tget zn use) (s.inService.filter (· != dst)) with
    | none => (l, use)
    | some src =>
      let own := (List.range 4096).filter (fun b => s.bucketSlice b == src && s.mayMove src dst b && !l.any (·.1 == b)
        && !s.fd.gang.moving b && !s.fd.gang.drains.any (·.1 == b))
      match mostBy (tget zn s.fd.gang.load) own with
      | none => (l, use)
      | some b =>
        let w := tget zn s.fd.gang.load b
        let donor := tget zn use src - w
        let recv := tget zn use dst + w
        if w = 0 || donor < recv then (l, use)
        else s.rebalance dst n (tset zn (tset zn use src donor) dst recv) (l ++ [(b, dst)])

/-- The drain of a slice that a double fault has fenced runs (R108, R583). -/
def State.fenceRuns (s : State) : Bool :=
  s.fd.gang.drains.any (fun x => !s.hasPhys (s.bucketSlice x.1)) || s.fd.gang.moves.any (fun m => !s.hasPhys (s.bucketSlice m.bucket))

/-- A woken ingress half is in service: the moves that wait for it go on (R105, R479). -/
def State.halfAwake (s : State) (l : Nat) : State :=
  let s := s.setSliceSt l 0
  let g := s.fd.gang
  let s := s.setGang { g with
    moves := g.moves.map (fun m => if m.target = l then { m with waking := false, since := s.mono } else m)
    wakes := g.wakes.filter (· != l) }
  let s := { s with pwr := { s.pwr with gatedAt := tdel s.pwr.gatedAt l } }
  if g.wakes.contains l then
    let s := { s.post 0x021 [d16 l] with pwr := { s.pwr with lastSlice := l } }
    if s.cfg.ferry.en && !s.rollStep && !s.fenceRuns then
      let (ms, use) := s.rebalance l 4096 s.fd.gang.use []
      (s.setGang { s.fd.gang with use, drains := s.fd.gang.drains ++ ms }).pumpMoves
    else s
  else s

/-- A GANGWAY_MOVE that names the slice being drained abandons the drain (R480). -/
def State.stopDrain (s : State) (l : Nat) : State :=
  if s.pwr.draining = some l then
    let s := s.setGang { s.fd.gang with drains := [] }
    let s := { s with pwr := { s.pwr with draining := none } }
    (s.setSliceSt l 0).post 0x023 [d16 l]
  else s

/-- GANGWAY_MOVE (R107, R108). DESIGN CHOICE (log 109): a substitution through the spare takes no time, so no command meets one. -/
def execGangwayMove (h : Hdr) (p : List Word) (s : State) : Out :=
  let first := pf p 0 31 20
  let last := first + pf p 0 19 8
  let l := pf p 0 7 4
  let deepOut := s.deepOn && 0xF00 ≤ last && !s.deepSlices.contains l
  .next (runCommand 0xD10 h p (!fdWide h || p.length != 1 || pf p 0 2 0 != 0 || 4095 < last || deepOut)
    false s.slipOrQuiet
    [(!s.hasPhys l, codeFenced), (s.fd.gang.cmd.isSome || s.rollStep || s.fenceRuns, codeBusy)]
    (fun s =>
      let s := s.stopDrain l
      (State.pumpMoves (s.setGang { s.fd.gang with cmd := some ⟨first, first, last, l, bit (par p 0) 3⟩ }),
        codeDeferred, [])) s)

/-! ## Punt buckets -/

/-- Tokens in millionths that a rate in kpps gives over `ns`. -/
def tokensOver (kpps ns : Nat) : Nat := kpps * ns

/-- PUNT_BUCKET_REFILL (R127, R128): every bucket takes what its rate gives since the last refill. -/
def execPuntBucketRefill (s : State) : Out :=
  if s.domain 5 ≠ 0 then .next s
  else
  let dt := s.mono - s.fd.filled
  let punt := (List.range 64).foldl (fun t r =>
    tset zn t r (min (s.puntBurst r) (tget zn s.fd.punt r + tokensOver (min 20000 (bits (s.puntPol r) 31 16)) dt))) s.fd.punt
  .next { s with fd := { s.fd with
    punt
    agg := min 2048000000 (s.fd.agg + tokensOver (max 1 (min 20000 (s.rf 0x7F060500 31 16))) dt)
    filled := s.mono } }

end Sys2Proof.Machine
end

