-- ==== Sys2Proof/Machine/Meters.lean ====
section
/-! DEFINITION. Ingress meters (R272, R287 to R290). -/

namespace Sys2Proof.Machine

/-- Puts the scheduler. -/
def State.setSched (s : State) (x : Sched) : State := { s with td := { s.td with sched := x } }
/-- Puts the traffic die's configuration. -/
def State.setTdCfg (s : State) (x : TdSetup) : State := { s with cfg := { s.cfg with td := x } }

/-- A port node at rest: DOWN (R261). -/
def restPort (_ : Nat) : PNode := ⟨3, false, 0, 0, 0⟩
/-- A port node. -/
def State.pnode (s : State) (n : Nat) : PNode := tget restPort s.td.sched.ports n
/-- Puts a port node. -/
def State.putPnode (s : State) (n : Nat) (p : PNode) : State :=
  s.setSched { s.td.sched with ports := tset restPort s.td.sched.ports n p }

/-- A meter's configuration and buckets. -/
def State.meterCfg (s : State) (m : Nat) : MeterCfg := tget dflt s.cfg.td.meters m
def State.meterRun (s : State) (m : Nat) : MeterRun := tget dflt s.td.sched.meters m
/-- Puts a meter's buckets. -/
def State.setMeter (s : State) (m : Nat) (r : MeterRun) : State :=
  s.setSched { s.td.sched with meters := tset dflt s.td.sched.meters m r }

/-- Takes `n` bytes from the first bucket, from the second (R288). -/
def MeterRun.payC (r : MeterRun) (n : Nat) : MeterRun := { r with tc := r.tc - n }
def MeterRun.payE (r : MeterRun) (n : Nat) : MeterRun := { r with te := r.te - n }

/-- The colour decision of R288 for a packet of `n` bytes: `inc` is the colour in, 0 for colour-blind. -/
def meterDecide (c : MeterCfg) (r : MeterRun) (n inc : Nat) : Nat × MeterRun :=
  if 2 ≤ inc then (2, r)
  else if !c.type then
    if r.te < n then (2, r)
    else if inc = 1 || r.tc < n then (1, r.payE n)
    else (0, (r.payE n).payC n)
  else
    if inc = 0 && n ≤ r.tc then (0, r.payC n)
    else if n ≤ r.te then (1, r.payE n) else (2, r)

/-- Meters a packet: its colour; an uncorrectable word resets the buckets to full (R288, R289). -/
def State.meter (s : State) (m n : Nat) (aware : Bool) (colour : Nat) (bad : Bool) : Nat × State :=
  let c := s.meterCfg m
  let s := if bad then (s.setMeter m ⟨c.cbs, c.pbs, 0, 0⟩).post 0x147 [d32 m] else s
  let r := meterDecide c (s.meterRun m) n (if aware then colour else 0)
  (r.1, s.setMeter m r.2)

/-- One slot's refill of a bucket that holds `b` and fraction `f` (R272). -/
def refillSlot (rate burst b f : Nat) : Nat × Nat :=
  let f := f + rate * 4
  let b := b + f / 1000000
  if burst < b then (burst, 0) else (b, f % 1000000)

/-- METER_REFILL (R287): both buckets take one slot. -/
def execMeterRefill (m : Fin 131072) (s : State) : Out :=
  let c := s.meterCfg m
  let r := s.meterRun m
  let a := refillSlot c.cir c.cbs r.tc r.fc
  let b := refillSlot c.pir c.pbs r.te r.fe
  .next (if s.domain 5 = 0 then s.setMeter m ⟨a.1, b.1, a.2, b.2⟩ else s)

/-- A burst in range (R287). -/
def burstOk (b : Nat) : Bool := 1024 ≤ b && b ≤ 67108864

/-- METER_SET (R290). -/
def execMeterSet (h : Hdr) (p : List Word) (s : State) : Out :=
  let c : MeterCfg := ⟨bit (par p 0) 14, pf p 1 27 0, pf p 2 27 0, pf p 3 26 0, pf p 4 26 0⟩
  .next (runSimple 0x401 h p
    (!fdWide h || p.length != 5 || pf p 0 13 0 != 0 || pf p 1 31 28 != 0 || pf p 2 31 28 != 0 || pf p 3 31 27 != 0
      || pf p 4 31 27 != 0 || 200000000 < c.cir || 200000000 < c.pir || !burstOk c.cbs || !burstOk c.pbs
      || (!c.type && c.pir < c.cir))
    (h.priv == 2) s.slipOrQuiet []
    (fun s =>
      let m := pf p 0 31 15
      (s.setTdCfg { s.cfg.td with meters := tset dflt s.cfg.td.meters m c }).setMeter m ⟨c.cbs, c.pbs, 0, 0⟩) s)

/-- METER_READ (R290). -/
def execMeterRead (h : Hdr) (p : List Word) (s : State) : Out :=
  .next (runCommand 0x406 h p (!fdWide h || p.length != 1 || pf p 0 14 0 != 0) false s.slipOrQuiet []
    (fun s =>
      let m := pf p 0 31 15
      let c := s.meterCfg m
      let r := s.meterRun m
      let w (n : Nat) : Word := BitVec.ofNat 32 n
      (s, codeOk, [mkWord [(17, m), (1, b01 c.type), (14, 0)], w c.cir, w c.pir, w c.cbs, w c.pbs, w r.tc, w r.te])) s)

end Sys2Proof.Machine
end

