-- ==== Sys2Proof/Machine/Engines.lean ====
section
/-! DEFINITION. Action engines: the dispatch of a packet with its parse and front-end lookups, fragments, the end
of a program and the restoring of order, and the egress half (R28, R109 to R118, R129 to R132, R196 to R203). -/

namespace Sys2Proof.Machine

/-! ## Engines and programs -/

/-- Engines of a physical slice at the start (R196). -/
def restEng (_ : Nat) : Eng := ⟨2, 32, 8⟩

/-- Engines of a physical slice. -/
def State.engOf (s : State) (phys : Nat) : Eng := tget restEng s.fd.eng.eng phys

/-- The instruction word DROP, which fills a page beyond its program (R209). -/
def dropWord : Word64 := 0x3200000000000000#64

/-- The word at a control-store address a thread can be at: a built-in program or the program region (R206). -/
def State.codeWord (s : State) (pc : Nat) : Word64 :=
  if pc = 0 then dropWord else if pc = 1 then 0x3000000000000004#64 else tget (fun _ => dropWord) s.cfg.fd.words pc

/-- Pages that a program of `n` instructions takes (R209). -/
def pagesOf (n : Nat) : Nat := (n + 255) / 256

/-- The loaded program, by first page and length, that holds an address. -/
def FdSetup.progAt (f : FdSetup) (pc : Nat) : Option (Nat × Nat) :=
  f.progs.find? (fun q => 0x1000 + 256 * q.1 ≤ pc && pc < 0x1000 + 256 * (q.1 + pagesOf q.2))

/-- An entry names a built-in program or a word of a loaded program (R206). -/
def FdSetup.hasEntry (f : FdSetup) (pc : Nat) : Bool := pc < 2 || (f.progAt pc).isSome

/-- The word that an action row executes, from its operation and fields (R200). -/
def insnWord (x : ActOp) (opc : Nat) : Word64 :=
  BitVec.ofNat 64 (packNat [(8, opc), (4, x.d.val), (4, x.a.val), (4, x.b.val), (1, b01 x.i), (11, 0), (32, x.imm.toNat)] 0)

/-- A thread. -/
def State.thread (s : State) (id : Nat) : Option Thread := s.fd.eng.threads.find? (·.id == id)

/-- Puts a thread. -/
def State.putThread (s : State) (t : Thread) : State :=
  s.setEng { s.fd.eng with threads := s.fd.eng.threads.map (fun u => if u.id = t.id then t else u) }

/-- The port or port node that a packet's engine counters stand on, with their scope (R407). -/
def Thread.bump (t : Thread) (ing eg : Nat) (s : State) : State :=
  match t.eg with
  | some e => s.bump 1 e.node eg 1
  | none => s.drop 0 t.pkt.pkt.port ing t.slice t.pkt.pkt.bytes.length

/-! ## Fragments -/

/-- The entry of a fragment (R129). -/
def State.fragOf (s : State) (chan : Nat) (key : List Byte) : Option Frag :=
  s.fd.frags.find? (fun f => f.chan == chan && f.key == key)

/-- Puts the fragment entries. -/
def State.setFrags (s : State) (l : List Frag) : State := { s with fd := { s.fd with frags := l } }

/-- Changes the entry of a fragment. -/
def State.fragUpd (s : State) (chan : Nat) (key : List Byte) (f : Frag → Frag) : State :=
  s.setFrags (s.fd.frags.map (fun x => if x.chan = chan ∧ x.key = key then f x else x))

/-- A fragment's payload has been received (R130). -/
def Frag.note (f : Frag) (off len : Nat) (mf : Bool) : Frag :=
  { f with bytes := f.bytes + len, total := if mf then f.total else some (off + len) }

/-- An entry whose datagram is complete is freed (R130). -/
def Frag.isOver (f : Frag) : Bool :=
  f.res.isSome && f.held.isEmpty && (match f.total with | some n => n ≤ f.bytes | none => false)

/-- Frees the complete entries. -/
def State.fragSweep (s : State) : State := s.setFrags (s.fd.frags.filter (fun f => !f.isOver))

/-- Fragments in the hold pool (R131). -/
def State.fragPool (s : State) : Nat := (s.fd.frags.map (·.held.length)).sum

/-- An orphan leaves its slice: dropped, or punted with reason 2 (R131). -/
def State.orphan (s : State) (slice ver : Nat) (p : Staged) : State :=
  if s.rf 0x7F060600 30 30 = 1 then (s.punt (ingressPunt 2 false slice ver 0 p)).leave p
  else (s.drop 0 p.pkt.port 9 slice p.pkt.bytes.length).leave p

/-- Counts a packet in a flow and route counter: the increment is on its way to DRAM (R201, R398). -/
def State.flowCount (s : State) (idx bytes : Nat) : State :=
  { s with cnt := { s.cnt with incs := s.cnt.incs ++ [⟨idx, bytes, 1, s.now⟩] } }

/-- A packet leaves its slice by its program's verdict (R197, R203). -/
def State.conclude (s : State) (slice : Nat) (p : Staged) (v : Verdict) (o : DescOut) : State :=
  match v with
  | .fwd => s.handOver slice p o
  | .drop => s.leave p
  | .punt r => (s.punt (ingressPunt r false slice o.ver o.emeta p)).leave p

/-- A later fragment takes the stored result: it is metered and counted with the stored indices (R131). -/
def State.followRes (s : State) (p : Staged) (r : FragRes) : DescOut × State :=
  let n := p.pkt.bytes.length
  let (col, s) := match r.meter with
    | some (m, aware) => let q := (s.count 0x06 0 3 (some (64 + s.bucketSlice p.bucket)) none 0).meter m n aware 0 false; (if r.colSet then r.colour else q.1, q.2)
    | none => (r.colour, s)
  let s := match r.counter with | some c => s.flowCount c n | none => s
  let s := if r.verdict = .drop then s.drop 0 p.pkt.port 13 (s.bucketSlice p.bucket) p.pkt.bytes.length else s
  (⟨r.queue, r.mc, col, r.ct, r.emeta, r.ver⟩, s)

/-- What a first fragment's program leaves in its entry (R130). -/
def Thread.fragRes (t : Thread) (v : Verdict) : FragRes :=
  ⟨t.ver, v, t.slice, t.queue.getD 0, t.mc, t.colour, t.colSet, t.ct, t.emeta, t.meter, t.counter⟩

/-- The first fragment resolves its entry, and the held fragments follow it (R131, R132). -/
def State.fragResolve (s : State) (t : Thread) (v : Verdict) : State :=
  match t.frag with
  | none => s
  | some (key, off, len, mf) =>
    let chan := t.pkt.pkt.chan
    match s.fragOf chan key with
    | none =>
      if 16384 ≤ s.fd.frags.length then s.postOnce 0x084 0 []
      else
        let f : Frag := ⟨chan, key, s.mono, some (t.fragRes v), 0, none, []⟩
        (s.setFrags (s.fd.frags ++ [f.note off len mf])).fragSweep
    | some f =>
      let held := f.held
      let res := f.res.getD (t.fragRes v)
      let s := s.fragUpd chan key (fun f => { f.note off len mf with res := some res, held := [] })
      let s := held.foldl (fun s h =>
        let r := s.followRes h.2 res
        r.2.conclude res.slice h.2 res.verdict r.1) s
      s.fragSweep

/-! ## The end of a program -/

/-- The output fields of an ingress thread as its descriptor takes them (R199). -/
def Thread.desc (t : Thread) : DescOut := ⟨t.queue.getD 0, t.mc, t.colour, t.ct, t.emeta, t.ver⟩

/-- The punt record of a thread's packet (R439). -/
def Thread.puntRec (t : Thread) (reason : Nat) (copy : Bool) : PuntRec :=
  match t.eg with
  | none => ingressPunt reason copy t.slice t.ver t.emeta t.pkt
  | some e =>
    { ring := 0, reason, copy, eg := true, port := t.pkt.pkt.port, chan := e.chan, slice := t.slice, ruleVer := t.ver,
      time := e.time, emeta := e.emeta, bucket := t.pkt.bucket, node := e.node, bytes := t.pkt.pkt.bytes }

/-- Released bytes of a port node that will not be sent (R269). -/
def State.unsend (s : State) (node n : Nat) : State :=
  s.putPnode node { s.pnode node with unsent := (s.pnode node).unsent - n }

/-- An edited frame has another length than the packet that was released. -/
def State.resize (s : State) (node n len : Nat) : State :=
  s.putPnode node { s.pnode node with unsent := (s.pnode node).unsent - n + len }

/-- The bytes of a frame without its FCS, which the framer writes anew (R54, R233). -/
def bodyOf (bytes : List Byte) : List Byte := bytes.take (bytes.length - 4)

/-- A packet leaves the egress half for the framer: its edits, its ECN mark and its FCS (R202, R233, R279). -/
def State.egressOut (s : State) (t : Thread) (e : EgInfo) : State :=
  let n := t.pkt.pkt.bytes.length
  let (f, skips, goes) := editAll t.edits (bodyOf t.pkt.pkt.bytes) 0
  let s := if skips = 0 then s else s.bump 1 e.node 19 skips
  if !goes then (s.bump 1 e.node 20 1).unsend e.node n
  else
    let (f, ect) := if e.ce then ecnEdit f else (f, true)
    if !ect && e.nonect then (s.bump 1 e.node 6 1).unsend e.node n
    else
      let s := if e.ce && ect then s.bump 1 e.node 5 1 else s
      let s := if e.stomp then s.bump 1 e.node 12 1 else s
      let q := tget nil0 s.fd.eng.tx e.node
      let s := s.resize e.node n (f.length + 4)
      s.setEng { s.fd.eng with tx := tset nil0 s.fd.eng.tx e.node (q ++ [(withFcs f e.stomp, e)]) }

/-- A packet whose program has ended leaves its half (R197). -/
def State.emit (s : State) (t : Thread) (v : Verdict) : State :=
  let s := s.setEng { s.fd.eng with threads := s.fd.eng.threads.filter (·.id != t.id) }
  match t.eg with
  | none => (s.conclude t.slice t.pkt v t.desc).fragResolve t v
  | some e =>
    match v with
    | .fwd => s.egressOut t e
    | .drop => s.unsend e.node t.pkt.pkt.bytes.length
    | .punt r => (s.punt (t.puntRec r false)).unsend e.node t.pkt.pkt.bytes.length

/-- Every half hands on, in arrival order, the packets at its front whose programs have ended (R197). -/
def State.emitHalf (slice : Nat) (eg : Bool) : Nat → State → State
  | 0, s => s
  | n + 1, s =>
    match s.fd.eng.threads.find? (fun t => t.slice == slice && t.eg.isSome == eg) with
    | some t =>
      match t.done with
      | some v => State.emitHalf slice eg n (s.emit t v)
      | none => s
    | none => s

/-- Restores order in a thread's half. -/
def State.restore (s : State) (slice : Nat) (eg : Bool) : State :=
  State.emitHalf slice eg (s.fd.eng.threads.length + 1) s

/-- A thread's program ends (R203). -/
def State.finishThread (s : State) (t : Thread) (v : Verdict) : State :=
  (s.putThread { t with done := some v, wait := none }).restore t.slice t.eg.isSome

/-! ## Dispatch -/

/-- Whether a template makes a lookup: an extract of non-zero WIDTH (R204). -/
def makesLookup (tmpl : List Word) : Bool := tmpl.any (fun x => bits x 15 11 != 0)

/-- A free value where a status is no HIT (log 2). -/
def State.resultOr (s : State) (st r : Word64) : Word64 × State :=
  if bits st 1 0 = 0 then (r, s) else s.draw

/-- The content of field DEEP (R117, R199). -/
def deepField (l : List Nat) : Word64 :=
  BitVec.ofNat 64 (packNat [(12, l.getD 3 0), (12, l.getD 2 0), (12, l.getD 1 0), (12, l.getD 0 0), (4, min 15 l.length)] 0)

/-- Fields PKT and LTYPES (R199). -/
def pktField (p : Staged) : Word64 :=
  BitVec.ofNat 64 (packNat [(12, p.bucket), (12, p.pkt.chan), (7, p.pkt.port), (14, p.pkt.bytes.length)] 0)
def ltypesField (ls : List (Nat × Nat)) : Word64 := ls.foldl (fun v l => putBits v l.1 l.1 1) 0

/-- What the front end makes of a packet: its lookups' statuses and results, whether a key is MISSING, and the
ingress counter of a packet it drops (R114, R115, R141, R191). -/
structure Front where
  fields : List (Nat × Word64)
  missing : Bool
  lost   : Option Nat

/-- Adds a lookup's outcome: its status and result fields. -/
def Front.add (f : Front) (sel : Nat) (miss : Bool) (r : LkRes) (s : State) : Front × State :=
  match r with
  | .val st v =>
    let q := s.resultOr st v
    ({ f with fields := f.fields ++ [(sel, st), (sel + 1, q.1)], missing := f.missing || miss }, q.2)
  | .lost c => ({ f with lost := some (f.lost.getD c), missing := f.missing || miss }, s)

/-- The three front-end lookups of an ingress packet under its bank and profile (R114, R136, R145, R178). -/
def State.frontEnd (s : State) (slice : Nat) (bank : RuleBank) (p : Staged) (ls : List (Nat × Nat)) (flt : ReadFaults) :
    Front × State :=
  let w1 := bank.profile p.pkt.chan 1
  let tmpl (i : Nat) : List Word := tget nil0 bank.templates i
  let tl := tmpl (bits w1 17 12)
  let tx := tmpl (bits w1 11 6)
  let ta := tmpl (bits w1 5 0)
  let kl := templateKey p.pkt.bytes ls tl
  let kx := templateKey p.pkt.bytes ls tx
  let ka := templateKey p.pkt.bytes ls ta
  let f : Front := ⟨[], false, none⟩
  let (f, s) := if makesLookup tl then
      let r := (s.count 0x06 (bits w1 17 12) 0 (some (64 + slice)) none 0).lpmLookup p.pkt.chan kl.1 kl.2 flt.lpm; f.add 3 kl.2 r.1 r.2
    else f.add 3 false (.val 2 0) s
  let (f, s) := if makesLookup tx then
      let r := (s.count 0x06 (bits w1 11 6) 1 (some (64 + slice)) none 0).exactLookup slice (bits w1 11 6) p.pkt.port p.pkt.chan kx.1 kx.2 flt.exact; f.add 5 kx.2 r.1 r.2
    else f.add 5 false (.val 2 0) s
  if makesLookup ta then
    let r := (s.count 0x06 (bits w1 5 0) 2 (some (64 + slice)) none 0).ascLookup bank (bits w1 5 0) ka.1 ka.2 flt.asc; f.add 7 ka.2 r.1 r.2
  else f.add 7 false (.val 2 0) s

/-- A fresh thread. -/
def State.newThread (s : State) (slice : Nat) (eg : Option EgInfo) (p : Staged) (ver chan pc : Nat) : Thread × State :=
  let q := s.draw
  ({ id := s.fd.eng.nextId, slice, eg, pkt := p, ver, chan, regs := List.replicate 16 0, pc, cycles := 0, looks := 0,
     layers := [], inputs := [], lkstat := q.1, queue := none, mc := false, colour := 0, colSet := false, ct := true,
     emeta := 0, meter := none, counter := none, edits := [], wait := none, done := none, frag := none },
   q.2.setEng { q.2.fd.eng with nextId := s.fd.eng.nextId + 1 })

/-- Starts a thread, dropping its packet where its entry is in no loaded program (R210). -/
def State.startThread (s : State) (t : Thread) : State :=
  let s := s.setEng { s.fd.eng with threads := s.fd.eng.threads ++ [t] }
  if s.cfg.fd.hasEntry t.pc then s
  else ((t.bump 15 24 s).postOnce 0x0C6 0 [d16 t.chan]).finishThread t .drop

/-- An ingress packet is classified and goes to its action program (R111 to R117, R126). -/
def State.classify (s : State) (slice : Nat) (p : Staged) (frag : Option (List Byte × Nat × Nat × Bool))
    (flt : ReadFaults) : State :=
  let bank := s.bankOf s.curVer
  let w0 := bank.profile p.pkt.chan 0
  let (st, ls, e) := parsePacket bank.states bank.trans p.pkt.bytes (bits w0 31 22)
  if st = .short then (s.drop 0 p.pkt.port 6 slice p.pkt.bytes.length).leave p
  else
    let s := if st ≠ .ok ∧ bit w0 6 then s.punt (ingressPunt (st.code - 1) true slice s.curVer 0 p) else s
    let deep := if s.deepSlices.contains slice && s.isDeep p.pkt.chan then deepMatches bank.patterns p.pkt.bytes e else []
    let (f, s) := s.frontEnd slice bank p ls flt
    match f.lost with
    | some c => (s.drop 0 p.pkt.port c slice p.pkt.bytes.length).leave p
    | none =>
      let (t, s) := s.newThread slice none p s.curVer p.pkt.chan (bits w0 21 8)
      let inputs := [(0, BitVec.ofNat 64 (st.code + 4 * b01 f.missing)), (1, pktField p), (2, ltypesField ls)] ++ f.fields
        ++ [(9, deepField deep), (10, (p.hash.setWidth 64 : Word64)), (12, 0), (13, 0)]
      s.startThread { t with layers := ls, inputs, frag }

/-- A later fragment of a resolved entry takes its place in the order of its half, its program not run (R131). -/
def State.followThread (s : State) (slice : Nat) (p : Staged) (r : FragRes) : State :=
  let (o, s) := s.followRes p r
  let (t, s) := s.newThread slice none p r.ver p.pkt.chan 0
  let t := { t with queue := some o.queue, mc := o.mc, colour := o.colour, ct := o.ct, emeta := o.emeta }
  (s.setEng { s.fd.eng with threads := s.fd.eng.threads ++ [t] }).finishThread t r.verdict

/-- A fragment meets the fragment table (R131, R132). -/
def State.fragment (s : State) (slice : Nat) (p : Staged) (i : FragInfo) (flt : ReadFaults) : State :=
  let chan := p.pkt.chan
  match s.fragOf chan i.key with
  | some f =>
    match f.res with
    | some r => ((s.fragUpd chan i.key (·.note i.off i.len i.mf)).followThread slice p r).fragSweep
    | none =>
      if i.off = 0 then s.classify slice p (some (i.key, i.off, i.len, i.mf)) flt
      else if 1024 ≤ s.fragPool then (s.postOnce 0x085 0 []).orphan slice s.curVer p
      else s.fragUpd chan i.key (fun f => { f.note i.off i.len i.mf with held := f.held ++ [(slice, p)] })
  | none =>
    if i.off = 0 then s.classify slice p (some (i.key, i.off, i.len, i.mf)) flt
    else if 16384 ≤ s.fd.frags.length then (s.postOnce 0x084 0 []).orphan slice s.curVer p
    else if 1024 ≤ s.fragPool then (s.postOnce 0x085 0 []).orphan slice s.curVer p
    else
      let f : Frag := ⟨chan, i.key, s.mono, none, 0, none, [(slice, p)]⟩
      s.setFrags (s.fd.frags ++ [f.note i.off i.len i.mf])

/-- Threads of a half whose programs run. -/
def State.busyThreads (s : State) (slice : Nat) (eg : Bool) : Nat :=
  (s.fd.eng.threads.filter (fun t => t.slice == slice && t.eg.isSome == eg && t.done.isNone)).length

/-- INGRESS_DISPATCH (R104, R111, R129, R197): the packet at the head of a slice's staging FIFO. -/
def execIngressDispatch (slice : Fin 16) (flt : ReadFaults) (s : State) : Out :=
  match tget nil0 s.fd.gang.staging slice with
  | [] => .next s
  | p :: q =>
    if !s.hasPhys slice || s.domain (ingressDomain (s.physOf slice)) ≠ 0 || s.xbarHeld slice || (s.engOf (s.physOf slice)).ein * 4 ≤ s.busyThreads slice false then .next s
    else
      let s := s.setGang { s.fd.gang with staging := tset nil0 s.fd.gang.staging slice q }
      let w0 := (s.bankOf s.curVer).profile p.pkt.chan 0
      .next (match (if s.rf 0x7F060600 31 31 = 1 && bit w0 7 then fragInfo (s.cfgReg 0x7F040000) p.pkt.bytes else none) with
        | some i => s.fragment slice p i flt
        | none => s.classify slice p none flt)

/-- FRAG_ENTRY_EXPIRE (R130, R131): the entry at this place of the table, 2 ms after its creation. -/
def execFragEntryExpire (i : Nat) (s : State) : Out :=
  match s.fd.frags[i]?.filter (fun f => f.created + ms 2 ≤ s.mono) with
  | some f =>
    let s := s.setFrags (s.fd.frags.filter (fun x => !(x.chan == f.chan && x.key == f.key)))
    .next (f.held.foldl (fun s h => s.orphan h.1 s.curVer h.2) s)
  | none => .next s

/-- A packet whose parse ended in `st`, with layers `ls`, starts its egress thread (R28, R113, R122, R199). -/
def State.enterEgress (s : State) (slice : Nat) (p : Staged) (e : EgInfo) (st : PStatus) (ls : List (Nat × Nat)) : State :=
  let ver := s.curVer
  let bank := s.bankOf ver
  let (t, s) := s.newThread slice (some e) p ver e.chan (bits (bank.profile e.chan 1) 31 18)
  let t := { t with layers := ls, emeta := e.emeta, inputs :=
    [(0, BitVec.ofNat 64 st.code), (1, pktField p), (2, ltypesField ls), (9, 0),
     (10, ((flowHash (s.cfgReg 0x7F040000) p.pkt.chan p.pkt.bytes).setWidth 64 : Word64)), (12, BitVec.ofNat 64 (packNat [(2, e.colour), (16, e.ruleVer), (18, e.queue)] 0)),
     (13, (e.emeta.setWidth 64 : Word64))] }
  let s := if st ≠ .ok ∧ bit (bank.profile e.chan 0) 6 then s.punt (t.puntRec (st.code - 1) true) else s
  s.startThread t

/-- EGRESS_DISPATCH (R28, R113, R114, R199): the packet at the head of an egress half. -/
def execEgressDispatch (slice : Fin 16) (s : State) : Out :=
  match tget nil0 s.fd.eng.egress slice with
  | [] => .next s
  | (p, e) :: q =>
    if !s.hasPhys slice || s.domain (ingressDomain (s.physOf slice) + 1) ≠ 0 || (s.engOf (s.physOf slice)).eeg * 4 ≤ s.busyThreads slice true then .next s
    else
      let s := s.setEng { s.fd.eng with egress := tset nil0 s.fd.eng.egress slice q }
      let bank := s.bankOf s.curVer
      let (st, ls, _) := parsePacket bank.states bank.trans p.pkt.bytes (bits (bank.profile e.chan 0) 31 22)
      .next (if st = .short then (s.bump 1 e.node 21 1).unsend e.node p.pkt.bytes.length else s.enterEgress slice p e st ls)

end Sys2Proof.Machine
end

