-- ==== Sys2Proof/Machine/Role.lean ====
section
/-! DEFINITION. The role of a pair member: the mode it puts in effect, the conditions under which it may claim or must
drop the role, and the interlock and referee rows (R317 to R332, R348). -/

namespace Sys2Proof.Machine

/-- Puts the pair. -/
def State.setPair (s : State) (p : Pair) : State := { s with pair := p }

/-- A link of the fabric is enabled (R295). -/
def State.linkEn (s : State) (l : Nat) : Bool := bit (s.cfgReg (0xBF250020 + 4 * (l / 32))) (l % 32)

/-- FABRIC powers up, and the enabled links begin to hunt (R295, R475, R486). -/
def State.fabricWake (s : State) : State :=
  if s.domain 8 = 0 then s
  else
    let s := s.setDomain 8 0
    let on := (List.range 192).filter s.linkEn
    { s with td := { s.td with fab := { s.td.fab with
        links := on.foldl (fun t l => tset dflt t l { (default : FLink) with st := 1 }) [] } } }

/-- FABRIC powers down, and its links and transmit groups lose what they hold (R26, R476). -/
def State.fabricDown (s : State) : State :=
  if s.domain 8 = 2 then s
  else
    let s := s.setDomain 8 2
    { s with td := { s.td with fab := { s.td.fab with
        links := [], sent := [], streams := [], lastLink := [], altern := [], lastDest := [] } } }

/-- What a mode asks of the fabric lanes (R26). -/
def State.fabricFor (s : State) (m : Mode) : State :=
  if m = Mode.active || m = Mode.standby then s.fabricWake else if m = Mode.standalone then s.fabricDown else s

/-- A mode takes effect (R26, R317, R318, R485): with pair operation disabled the balls follow it. -/
def State.enterMode (s : State) (m : Mode) : State :=
  let old := s.pwr.mode
  if old = m then s
  else
    let s := { s with pwr := { s.pwr with
        mode := m, before := if m = Mode.drain then old else s.pwr.before
        drainAt := if m = Mode.drain then s.mono else s.pwr.drainAt } }
    let s := s.post 0x004 [d16 (modeCode old), d16 (modeCode m)]
    let s := s.fabricFor m
    if s.cfg.pair.en then s
    else
      let on := m == .active
      { s with pair := { s.pair with act := on }, pins := { s.pins with ilkOwn := on, osel := on } }

/-! ## Conditions -/

/-- The last valid verdict allows this side (R331). -/
def State.allowsSide (s : State) : Bool := s.pair.allow.getLsbD (if s.pair.sideB then 0 else 1)

/-- Fabric links in service (R295). -/
def State.fabLinks (s : State) : Nat := (s.td.fab.links.filter (fun x => x.2.inServ)).length

/-- A condition of YIELD_MASK holds (R319). -/
def State.yieldCond (s : State) : Bool :=
  let m := s.cfg.pair.yieldMask
  (bit m 0 && s.fabLinks < 147) || (bit m 1 && s.modules < 17) || (bit m 2 && s.alarm)
    || (bit m 3 && slices.any (fun l => !s.hasPhys l))

/-- The referee permits this side to take the role (R323). -/
def State.refPermits (s : State) : Bool :=
  !s.cfg.pair.refEn || (if s.pair.refOk then s.allowsSide
    else !s.pair.sideB || (s.pair.tetherUp && s.pair.refused == 0 && s.mono ≤ s.pair.peerAt + 100000
      && match s.pair.peer with | some p => !bit p.health 54 | none => false))

/-- STFAIL (R348). -/
def State.stfail (s : State) : Bool := !s.pair.failing.isEmpty

/-- No condition of YIELD_MASK, STFAIL or the referee blocks a claim (R330). -/
def State.unblocked (s : State) : Bool := !s.yieldCond && (!s.stfail || s.allowsSide) && s.refPermits

/-- Every condition of R323 but the claim itself (R327). DEDUCED (log 113): a member that has yielded claims by no means for 10 ms,
so a MODE_SET to ACTIVE fails with BUSY (R328). -/
def State.claimConds (s : State) : Bool := !s.pair.peerIlk && s.unblocked && !s.pair.yielded

/-- A MODE_SET to ACTIVE is a claim that runs (R327). -/
def State.claimCmd (s : State) : Option ModeReq :=
  match s.pwr.modeReq with
  | some r => if r.target = .active && s.cfg.pair.en then some r else none
  | none => none

/-- The member claims the role by itself (R323, R326, R328). -/
def State.autoClaims (s : State) : Bool :=
  s.pwr.mode == .standby && s.cfg.pair.auto && !s.pair.barred && !s.pair.yielded

/-- CLAIM of R330. -/
def State.claims (s : State) : Bool :=
  s.cfg.pair.en && !s.pair.act && (s.claimCmd.isSome || s.autoClaims) && s.unblocked

/-! ## Taking and dropping the role -/

/-- The member stops acting (R322, R324); unless a MODE_SET or a power-down names another mode, it enters STANDBY. -/
def State.dropRole (s : State) (cause : Nat) : State :=
  if !s.cfg.pair.en || !s.pair.act then s
  else
    let s := { s with
      pair := { s.pair with act := false, lastDrop := cause, roleTime := s.now, barred := s.pair.barred || cause == 6 }
      pins := { s.pins with ilkOwn := false, osel := false } }
    let s := s.post 0x191 [d16 cause]
    if cause ≠ 2 && cause ≠ 7 then s.enterMode .standby else s

/-- The member starts acting (R322): data 0 by the interlock, 1 by a MODE_SET. -/
def State.takeRole (s : State) (why : Nat) : State :=
  let s := { s with
    pair := { s.pair with act := true, roleTime := s.now, holdoff := none }
    pins := { s.pins with ilkOwn := true, osel := true } }
  (s.enterMode .active).post 0x190 [d16 why]

/-- Ends a MODE_SET that runs, with its reply where it has not been sent. -/
def State.endModeReq (s : State) (r : ModeReq) (code : Byte) : State :=
  let s := { s with pwr := { s.pwr with modeReq := none } }
  match r.cmd with
  | some c => s.finish c.op c.hdr c.par.length code []
  | none => s

/-- Every condition of R323 holds: the hold-off runs. -/
def State.holdsOff (s : State) : Bool :=
  s.cfg.pair.en && !s.pair.act && s.claimConds && (match s.claimCmd with | some r => r.prepared | none => s.autoClaims)

/-- The hold-off begins, runs on, or ends at a condition that fails (R323). -/
def State.noteHoldoff (s : State) : State :=
  s.setPair { s.pair with holdoff := if s.holdsOff then some (s.pair.holdoff.getD s.mono) else none }

/-- The hold-off has run its time: 2.0 µs on side A, 3.0 µs on side B (R323). -/
def State.heldOff (s : State) : Bool :=
  match s.pair.holdoff with
  | some t => t + (if s.pair.sideB then 3000 else 2000) ≤ s.mono
  | none => false

/-- The role is judged anew (R323, R324, R327): an acting member may have to drop it, a claim by command may fail, and the hold-off
begins or breaks. -/
def State.judgeRole (s : State) : State :=
  if !s.cfg.pair.en then s
  else if s.pair.act then (if s.yieldCond then s.dropRole 5 else s)
  else (match s.claimCmd with
    | some r => if s.claimConds then s else s.endModeReq r codeBusy
    | none => s).noteHoldoff

/-- An event that reports a condition of YIELD_MASK (R319). -/
def State.postYield (s : State) (src : Nat) (items : List (Nat × Nat)) : State := (s.post src items).judgeRole

/-- The tether goes down (R336). -/
def State.tetherDown (s : State) : State :=
  if s.pair.tetherUp then
    ((s.setPair { s.pair with tetherUp := false, statusFrom := none, formed := false, refused := 0 }).post 0x197 []).judgeRole
  else s

/-- A tether lane leaves or enters service (R333, R336). -/
def State.tetherLane (s : State) (lane : Nat) (on : Bool) : State :=
  if s.pair.lanes.getLsbD lane = on then s
  else
    let s := (s.setPair { s.pair with lanes := putBits s.pair.lanes lane lane (b01 on) }).post 0x199 [d16 lane, d16 (b01 on)]
    if s.pair.lanes = 0 then s.tetherDown else s

/-! ## The interlock (R321 to R327) -/

/-- Recognises whether both lines are high (R325). -/
def State.judgeConflict (s : State) : State :=
  if !s.cfg.pair.en then s
  else if s.pair.act && s.pair.peerIlk then
    if s.pair.conflict then s
    else
      let s := (s.setPair { s.pair with conflict := true }).post 0x192 [d16 1]
      if s.pair.sideB then s.dropRole 4 else s
  else s.setPair { s.pair with conflict := false }

/-- ILK_PEER_CHANGE (R318, R321, R325). -/
def execIlkPeerChange (level : Bool) (s : State) : Out :=
  let s := { s with pair := { s.pair with peerIlk := level }, pins := { s.pins with ilkPeer := level } }
  .next s.judgeConflict.judgeRole

/-- A self-test item fails and is not repaired (R348, R349). -/
def State.itemFails (s : State) (item : Nat) : State :=
  if s.pair.failing.contains item then s
  else (s.setPair { s.pair with
    failing := s.pair.failing ++ [item], failures := min 255 (s.pair.failures + 1), lastItem := item }).post 0x19F [d16 item]

/-- ILK_READBACK_FAULT (R326, R348): one that holds is logged again only on a member that acts again. -/
def execIlkReadbackFault (osel : Bool) (s : State) : Out :=
  let p := s.pair
  if (if osel then p.oselFault else p.ownFault) && !p.act then .next s
  else
    let s := s.setPair (if osel then { p with oselFault := true } else { p with ownFault := true })
    let s := (s.post 0x193 [d16 (b01 osel)]).dropRole 6
    .next (s.itemFails 5).judgeRole

/-- INTERLOCK_HOLDOFF_EXPIRE (R323, R327): the hold-off has run out while every condition held. -/
def execInterlockHoldoffExpire (s : State) : Out :=
  if !s.holdsOff || !s.heldOff then .next s
  else match s.claimCmd with
    | some r => .next ((s.takeRole 1).endModeReq r codeOk)
    | none => .next (s.takeRole 0)

/-- YIELD_BLOCK_EXPIRE (R328): 10 ms after the yield. -/
def execYieldBlockExpire (s : State) : Out :=
  .next (if s.pair.yielded && s.pair.yieldAt + ms 10 ≤ s.mono then (s.setPair { s.pair with yielded := false }).judgeRole else s)

/-! ## The referee (R329 to R332) -/

/-- Why a VERDICT frame is not valid, as in event 0x196: 0 CRC, 1 complement, 2 FTYPE (R331). -/
def verdictBad (f : Word64) : Option Nat :=
  if bits f 7 0 ≠ (crc8From 0xFF#8 (beBytes 7 (bits f 63 8))).toNat then some 0
  else if bits f 63 60 ≠ 9 then some 2
  else if bits f 55 54 + bits f 53 52 ≠ 3 || bits f 51 36 + bits f 35 20 ≠ 0xFFFF then some 1
  else none

/-- The referee link is in use (R318, R319): the TETHER domain is on. -/
def State.refOn (s : State) : Bool := s.cfg.pair.en && s.cfg.pair.refEn && s.domain 9 == 0

/-- REFEREE_VERDICT_RECEIVE (R331, R332, R324). -/
def execRefereeVerdictReceive (frame : Word64) (s : State) : Out :=
  if !s.refOn then .next s
  else match verdictBad frame with
    | some why =>
      let p := s.pair
      .next ((s.setPair { p with counts := tset z p.counts 2 (tget z p.counts 2 + 1) }).postOnce 0x196 0 [d16 why])
    | none =>
      let allow := BitVec.ofNat 2 (bits frame 55 54)
      let was := s.pair.allow
      let s := if s.pair.refLost then s.post 0x195 [d16 (bits frame 51 36)] else s
      let s := s.setPair { s.pair with refOk := true, refLost := false, verdictAt := s.mono, allow, verdict := frame }
      let s := if allow = was then s else s.post 0x1A2 [d16 allow.toNat]
      let s := if s.allowsSide then s else s.dropRole 3
      .next s.judgeRole

/-- REFEREE_TIMEOUT (R332): no valid verdict within REF_TMO. -/
def execRefereeTimeout (s : State) : Out :=
  .next (if s.refOn && !s.pair.refLost && s.pair.verdictAt + ms s.cfg.pair.refTmo ≤ s.mono then
      ((s.setPair { s.pair with refOk := false, refLost := true }).post 0x194 []).judgeRole
    else s)

/-- STANDBY_SELFTEST_ROUND (R348, R349): items 4 and 9 run only on a member that does not act. Item 9 passes by what the sweeps since its
last round compared. -/
def execStandbySelftestRound (item : Fin 9) (pass : Bool) (s : State) : Out :=
  let k := item.val + 1
  let runs := s.cfg.pair.en && (s.pwr.mode == .standby || (s.pwr.mode == .active && k != 4 && k != 9))
  if !runs then .next s
  else
    let good := if k = 9 then !s.pair.mirrorOff else pass
    let s := s.setPair { s.pair with
      rounds := min 65535 (s.pair.rounds + 1), mirrorOff := if k = 9 then false else s.pair.mirrorOff }
    if good then
      let p := s.pair
      let p := if k = 5 then { p with ownFault := false, oselFault := false } else p
      .next (s.setPair { p with failing := p.failing.filter (· != k) }).judgeRole
    else .next (s.itemFails k).judgeRole

end Sys2Proof.Machine
end

