-- ==== Sys2Proof/Machine/Actions.lean ====
section
/-! DEFINITION. The action instruction set: how a thread fetches and issues an instruction, and what each
instruction does (R199 to R203, R206, R215, R216, R583). -/

namespace Sys2Proof.Machine

/-! ## Control-store parity (R215, R216, R583) -/

/-- Records an occurrence in its source's count without a new log entry (R215, R543). -/
def State.countOnly (s : State) (src : Nat) : State :=
  { s with ev := { s.ev with flight := s.ev.flight ++ [⟨src, 0, s.time.dev, true⟩] } }

/-- The least of a list by a measure, the first of equals. -/
def leastBy (f : Nat → Nat) : List Nat → Option Nat
  | [] => none
  | a :: l =>
    match leastBy f l with
    | some b => some (if f b < f a then b else a)
    | none => some a

/-- Slices in service that a bucket may go to: deep ones for a deep bucket while one is left (R116, R583). -/
def State.homesFor (s : State) (b : Nat) : List Nat :=
  let ok := slices.filter (fun l => s.hasPhys l && s.sliceSt l = 0)
  let deep := ok.filter s.deepSlices.contains
  if s.deepOn && deepBucket b && !deep.isEmpty then deep else ok

/-- Targets for buckets in turn: each the slice with the lowest u, counting the load already moved (R479, R583). -/
def State.targets (s : State) (without : Nat) : List Nat → Tab Nat → List (Nat × Nat)
  | [], _ => []
  | b :: bs, use =>
    match leastBy (tget zn use) ((s.homesFor b).filter (· != without)) with
    | some t => (b, t) :: s.targets without bs (tset zn use t (tget zn use t + tget zn s.fd.gang.load b))
    | none => s.targets without bs use

/-- The buckets that map to a slice. -/
def State.bucketsOf (s : State) (l : Nat) : List Nat := (List.range 4096).filter (fun b => s.bucketSlice b == l)

/-- Drops every packet in a fenced slice's ingress and egress half (R583). -/
def State.dropSlice (s : State) (l : Nat) : State :=
  let g := s.fd.gang
  let st := tget nil0 g.staging l
  let s := st.foldl (fun s p => (s.drop 0 p.pkt.port 16 l p.pkt.bytes.length).leave p) (s.setGang { g with staging := tset nil0 g.staging l [] })
  let mine := s.fd.eng.threads.filter (·.slice == l)
  let s := s.setEng { s.fd.eng with threads := s.fd.eng.threads.filter (·.slice != l) }
  let s := mine.foldl (fun s t =>
    let s := t.bump 16 25 s
    match t.eg with
    | none => s.leave t.pkt
    | some e => s.unsend e.node t.pkt.pkt.bytes.length) s
  let out := tget nil0 s.fd.eng.egress l
  let s := out.foldl (fun s x => (s.bump 1 x.2.node 25 1).unsend x.2.node x.1.pkt.bytes.length)
    (s.setEng { s.fd.eng with egress := tset nil0 s.fd.eng.egress l [] })
  let held := s.fd.frags.flatMap (fun f => (f.held.filter (·.1 == l)).map (·.2))
  let s := s.setFrags (s.fd.frags.map (fun f => { f with held := f.held.filter (·.1 != l) }))
  held.foldl (fun s p => (s.drop 0 p.pkt.port 16 l p.pkt.bytes.length).leave p) s

/-- A fenced slice without a spare: its packets are dropped, moves toward it end, and its buckets begin to move to the other slices
by R105 (R583). -/
def State.fenceDrain (s : State) (l : Nat) : State :=
  let bs := s.bucketsOf l
  let s := (s.dropSlice l).setSliceSt l 3
  let s := s.setGang { s.fd.gang with phys := tset idn s.fd.gang.phys l 0x1F, st := tset zn s.fd.gang.st l 2 }
  let s := (s.fd.gang.moves.filter (·.target == l)).foldl (fun s m => s.dropMove m) s
  let g := s.fd.gang
  let s := s.setGang { g with
    drains := g.drains.filter (fun x => x.2 != l && !bs.contains x.1) ++ s.targets l (bs.filter (fun b => !g.moving b)) g.use }
  ((s.setGang s.fd.gang.gen2).postYield 0x0C2 [d16 l]).pumpMoves

/-- A spare physical slice is ready. -/
def State.spareSlice (s : State) : Bool := s.fd.gang.spare != 0x1F

/-- The spare takes a logical slice; the old physical slice is fenced and the life log records it (R216, R374, R541). -/
def State.sliceSwap (s : State) (l cause : Nat) : State :=
  let s := (s.abortBist true 0).abortBist false l
  let g := s.fd.gang
  let y := s.physOf l
  let x := g.spare
  let s := s.setGang { g.gen2 with phys := tset idn g.phys l x, spare := 0x1F, fenced := g.fenced ++ [y] }
  let s := s.setDomain (ingressDomain x) (s.supplied (ingressDomain y))
  let s := (s.setDomain (ingressDomain y) 2).setDomain (ingressDomain y + 1) 2
  let s := s.setEng { s.fd.eng with
    mchk := s.fd.eng.mchk.filter (· != l), rewriting := tset none0 s.fd.eng.rewriting l none }
  s.substitute 1 cause (lifeLoc 1 l 0 0) y x

/-- A double fault in a slice (R216, R541, R583). -/
def State.doubleFault (s : State) (l : Nat) : State :=
  let y := s.physOf l
  let s := s.post 0x0C1 [d16 l, d16 y]
  if s.spareSlice then s.sliceSwap l 3
  else
    let g := s.fd.gang
    let s := s.setGang { g with fenced := g.fenced ++ [y] }
    let s := s.recordLife 15 3 (lifeLoc 1 l 0 0) y noUnit 0
    let s := (s.setDomain (ingressDomain y) 2).setDomain (ingressDomain y + 1) 2
    s.fenceDrain l

/-- A fetch finds a parity error (R215, R216): another fetch of a word that is still being rewritten counts under
the same event; otherwise MCHK decides between a machine check and a double fault. -/
def State.parityError (s : State) (l addr : Nat) : State :=
  let again := match tget none0 s.fd.eng.rewriting l with
    | some (a, t) => a == addr && s.mono < t + 2000
    | none => false
  if again then s.countOnly 0x0C0
  else
    let s := s.setEng { s.fd.eng with rewriting := tset none0 s.fd.eng.rewriting l (some (addr, s.mono)) }
    if s.fd.eng.mchk.contains l then s.doubleFault l
    else (s.setEng { s.fd.eng with mchk := s.fd.eng.mchk ++ [l] }).post 0x0C0 [d16 l, d16 addr]

/-! ## Issue -/

/-- What an instruction leaves of its thread. -/
inductive Issued
  /-- The thread goes on. -/
  | on (t : Thread)
  /-- The program ends (R203). -/
  | fin (t : Thread) (v : Verdict)
  /-- A program fault with the cause of event 0x0C7 (R203). -/
  | fault (cause : Nat)
  /-- The packet is dropped; in an ingress half an ingress counter counts it (R141, R191, R407). -/
  | lost (counter : Nat)

/-- A general register; none beyond G15 (R199, R209). -/
def Thread.reg (t : Thread) (i : Nat) : Word64 := t.regs.getD i 0
/-- A general register set. -/
def Thread.setReg (t : Thread) (i : Nat) (v : Word64) : Thread := { t with regs := t.regs.set i v }
/-- The next instruction. -/
def Thread.step (t : Thread) : Thread := { t with pc := t.pc + 1 }
/-- `n` bytes held in registers from G(a) onward, most significant first (R201). -/
def Thread.regBytes (t : Thread) (a n : Nat) : List Byte :=
  ((List.range ((n + 7) / 8)).flatMap (fun k => beBytes 8 (t.reg (a + k)).toNat)).take n

/-- A program fault (R203). -/
def State.progFault (s : State) (t : Thread) (cause : Nat) : State :=
  ((t.bump 14 23 s).postOnce 0x0C7 0 [d16 t.slice, d16 cause]).finishThread t .drop

/-- What an issued instruction leaves of its thread takes effect (R203). -/
def State.settle (s : State) (t : Thread) : Issued → State
  | .on u => s.putThread u
  | .fin u v => (s.putThread u).finishThread u v
  | .fault c => s.progFault t c
  | .lost c => (if t.eg.isNone then s.drop 0 t.pkt.pkt.port c t.slice t.pkt.pkt.bytes.length else s).finishThread t .drop

/-- A thread that may issue: its program runs and it waits for nothing. -/
def State.ready (s : State) (id : Nat) : Option Thread :=
  (s.thread id).filter (fun t => t.done.isNone && t.wait.isNone)

/-- Issues one action instruction (R197, R200, R203, R215): `cost` its issue cycles, `looks` whether it is one of
LKE, LKL, LKA and MTR, `eff` its operation. A row whose word is not the one at the thread's address changes
nothing. -/
def State.issue (opc : Nat) (x : ActOp) (cost : Thread → Nat) (looks : Bool) (eff : Thread → State → Issued × State)
    (s : State) : Out :=
  .next (match s.ready x.thread with
    | none => s
    | some t =>
      if !x.parity then
        let l := t.slice
        let pc := t.pc
        let s := (t.bump 18 26 s).finishThread t .drop
        s.parityError l pc
      else if s.codeWord t.pc ≠ insnWord x opc then s
      else
        let t := { t with cycles := t.cycles + cost t, looks := t.looks + b01 looks }
        if 1024 < t.cycles then s.progFault t 0
        else if 8 < t.looks then s.progFault t 1
        else
          let r := eff t s
          r.2.settle t r.1)

/-- The second operand (R200). -/
def opnd2 (x : ActOp) (t : Thread) : Word64 := if x.i then x.imm.setWidth 64 else t.reg x.b

/-- An instruction that sets D from the thread's registers alone. -/
def State.issueReg (opc cost : Nat) (x : ActOp) (f : Thread → Word64) (s : State) : Out :=
  s.issue opc x (fun _ => cost) false (fun t s => (.on (t.setReg x.d (f t)).step, s))

/-- ADD (R201). -/
def execAdd (x : ActOp) (s : State) : Out := s.issueReg 0x01 1 x (fun t => t.reg x.a + opnd2 x t)
/-- SUB (R201). -/
def execSub (x : ActOp) (s : State) : Out := s.issueReg 0x02 1 x (fun t => t.reg x.a - opnd2 x t)
/-- AND (R201). -/
def execAnd (x : ActOp) (s : State) : Out := s.issueReg 0x03 1 x (fun t => t.reg x.a &&& opnd2 x t)
/-- OR (R201). -/
def execOr (x : ActOp) (s : State) : Out := s.issueReg 0x04 1 x (fun t => t.reg x.a ||| opnd2 x t)
/-- XOR (R201). -/
def execXor (x : ActOp) (s : State) : Out := s.issueReg 0x05 1 x (fun t => t.reg x.a ^^^ opnd2 x t)
/-- SHL (R201). -/
def execShl (x : ActOp) (s : State) : Out := s.issueReg 0x06 1 x (fun t => t.reg x.a <<< bits (opnd2 x t) 5 0)
/-- SHR (R201). -/
def execShr (x : ActOp) (s : State) : Out := s.issueReg 0x07 1 x (fun t => t.reg x.a >>> bits (opnd2 x t) 5 0)
/-- MOVI (R201). -/
def execMovi (x : ActOp) (s : State) : Out := s.issueReg 0x08 1 x (fun _ => x.imm.setWidth 64)
/-- MOVH (R201). -/
def execMovh (x : ActOp) (s : State) : Out := s.issueReg 0x09 1 x (fun t => putBits (t.reg x.d) 63 32 x.imm.toNat)

/-- The field width of EXT and INS (R201). -/
def fieldW (x : ActOp) : Nat := bits x.imm 11 6 + 1
/-- The field place of EXT and INS (R201). -/
def fieldP (x : ActOp) : Nat := bits x.imm 5 0

/-- EXT (R201). -/
def execExt (x : ActOp) (s : State) : Out :=
  s.issueReg 0x0A 1 x (fun t => BitVec.ofNat 64 ((t.reg x.a).toNat / 2 ^ fieldP x % 2 ^ fieldW x))
/-- INS (R201). -/
def execIns (x : ActOp) (s : State) : Out :=
  s.issueReg 0x0B 2 x (fun t => putBits (t.reg x.d) (fieldP x + fieldW x - 1) (fieldP x) ((t.reg x.a).toNat % 2 ^ fieldW x))

/-- A compare's two numbers (R200, R201). -/
def cmpPair (x : ActOp) (t : Thread) : Nat × Nat :=
  ((t.reg x.a).toNat, if x.i then bits x.imm 31 16 else (t.reg x.b).toNat)

/-- A conditional branch (R201). -/
def State.branch (opc : Nat) (x : ActOp) (c : Nat → Nat → Bool) (s : State) : Out :=
  let taken (t : Thread) : Bool := c (cmpPair x t).1 (cmpPair x t).2
  s.issue opc x (fun t => if taken t then 2 else 1) false
    (fun t s => (.on { t with pc := if taken t then bits x.imm 13 0 else t.pc + 1 }, s))

/-- BEQ (R201). -/
def execBeq (x : ActOp) (s : State) : Out := s.branch 0x10 x (fun a b => a == b)
/-- BNE (R201). -/
def execBne (x : ActOp) (s : State) : Out := s.branch 0x11 x (fun a b => a != b)
/-- BLT (R201). -/
def execBlt (x : ActOp) (s : State) : Out := s.branch 0x12 x (fun a b => a < b)
/-- BGE (R201). -/
def execBge (x : ActOp) (s : State) : Out := s.branch 0x13 x (fun a b => b ≤ a)
/-- JMP (R201). -/
def execJmp (x : ActOp) (s : State) : Out :=
  s.issue 0x14 x (fun _ => 2) false (fun t s => (.on { t with pc := bits x.imm 13 0 }, s))

/-! ## Fields (R199) -/

/-- What LDF reads. An output field of an ingress thread reads as it stands; a field that the spec gives no value
is a free value (log 2). -/
def Thread.field (t : Thread) (sel : Nat) (s : State) : Word64 × State :=
  if 0x20 ≤ sel ∧ sel ≤ 0x24 ∧ t.eg.isSome then (0, s)
  else
    match sel with
    | 0x0B => (t.lkstat, s)
    | 0x20 => match t.queue with | some q => (BitVec.ofNat 64 q, s) | none => s.draw
    | 0x21 => (BitVec.ofNat 64 (b01 t.mc), s)
    | 0x22 => (BitVec.ofNat 64 t.colour, s)
    | 0x23 => (BitVec.ofNat 64 (b01 t.ct), s)
    | 0x24 => (t.emeta.setWidth 64, s)
    | _ => match tfind t.inputs sel with | some v => (v, s) | none => s.draw

/-- What STF writes; an input field ignores it. -/
def Thread.setField (t : Thread) (sel : Nat) (v : Word64) : Thread :=
  if t.eg.isSome then t
  else
    match sel with
    | 0x20 => { t with queue := some (bits v 17 0) }
    | 0x21 => { t with mc := bit v 0 }
    | 0x22 => { t with colour := bits v 1 0, colSet := true }
    | 0x23 => { t with ct := bit v 0 }
    | 0x24 => { t with emeta := BitVec.ofNat 32 (bits v 31 0) }
    | _ => t

/-- LDF (R201). -/
def execLdf (x : ActOp) (s : State) : Out :=
  s.issue 0x18 x (fun _ => 1) false
    (fun t s => let q := t.field (bits x.imm 7 0) s; (.on (t.setReg x.d q.1).step, q.2))

/-- STF (R201). -/
def execStf (x : ActOp) (s : State) : Out :=
  s.issue 0x19 x (fun _ => 1) false (fun t s => (.on (t.setField (bits x.imm 7 0) (t.reg x.a)).step, s))

/-- Bytes of a layer, zero when absent or beyond the window (R115, R201). -/
def Thread.layerBytes (t : Thread) (imm : Word) : Word64 :=
  let w := t.pkt.pkt.bytes
  let n := bits imm 2 0 + 1
  match layerAt t.layers (bits imm 31 26) (bits imm 25 24) with
  | some o =>
    let q := o + bits imm 23 16
    if q + n ≤ min 256 w.length then BitVec.ofNat 64 (beNat (bytesAt w q n)) else 0
  | none => 0

/-- LDH (R201). -/
def execLdh (x : ActOp) (s : State) : Out := s.issueReg 0x1A 2 x (fun t => t.layerBytes x.imm)

/-- HASH (R201, R581). -/
def execHash (x : ActOp) (s : State) : Out :=
  s.issueReg 0x1B 2 x (fun t => (crc32cFrom (0xFFFFFFFF#32 ^^^ x.imm)
    (beBytes 8 (t.reg x.a).toNat ++ beBytes 8 (t.reg x.b).toNat)).setWidth 64)

/-! ## Lookups and meters -/

/-- A lookup is issued: its result comes to the thread by its own step (R197, R201). -/
def State.issueLook (opc : Nat) (x : ActOp) (look : Thread → State → LkRes × State) (s : State) : Out :=
  s.issue opc x (fun _ => 2) true (fun t s =>
    let r := look t s
    match r.1 with
    | .val st v =>
      let q := r.2.resultOr st v
      (.on { t.step with wait := some ⟨x.d, q.1, some st, none⟩ }, q.2)
    | .lost c => (.lost c, r.2))

/-- LKE (R201). -/
def execLke (x : ActOp) (s : State) : Out :=
  s.issueLook 0x20 x (fun t s =>
    let tm := bits x.imm 5 0
    (s.count 0x06 tm 1 (some (64 + t.slice)) none 0).exactLookup t.slice tm t.pkt.pkt.port t.pkt.pkt.chan (t.regBytes x.a (if bit (s.tmap tm) 7 then 32 else 16)) false
      x.flt.exact)

/-- LKL (R136, R201). -/
def execLkl (x : ActOp) (s : State) : Out :=
  s.issueLook 0x21 x (fun t s => (s.count 0x06 0 0 (some (64 + t.slice)) none 0).lpmLookup t.pkt.pkt.chan (t.regBytes x.a 17) false x.flt.lpm)

/-- LKA (R173, R201). -/
def execLka (x : ActOp) (s : State) : Out :=
  s.issueLook 0x22 x (fun t s => (s.count 0x06 (bits x.imm 5 0) 2 (some (64 + t.slice)) none 0).ascLookup (s.bankOf t.ver) (bits x.imm 5 0) (t.regBytes x.a 80) false x.flt.asc)

/-- MTR (R201, R288). -/
def execMtr (x : ActOp) (s : State) : Out :=
  s.issue 0x28 x (fun _ => 2) true (fun t s =>
    let m := bits (t.reg x.a) 16 0
    let aware := bit x.imm 0
    let q := (s.count 0x06 0 3 (some (64 + t.slice)) none 0).meter m t.pkt.pkt.bytes.length aware t.colour x.flt.meter
    (.on { t.step with meter := some (m, aware), wait := some ⟨x.d, BitVec.ofNat 64 q.1, none, some q.1⟩ }, q.2))

/-- ACTION_LOOKUP_COMPLETE (R197, R201): the result comes to its thread. -/
def execActionLookupComplete (t : Nat) (s : State) : Out :=
  match s.thread t with
  | some u =>
    match u.wait with
    | some w =>
      let v := { u.setReg w.d w.value with
        wait := none, lkstat := w.lkstat.getD u.lkstat
        colour := if u.colSet then u.colour else w.colour.getD u.colour }
      .next (s.putThread v)
    | none => .next s
  | none => .next s

/-- CNT (R201, R398). -/
def execCnt (x : ActOp) (s : State) : Out :=
  s.issue 0x29 x (fun _ => 1) false (fun t s =>
    let c := bits (t.reg x.a) 23 0
    (.on { t.step with counter := some c }, s.flowCount c t.pkt.pkt.bytes.length))

/-- EDIT (R201 to R203). -/
def execEdit (x : ActOp) (s : State) : Out :=
  s.issue 0x2A x (fun _ => 1) false (fun t s =>
    if t.eg.isNone then (.fault 2, s)
    else if 8 ≤ t.edits.length then (.fault 4, s)
    else
      let b := t.reg x.b
      let e : EditOp := ⟨bits x.imm 31 28, t.reg x.a, b, t.regBytes x.a (bits b 4 0 + 1)⟩
      (.on { t.step with edits := t.edits ++ [e] }, s))

/-- PUNT (R126, R201). -/
def execPunt (x : ActOp) (s : State) : Out :=
  s.issue 0x30 x (fun _ => 1) false (fun t s =>
    let r := bits x.imm 5 0
    if bit x.imm 6 then (.on t.step, s.punt (t.puntRec r true)) else (.fin t (.punt r), s))

/-- FWD (R201, R203). -/
def execFwd (x : ActOp) (s : State) : Out :=
  s.issue 0x31 x (fun _ => 1) false (fun t s =>
    if t.eg.isNone && t.queue.isNone then (.fault 3, s) else (.fin t .fwd, s))

/-- DROP (R201). -/
def execDrop (x : ActOp) (s : State) : Out :=
  s.issue 0x32 x (fun _ => 1) false (fun t s => (.fin t .drop, t.bump 13 22 s))

/-! ## Engine retirement and scrub -/

/-- ENGINE_CHECK_FAIL (R198): the packets in the retired engine's threads are dropped; a spare takes its place. -/
def execEngineCheckFail (slice : Fin 16) (egress : Bool) (threads : List Nat) (s : State) : Out :=
  if !s.hasPhys slice || s.domain (ingressDomain (s.physOf slice) + b01 egress) ≠ 0 then .next s
  else
    let hit := (s.fd.eng.threads.filter (fun t =>
      t.slice == slice.val && t.eg.isSome == egress && t.done.isNone && threads.contains t.id)).take 4
    let s := hit.foldl (fun s t => (t.bump 16 25 s).finishThread t .drop) s
    let y := s.physOf slice
    let e := s.engOf y
    let put (e : Eng) (s : State) : State := s.setEng { s.fd.eng with eng := tset restEng s.fd.eng.eng y e }
    if 0 < e.spares then
      .next (((put { e with spares := e.spares - 1 } s).substitute 2 0 (lifeLoc 1 slice 0 0) y y).post 0x0C4 [d16 slice])
    else
      let s := put { e with ein := e.ein - 1 } s
      .next ((s.recordLife 2 0 (lifeLoc 1 slice 0 0) y noUnit (s.spareLeft 2)).post 0x0C5 [d16 slice, d16 (e.ein - 1)])

/-- CS_SCRUB_READ (R207, R214): the word that the scrub reads at an address of a slice's store; one whose parity fails is rewritten from
the golden copy. -/
def execCsScrubRead (slice : Fin 16) (addr : BitVec 14) (word : BitVec 68) (s : State) : Out :=
  let d := ingressDomain (s.physOf slice)
  .next (if (s.domain d ≠ 0 && s.domain (d + 1) ≠ 0) || parityOk word then s else s.post 0x0C3 [d16 slice, d16 addr.toNat])

end Sys2Proof.Machine
end

