-- ==== Sys2Proof/Machine/LineOps.lean ====
section
/-! DEFINITION. What the rest of the part asks of line ports and Span groups: their committed configuration, the
channels they carry, their rates and whether they are up (R45, R51, R76, R262, R269, R283). -/

namespace Sys2Proof

/-- A port's own loss of lock (R50, R56). -/
def PortDefect.isLock : PortDefect → Bool
  | .laneLock _ | .markerLock | .otnSignal | .otnFrame | .otnMultiframe => true
  | _ => false
/-- A fault of an Ethernet link (R47). -/
def PortDefect.isFault : PortDefect → Bool
  | .localFault | .remoteFault => true
  | _ => false
/-- A defect of a FlexE group: event 0x047 (R73). -/
def PortDefect.isGroup : PortDefect → Bool
  | .flexeFrame | .flexeMultiframe | .flexeMap | .flexeCalendar => true
  | _ => false
/-- A loss of frame or of multiframe of a FlexE group (R74). -/
def PortDefect.isGroupLoss : PortDefect → Bool
  | .flexeFrame | .flexeMultiframe => true
  | _ => false
/-- A section defect of an OTUCn (R76). -/
def PortDefect.isSection : PortDefect → Bool
  | .laneLock _ | .otnSignal | .otnFrame | .otnMultiframe | .otnSection _ => true
  | _ => false
/-- A client's own loss of lock (R56). -/
def PortDefect.isClient : PortDefect → Bool
  | .clientLock _ => true
  | _ => false
/-- What a port of a type and a number of lanes can show (R50). -/
def PortDefect.fits (type lanes : Nat) : PortDefect → Bool
  | .laneLock i => i.val < lanes && (type == 1 || type == 2 || type == 3)
  | .markerLock | .localFault | .remoteFault => type == 1 || type == 2
  | .flexeFrame | .flexeMultiframe | .flexeMap | .flexeCalendar => type == 2
  | .clientLock _ => type == 2 || type == 3
  | _ => type == 3
/-- The event of a standard defect's entry on a port of a type (R73). -/
def PortDefect.event (type : Nat) (d : PortDefect) : Nat :=
  if d.isGroup then 0x047 else if type = 3 then 0x048 else 0x046

end Sys2Proof

namespace Sys2Proof.Machine

/-- A committed port (R52). -/
def State.port (s : State) (p : Nat) : Option PortCfg := tget (fun _ => none) s.cfg.ports p
/-- A committed Span group (R79). -/
def State.span (s : State) (g : Nat) : Option SpanCfg := tget (fun _ => none) s.cfg.spans g
/-- A port as it runs, and a group. -/
def State.portRun (s : State) (p : Nat) : PortRun := tget (fun _ => default) s.line.ports p
def State.spanRun (s : State) (g : Nat) : SpanRun := tget (fun _ => default) s.line.spans g
/-- Puts the line side. -/
def State.setLine (s : State) (l : LineSide) : State := { s with line := l }
def State.putPortRun (s : State) (p : Nat) (r : PortRun) : State :=
  s.setLine { s.line with ports := tset (fun _ => default) s.line.ports p r }
def State.putSpanRun (s : State) (g : Nat) (r : SpanRun) : State :=
  s.setLine { s.line with spans := tset (fun _ => default) s.line.spans g r }

/-- Lanes of a port (R52). -/
def PortCfg.lanes (c : PortCfg) : Nat := 2 ^ c.width

/-- Committed ports with their numbers. -/
def State.portList (s : State) : List (Nat × PortCfg) :=
  s.cfg.ports.filterMap (fun x => x.2.map (fun c => (x.1, c)))
/-- Committed Span groups with their numbers. -/
def State.spanList (s : State) : List (Nat × SpanCfg) :=
  s.cfg.spans.filterMap (fun x => x.2.map (fun c => (x.1, c)))

/-- Members of a FlexE group in ascending port number (R48). -/
def State.flexe (s : State) (g : Nat) : List (Nat × PortCfg) :=
  s.portList.filter (fun x => x.2.type == 2 && x.2.group == g)

/-- The channels of a port's configuration (R51, R262). -/
def PortCfg.channels (c : PortCfg) : List Nat :=
  match c.type with
  | 1 => [c.base]
  | 2 | 3 => c.entries.map (fun w => bits w 31 20)
  | _ => []

/-- The port node of a port's channels (R261, R262). -/
def PortCfg.node (p : Nat) (c : PortCfg) : Nat := if c.type = 2 then 128 + c.group else p

/-- The port node that line configuration fixes for a channel (R262). -/
def State.fixedNode (s : State) (chan : Nat) : Option Nat :=
  match s.portList.find? (fun x => x.2.channels.contains chan) with
  | some (p, c) => some (PortCfg.node p c)
  | none => (s.spanList.find? (fun x => x.2.chan == chan)).map (fun x => 144 + x.1)

/-- Bytes per second of a port of a committed configuration: 200 Gb/s a lane (R45). -/
def PortCfg.rate (c : PortCfg) : Nat := 25000000000 * c.lanes

/-- Transmit entries of a group's calendar, K (R77). -/
def SpanCfg.ktx (c : SpanCfg) : Nat := (c.carriers.map (·.tx)).sum
def SpanCfg.krx (c : SpanCfg) : Nat := (c.carriers.map (·.rx)).sum

/-- The rate of a port node in bytes per second: its line rate, or its capacity (R77, R269). -/
def State.nodeRate (s : State) (n : Nat) : Nat :=
  if n < 128 then ((s.port n).map PortCfg.rate).getD 0
  else if n < 144 then ((s.flexe (n - 128)).map (fun x => x.2.rate)).sum
  else ((s.span (n - 144)).map (fun c => 3112750000 * c.ktx)).getD 0

/-- The locks that a port of a standard type has still to reach at ADMIN_UP (R50, R56). -/
def PortCfg.locks (c : PortCfg) : List PortDefect :=
  let lanes := (List.range c.lanes).map (fun i => PortDefect.laneLock (Fin.ofNat 8 i))
  match c.type with
  | 1 | 2 => lanes ++ [.markerLock]
  | 3 => lanes ++ [.otnSignal, .otnFrame, .otnMultiframe]
  | _ => []

/-- A port of a standard type has reached its locks (R56, R76). -/
def PortRun.locked (r : PortRun) : Bool := !r.seek.any (fun d => !d.isClient)

/-- An instance as received. -/
def State.inst (s : State) (port i : Nat) : Inst := tget (fun _ => default) s.line.insts (port * 64 + i)
/-- Puts an instance. -/
def State.putInst (s : State) (port i : Nat) (x : Inst) : State :=
  s.setLine { s.line with insts := tset (fun _ => default) s.line.insts (port * 64 + i) x }

/-- LINK of FD_FRAMER_PORTSTATp (R76). -/
def State.linkUp (s : State) (p : Nat) : Bool :=
  match s.port p with
  | none => false
  | some c =>
    let r := s.portRun p
    match c.type with
    | 1 | 2 => c.up && r.locked && !r.std.any (fun d => d.isLock || d.isFault)
    | 3 => c.up && r.locked && !r.std.any (·.isSection)
    | 4 => (List.range 64).any (fun i => (s.inst p i).acc)
    | _ => false

/-- UP of FD_SPAN_GRPSTATg. -/
def State.spanUp (s : State) (g : Nat) : Bool :=
  let r := s.spanRun g
  (s.span g).isSome && r.delin == .sync && !r.glos

/-- A port node is administratively up (R283); node p of a FlexE PHY or a Span carrier stands for no transmitter (R261). -/
def State.nodeAdmin (s : State) (n : Nat) : Bool :=
  if n < 128 then ((s.port n).map (fun c => c.up && (c.type == 1 || c.type == 3))).getD false
  else if n < 144 then (((s.flexe (n - 128)).head?).map (fun x => x.2.up)).getD false
  else ((s.span (n - 144)).map (·.up)).getD false

/-- A port node's link is up (R283). -/
def State.nodeLink (s : State) (n : Nat) : Bool :=
  s.nodeAdmin n &&
  (if n < 128 then s.linkUp n
   else if n < 144 then !(s.flexe (n - 128)).any (fun x => (s.portRun x.1).std.any (·.isGroup))
   else s.spanUp (n - 144))

end Sys2Proof.Machine
end

