-- ==== Sys2Proof/Machine/Align.lean ====
section
/-! DEFINITION. Manifest alignment between the members of a pair: markers, samples, and what a lost lock does
(R340 to R344). -/

namespace Sys2Proof.Machine

/-- A channel never enabled for alignment. -/
def restAlign (_ : Nat) : Align := ⟨false, false, none, true, true, true, true, 0, 0, [], none, none⟩
/-- Alignment of a channel. -/
def State.align (s : State) (c : Nat) : Align := tget restAlign s.pair.chans c
def State.putAlign (s : State) (c : Nat) (a : Align) : State :=
  { s with pair := { s.pair with chans := tset restAlign s.pair.chans c a } }

/-- A Span-group client (R340). -/
def State.spanChan (s : State) (c : Nat) : Bool := s.spanList.any (fun x => x.2.chan == c)

/-- Counts in TD_TETHER_CNTn. -/
def State.pairCount (s : State) (n k : Nat) : State :=
  { s with pair := { s.pair with counts := tset z s.pair.counts n (tget z s.pair.counts n + BitVec.ofNat 32 k) } }

/-- The channel's position (R55). -/
def State.chanPos (s : State) (c : Nat) : Nat := tget zn s.line.pos c
def State.putPos (s : State) (c v : Nat) : State :=
  s.setLine { s.line with pos := tset zn s.line.pos c (v % 2 ^ 48) }

/-- The holder is the member that has kept lock since the last alignment; when both or neither have, the acting member
(R341). -/
def State.holds (s : State) (a : Align) : Bool := if a.kept = a.peerKept then s.pair.act else a.kept

/-- The payload of a TTYPE 6 frame (R335). -/
def alignFrame (c kind : Nat) (t : Word64) (p : Nat) (ofs : Int) : List Byte :=
  beBytes 2 c ++ [BitVec.ofNat 8 kind, 0] ++ beBytes 8 t.toNat ++ beBytes 6 p ++ beBytes 6 (2 ^ 48 - 1 - p)
    ++ beBytes 4 (BitVec.ofInt 32 ofs).toNat ++ [0, 0, 0, 0]

/-- Tells the peer of a channel outside an alignment that runs. DESIGN CHOICE (log 114): no rule says how a member learns that the
other has lost lock, has it again, or has released the channel. A frame of KIND 3 with T and P zero tells a loss, the next one of KIND 3
lock again, and one of KIND 2 with T and P zero the release. -/
def State.tellAlign (s : State) (c kind : Nat) (t : Word64) (p : Nat) : State :=
  if s.pair.formed then s.tetherPut 6 (alignFrame c kind t p 0) else s

/-- A channel leaves alignment on a loss of lock of this member's framer; its count starts at a new origin (R56,
R343). -/
def State.chanLost (s : State) (c : Nat) : State :=
  let a := s.align c
  let s := (s.putPos c 0).putAlign c { a with markers := [] }
  if !a.enabled then s
  else
    let s := s.putAlign c { a with
      aligned := false, kept := false, lock := false, began := none, sent := none, markers := [], mismatches := 0 }
    let s := if a.lock then s.tellAlign c 3 0 0 else s
    if a.aligned then s.post 0x19C [d16 c] else s

/-- ALIGN_MARKER (R341, R343): an origin-kind marker of a channel, which says that lock holds; the holder's first one 100 µs after
alignment began goes to the peer. -/
def execAlignMarker (chan : Fin 4096) (t : Word64) (pos : BitVec 48) (s : State) : Out :=
  if !s.lineOn then .next s
  else
  let a := s.align chan
  let s := s.putPos chan pos.toNat
  let a := { a with markers := (a.markers ++ [(t, pos.toNat)]).drop (a.markers.length - 63) }
  if !a.enabled then .next (s.putAlign chan a)
  else if !a.lock then
    .next ((s.putAlign chan { a with lock := true, began := if a.peerLock then some s.now else none }).tellAlign chan 3 t pos.toNat)
  else
    let due := match a.began with
      | some b => b.toNat + 100000 ≤ t.toNat
      | none => false
    if due && s.pair.formed && s.holds a && a.sent.isNone && a.retryAt.isNone then
      .next ((s.putAlign chan { a with sent := some (t, pos.toNat) }).tetherPut 6 (alignFrame chan 1 t pos.toNat 0))
    else .next (s.putAlign chan a)

/-- ALIGN_RETRY_TIMER (R341): 1 s after three refusals in a row. -/
def execAlignRetryTimer (chan : Fin 4096) (s : State) : Out :=
  let a := s.align chan
  match a.retryAt with
  | some t => .next (if t ≤ s.mono then s.putAlign chan { a with retryAt := none, sent := none, began := some s.now } else s)
  | none => .next s

/-- A TTYPE 6 frame is applied (R341). -/
def State.takeAlign (s : State) (f : List Byte) : State :=
  let c := beNat (f.take 2) % 4096
  let kind := beNat ((f.drop 2).take 1)
  let t := beNat ((f.drop 4).take 8)
  let p := beNat ((f.drop 12).take 6)
  let a := s.align c
  if p + beNat ((f.drop 18).take 6) ≠ 2 ^ 48 - 1 then s.post 0x1A1 [d16 c]
  else if s.spanChan c then s
  else if kind = 1 then
    let want : Int := (t : Int) - s.cfg.pair.pathOfs
    let fits := a.markers.filter (fun m => (Int.natAbs ((m.1.toNat : Int) - want)) ≤ s.cfg.pair.alignWin * 100)
    let began := if a.enabled then a.began else some s.now
    let s := if a.aligned then s.post 0x19C [d16 c] else s
    let a := { a with aligned := false }
    match fits with
    | [m] =>
      let d := p + 2 ^ 48 - m.2
      let s := s.putPos c (s.chanPos c + d)
      let s := s.putAlign c { a with enabled := true, began, markers := a.markers.map (fun x => (x.1, (x.2 + d) % 2 ^ 48)) }
      s.tetherPut 6 (alignFrame c 2 (BitVec.ofNat 64 t) p ((m.1.toNat : Int) - t))
    | _ => (s.putAlign c { a with enabled := true, began }).tetherPut 6 (alignFrame c 3 (BitVec.ofNat 64 t) p 0)
  else if kind = 2 then
    if t = 0 && p = 0 then
      let s := s.putAlign c { restAlign c with markers := a.markers }
      if a.aligned then s.post 0x19C [d16 c] else s
    else s.putAlign c { a with refusals := 0 }
  else if kind = 3 then
    if t = 0 && p = 0 then
      let s := s.putAlign c { a with aligned := false, peerKept := false, peerLock := false, began := none, sent := none, mismatches := 0 }
      if a.aligned then s.post 0x19C [d16 c] else s
    else if !a.peerLock then s.putAlign c { a with peerLock := true, began := if a.lock then some s.now else none }
    else if a.refusals + 1 < 3 then s.putAlign c { a with refusals := a.refusals + 1, sent := none }
    else (s.putAlign c { a with refusals := 0, sent := none, retryAt := some (s.mono + ms 1000) }).post 0x19D [d16 c]
  else s

/-! ## The manifest check (R342) -/

/-- A pair of samples of a channel decides. -/
def State.sampleMeet (s : State) (c : Nat) (same : Bool) : State :=
  let a := s.align c
  if same then
    let s := s.pairCount 3 1
    let s := s.putAlign c { a with aligned := true, kept := true, peerKept := true, began := none, sent := none, mismatches := 0 }
    if a.aligned then s else s.post 0x19B [d16 c]
  else
    let s := s.pairCount 4 1
    if a.mismatches + 1 < 3 then s.putAlign c { a with mismatches := a.mismatches + 1 }
    else (s.putAlign c { a with aligned := false, mismatches := 0, began := some s.now, sent := none }).post 0x19E [d16 c]

/-- A sample of either member meets the other's samples of the last 1 ms. -/
def Sample.meets (x y : Sample) (mono : Nat) : Bool := x.chan == y.chan && x.crc == y.crc && mono < y.time + ms 1

/-- A packet of an enabled channel is sampled when its CRC-32C has bits [11:0] zero (R342). -/
def State.sample (s : State) (c : Nat) (man : BitVec 48) (bytes : List Byte) : State :=
  let crc := crc32c (bytes.take 64)
  if !(s.align c).enabled || !s.pair.formed || bits crc 11 0 ≠ 0 then s
  else
    let x : Sample := ⟨c, crc, man, s.mono⟩
    let s := s.tetherPut 7 (beBytes 2 c ++ beBytes 4 crc.toNat ++ beBytes 6 man.toNat ++ beBytes 6 (~~~ man).toNat ++ [0, 0])
    match s.pair.theirs.find? (x.meets · s.mono) with
    | some y =>
      let s := { s with pair := { s.pair with theirs := s.pair.theirs.erase y } }
      s.sampleMeet c (y.manifest == man)
    | none => { s with pair := { s.pair with mine := s.pair.mine ++ [x] } }

/-- The samples of a TTYPE 7 frame. -/
def samplesOf : Nat → List Byte → List (Nat × Word × BitVec 48 × BitVec 48)
  | 0, _ => []
  | n + 1, f =>
    if f.length < 20 then []
    else (beNat (f.take 2) % 4096, BitVec.ofNat 32 (beNat ((f.drop 2).take 4)), BitVec.ofNat 48 (beNat ((f.drop 6).take 6)),
      BitVec.ofNat 48 (beNat ((f.drop 12).take 6))) :: samplesOf n (f.drop 20)

/-- A TTYPE 7 frame is applied (R342). -/
def State.takeSamples (s : State) (f : List Byte) : State :=
  let l := samplesOf 203 f
  match l.find? (fun x => x.2.2.1 != ~~~ x.2.2.2) with
  | some x => s.post 0x1A1 [d16 x.1]
  | none => l.foldl (fun s x =>
      let y : Sample := ⟨x.1, x.2.1, x.2.2.1, s.mono⟩
      if !(s.align x.1).enabled then s
      else
        match s.pair.mine.find? (y.meets · s.mono) with
        | some m =>
          let s := { s with pair := { s.pair with mine := s.pair.mine.erase m } }
          s.sampleMeet x.1 (m.manifest == x.2.2.1)
        | none => { s with pair := { s.pair with theirs := s.pair.theirs ++ [y] } }) s

/-- MANIFEST_SAMPLE_EXPIRE (R342): samples that found no partner in 1 ms are discarded. -/
def execManifestSampleExpire (s : State) : Out :=
  let keep (l : List Sample) : List Sample := l.filter (fun x => s.mono < x.time + ms 1)
  .next { s with pair := { s.pair with mine := keep s.pair.mine, theirs := keep s.pair.theirs } }

/-- PAIR_ALIGN (R340). -/
def execPairAlign (h : Hdr) (p : List Word) (s : State) : Out :=
  let first := pf p 0 31 20
  let n := pf p 0 19 8 + 1
  let op := pf p 0 7 6
  let bad := p.length != 1 || pf p 0 5 0 != 0 || op == 3 || 4096 < first + n || (op == 2 && 64 < n)
  let chans := (List.range n).map (first + ·)
  .next (runCommand 0x601 h p bad false false [(!(s.pair.act && s.pair.formed), codeNotActing)] (fun s =>
    match op with
    | 0 => (chans.foldl (fun s c =>
        let a := s.align c
        if s.spanChan c || a.enabled then s else s.putAlign c { a with enabled := true, began := some s.now }) s, codeDeferred, [])
    | 1 => (chans.foldl (fun s c =>
        let a := s.align c
        let s := (s.putAlign c { restAlign c with markers := a.markers }).tellAlign c 2 0 0
        if a.aligned then s.post 0x19C [d16 c] else s) s, codeOk, [])
    | _ => (s, codeOk, chans.map (fun c => mkWord [(1, b01 (s.align c).enabled), (1, b01 (s.align c).aligned), (30, 0)]))) s)

/-! ## The door of the gangway -/

/-- A packet of a channel goes to the gangway (R55, R317, R344): in a forwarding mode, or in DRAIN, which refuses it. -/
def State.handIn (s : State) (p : RxPkt) : State :=
  if !(modeForwards s.pwr.mode || s.pwr.mode == .drain) then s
  else
    let s := (s.bump 0 p.port 0 1).bump 0 p.port 1 p.bytes.length
    let s := if p.origin.isNone && !s.spanChan p.chan then s.sample p.chan p.manifest p.bytes else s
    let a := s.align p.chan
    if s.pwr.mode == .standby && a.enabled && !a.aligned then
      (s.drop 0 p.port 22 63 p.bytes.length).pairCount 5 1
    else s.arrive p

end Sys2Proof.Machine
end

