-- ==== Sys2Proof/Machine/Tree.lean ====
section
/-! DEFINITION. The scheduling tree: nodes and their parents, shapers, the timetable, and port states (R260 to R275,
R283 to R286). -/

namespace Sys2Proof.Machine

/-- Queue, group and channel nodes at reset (R263). -/
def restQueue (q : Nat) : QueueCfg := ⟨false, 7, q / 8, 1, 0⟩
def restGroup (g : Nat) : NodeCfg := ⟨false, g / 8, 7, 1⟩
/-- A shaper at reset: off (R263). -/
def restShaper (_ : Nat) : ShaperCfg := ⟨0, 0, 0⟩

/-- Key of a node of KIND 0 queue, 1 group, 2 channel, 3 port (R274). -/
def nodeKey (kind n : Nat) : Nat := kind * 262144 + n

/-- The nodes' configuration. -/
def State.queueCfg (s : State) (q : Nat) : QueueCfg := tget restQueue s.cfg.td.queues q
def State.groupCfg (s : State) (g : Nat) : NodeCfg := tget restGroup s.cfg.td.groups g
def State.chanCfg (s : State) (c : Nat) : NodeCfg := (tget none0 s.cfg.td.chans c).getD ⟨false, 0, 7, 1⟩

/-- An Ethernet line port (R262). -/
def State.etherPort (s : State) (n : Nat) : Bool := n < 128 && (match s.port n with | some c => c.type == 1 | none => false)

/-- The port node of a channel, if it has one (R262, R263). -/
def State.chanNode (s : State) (c : Nat) : Option Nat :=
  match s.fixedNode c with
  | some n => some n
  | none =>
    match tget none0 s.cfg.td.chans c with
    | some k => if s.etherPort k.parent then some k.parent else none
    | none => none

/-- A queue's group, channel and port node. -/
def State.groupOf (s : State) (q : Nat) : Nat := (s.queueCfg q).group
def State.chanOf (s : State) (q : Nat) : Nat := (s.groupCfg (s.groupOf q)).parent
def State.nodeOf (s : State) (q : Nat) : Option Nat := s.chanNode (s.chanOf q)

/-! ## Shapers (R272 to R275) -/

def State.shaperCfg (s : State) (k : Nat) : ShaperCfg := tget restShaper s.cfg.td.shapers k
def State.bucket (s : State) (k : Nat) : Bucket := tget dflt s.td.sched.buckets k
def State.putBucket (s : State) (k : Nat) (b : Bucket) : State :=
  s.setSched { s.td.sched with buckets := tset dflt s.td.sched.buckets k b }

/-- The present 4 ns slot, which no step of DEVTIME moves (R272, R385). -/
def State.slot (s : State) : Nat := s.mono / 4

/-- The timetable entry of a node that waits `n` slots from slot `now` (R270). DEDUCED (log 112): the overflow wheel's slots begin
at multiples of 1 µs, so that one may begin before the exact time, which the fine wheel then keeps. -/
def ttEntry (now n : Nat) : TtEnt :=
  if n * 4 < 262144 then ⟨now + n, false, now + n, false⟩
  else if n * 4 < 65536000 then ⟨(now / 250 + (n * 4 + 999) / 1000) * 250, true, now + n, false⟩
  else ⟨(now / 250 + 65535) * 250, true, now + n, true⟩

/-- Released, unsent bytes that a port node may have (R269). -/
def State.allowance (s : State) (node : Nat) : Nat := s.nodeRate node * 8 / 10000000 + 16384

/-- Slots until a port's unsent bytes are below ALLOW again at its rate (R269, R270). DEDUCED (log 112): no rule gives this wait. -/
def State.portSlots (s : State) (node : Nat) : Nat :=
  let past := (s.pnode node).unsent + 1 - s.allowance node
  if s.nodeRate node = 0 then 0 else (past * 250000000 + s.nodeRate node - 1) / s.nodeRate node

/-- Slots until a bucket in debt is paid (R272). -/
def debtSlots (c : ShaperCfg) (b : Bucket) : Nat :=
  let need := (-b.b).toNat * 1000000 - b.f
  if c.rate = 0 then 0 else (need + c.rate * 4 - 1) / (c.rate * 4)

/-- Slots that a node waits: for its shaper's debt, and as a port for its unsent bytes (R269, R270, R272). -/
def State.waitSlots (s : State) (k : Nat) : Nat :=
  let c := s.shaperCfg k
  let b := s.bucket k
  max (if c.rate ≠ 0 ∧ b.b < 0 then debtSlots c b else 0) (if 3 * 262144 ≤ k then s.portSlots (k - 3 * 262144) else 0)

/-- Places a node that waits on the timetable, and takes any other node off it (R270, R272). -/
def State.timetable (s : State) (k : Nat) : State :=
  let n := s.waitSlots k
  s.setSched { s.td.sched with tt := tset none0 s.td.sched.tt k (if n = 0 then none else some (ttEntry s.slot n)) }

/-- A bucket within its 40 bits (R272). -/
def clampBucket (b : Int) : Int := max (-(2 : Int) ^ 39) b

/-- Charges a packet to a shaper (R267, R272). -/
def State.charge (s : State) (k len : Nat) : State :=
  let c := s.shaperCfg k
  if c.rate = 0 then s
  else
    let b := s.bucket k
    (s.putBucket k { b with b := clampBucket (b.b - (len + c.adj)) }).timetable k

/-- A node is eligible by its shaper, and by the timetable (R266, R271). -/
def State.shaperOk (s : State) (k : Nat) : Bool :=
  ((s.shaperCfg k).rate = 0 || 0 ≤ (s.bucket k).b) && (tget none0 s.td.sched.tt k).isNone

/-- SHAPER_REFILL (R272): one slot. -/
def execShaperRefill (kind : Fin 4) (node : Fin 262144) (s : State) : Out :=
  let k := nodeKey kind node
  let c := s.shaperCfg k
  if c.rate = 0 || s.domain 7 ≠ 0 then .next s
  else
    let b := s.bucket k
    let f := b.f + c.rate * 4
    let v := b.b + (f / 1000000 : Nat)
    .next (s.putBucket k (if (c.burst : Int) < v then ⟨c.burst, 0⟩ else ⟨v, f % 1000000⟩))

/-- Puts an element in its place by a measure, after its equals. -/
def insBy {α : Type} (f : α → Nat) (a : α) : List α → List α
  | [] => [a]
  | b :: l => if f a < f b then a :: b :: l else b :: insBy f a l

/-- A list in ascending order of a measure. -/
def sortBy {α : Type} (f : α → Nat) (l : List α) : List α := l.foldl (fun r a => insBy f a r) []

/-- Due entries of the timetable in slot order. -/
def dueIn (t : Nat) (l : List (Nat × TtEnt)) : List (Nat × TtEnt) := sortBy (·.2.slot) (l.filter (fun e => e.2.slot ≤ t))

/-- Retires one entry, or moves it to the fine wheel, or computes its wait again (R270, R271). -/
def State.retireOne (s : State) (k : Nat) (e : TtEnt) : State :=
  let put (v : Option TtEnt) : State := s.setSched { s.td.sched with tt := tset none0 s.td.sched.tt k v }
  if e.wheel then
    if e.again then s.timetable k else put (some ⟨e.exact, false, e.exact, false⟩)
  else
    let late := s.slot - e.slot
    let s := (put none).hwPeak 0xBF240400 31 16 late 0xFFFF
    if 250 < late then (s.hwAdd 0xBF240400 15 0 1 0xFFFF).postOnce 0x144 0 [d16 (min late 0xFFFF)] else s

/-- TIMETABLE_RETIRE (R270, R271): at most 16 due entries in one clock, in slot order. -/
def execTimetableRetire (s : State) : Out :=
  let l := s.td.sched.tt.filterMap (fun x => x.2.map (fun e => (x.1, e)))
  .next (((dueIn s.slot l).take 16).foldl (fun s e => s.retireOne e.1 e.2) s)

/-- A word with a bucket saturated to 32 signed bits (R274). -/
def bucketWord (b : Int) : Word := BitVec.ofInt 32 (max (-(2 : Int) ^ 31) (min (2 ^ 31 - 1) b))

/-- The rate in effect of a shaper: an Ethernet port's never exceeds its line rate, and 0 restores it (R273). -/
def State.shaperRate (s : State) (kind n rate : Nat) : Nat :=
  match kind, s.port n with
  | 3, some c =>
    if n < 128 && c.type == 1 then
      let line := 25000000 * c.lanes
      if rate = 0 || line < rate then line else rate
    else rate
  | _, _ => rate

/-- Node numbers of a KIND in a command (R261, R291). -/
def kindSize : Nat → Nat
  | 0 => 262144 | 1 => 32768 | 2 => 4096 | _ => 176

/-- SHAPER_SET (R274, R275). -/
def execShaperSet (h : Hdr) (p : List Word) (s : State) : Out :=
  let kind := pf p 0 31 30
  let n := pf p 0 29 12
  let k := nodeKey kind n
  let rate0 := pf p 1 27 0
  let burst := pf p 2 26 0
  let adj : Int := (BitVec.ofNat 8 (pf p 3 7 0)).toInt
  let bad := !tdWide h || p.length != 4 || pf p 0 9 0 != 0 || pf p 1 31 28 != 0 || pf p 2 31 27 != 0 || pf p 3 31 8 != 0
    || kindSize kind ≤ n || 200000000 < rate0 || (rate0 != 0 && !burstOk burst) || adj < -64 || 63 < adj
  .next (runCommand 0x400 h p bad (h.priv == 2) s.slipOrQuiet []
    (fun s =>
      let b := s.bucket k
      let rate := s.shaperRate kind n rate0
      let burst := if rate0 = 0 then (s.shaperCfg k).burst else burst
      let s := s.setTdCfg { s.cfg.td with shapers := tset restShaper s.cfg.td.shapers k ⟨rate, burst, adj⟩ }
      if rate = 0 then (s.timetable k, codeOk, [bucketWord b.b])
      else if b.b < 0 && !bit (par p 0) 10 then (s.timetable k, codeDeferred, [bucketWord b.b])
      else ((s.putBucket k ⟨if bit (par p 0) 11 then burst else 0, 0⟩).timetable k, codeOk, [bucketWord b.b])) s)

/-! ## NODE_CFG (R264, R265) -/

/-- Puts a deficit (R267). -/
def State.putDeficit (s : State) (k : Nat) (d : Int) : State :=
  s.setSched { s.td.sched with deficit := tset (fun _ => (0 : Int)) s.td.sched.deficit k d }

/-- A node's deficit. -/
def State.deficit (s : State) (k : Nat) : Int := tget (fun _ => (0 : Int)) s.td.sched.deficit k

/-- NODE_CFG (R262, R264, R265). -/
def execNodeCfg (h : Hdr) (p : List Word) (s : State) : Out :=
  let kind := pf p 0 31 30
  let n := pf p 0 29 15
  let c : NodeCfg := ⟨bit (par p 0) 14, pf p 1 31 20, pf p 0 13 11, pf p 1 19 8⟩
  let bad := !tdWide h || p.length != 2 || !(kind == 1 || kind == 2) || pf p 0 10 0 != 0 || pf p 1 7 0 != 0 || c.weight = 0
    || (kind == 2 && (4096 ≤ n || pf p 1 31 28 != 0
        || (match s.fixedNode n with | some m => m != c.parent | none => !s.etherPort c.parent)))
  .next (runSimple 0x403 h p bad (h.priv == 2) s.slipOrQuiet []
    (fun s =>
      let old := if kind = 1 then s.groupCfg n else s.chanCfg n
      let s := if kind = 1 then s.setTdCfg { s.cfg.td with groups := tset restGroup s.cfg.td.groups n c }
        else s.setTdCfg { s.cfg.td with chans := tset none0 s.cfg.td.chans n (some c) }
      if old.parent = c.parent && old.prio = c.prio then s else s.putDeficit (nodeKey kind n) 0) s)

/-! ## Port states (R283 to R286) -/

/-- A port node goes to a state with its event. -/
def State.toPort (s : State) (n st ev : Nat) (items : List (Nat × Nat)) : State :=
  (s.putPnode n { s.pnode n with st, since := s.mono, flushed := 0 }).post ev ([d16 n] ++ items)

/-- HOLD of a port node in ms (R285). -/
def State.holdMs (s : State) (n : Nat) : Nat := tget zn s.cfg.td.holds n

/-- The hold timer of a port node has reached HOLD (R284). -/
def State.holdOver (s : State) (n : Nat) : Bool := (s.pnode n).since + ms (s.holdMs n) ≤ s.mono

/-- A port node's link or administrative state is judged again (R284). -/
def State.portLink (s : State) (n : Nat) : State :=
  let up := s.nodeLink n
  let s := s.putPnode n { s.pnode n with link := up }
  match (s.pnode n).st with
  | 0 =>
    if up then s
    else if s.nodeAdmin n && 0 < s.holdMs n then s.toPort n 1 0x140 []
    else s.toPort n 2 0x142 []
  | 1 =>
    if s.holdOver n then s.toPort n 2 0x142 []
    else if up then s.toPort n 0 0x141 [d16 0]
    else if s.nodeAdmin n then s else s.toPort n 2 0x142 []
  | 3 => if up then s.toPort n 0 0x141 [d16 1] else s
  | _ => s

/-- PORT_LINK_CHANGE (R283, R284). -/
def execPortLinkChange (node : Fin 176) (s : State) : Out := .next (s.portLink node)

/-- PORT_HOLD_EXPIRE (R284): the hold timer reaches HOLD. -/
def execPortHoldExpire (node : Fin 176) (s : State) : Out :=
  .next (if (s.pnode node).st = 1 && s.holdOver node then s.toPort node 2 0x142 [] else s)

/-- PORT_HOLD (R285). -/
def execPortHold (h : Hdr) (p : List Word) (s : State) : Out :=
  let n := pf p 0 31 24
  let ms0 := pf p 0 23 14
  .next (runSimple 0x404 h p (!tdWide h || p.length != 1 || pf p 0 13 0 != 0 || 176 ≤ n || 1000 < ms0) (h.priv == 2)
    s.slipOrQuiet []
    (fun s =>
      let s := s.setTdCfg { s.cfg.td with holds := tset zn s.cfg.td.holds n ms0 }
      let x := s.pnode n
      if x.st = 1 && s.holdOver n then s.toPort n 2 0x142 [] else s) s)

end Sys2Proof.Machine
end

