-- ==== Sys2Proof/Machine/Berth.lean ====
section
/-! DEFINITION. Berths: pools, free stacks, the check ring, the quarantine and the audit (R235, R245 to R253). -/

namespace Sys2Proof.Machine

/-- Puts the berths. -/
def State.setBerths (s : State) (b : Berths) : State := { s with td := { s.td with berths := b } }
/-- The berths. -/
def State.br (s : State) : Berths := s.td.berths

/-- Berths of a tier, 0 SRAM and 1 DRAM (R235). -/
def tierSize (t : Nat) : Nat := if t = 0 then 262144 else 125829120
/-- The tier of a berth pointer, and the pointer of an index (R235). -/
def tierOf (b : Nat) : Nat := b / 2 ^ 27 % 2
def berthPtr (t i : Nat) : Nat := t * 2 ^ 27 + i
/-- The tier of a pool (R245). -/
def poolTier (p : Nat) : Nat := p / 8

/-- LIMIT and GUAR of a pool in berths (R245). -/
def State.poolLimit (s : State) (p : Nat) : Nat :=
  min (tierSize (poolTier p)) (s.rf (0xBF220040 + 4 * p) 31 18 * (if p < 8 then 64 else 8192))
def State.poolGuar (s : State) (p : Nat) : Nat := s.rf (0xBF220040 + 4 * p) 17 4 * (if p < 8 then 64 else 8192)

/-- The pools of a tier. -/
def tierPools (t : Nat) : List Nat := (List.range 8).map (· + 8 * t)

/-- The guarantee that is honoured: in ascending pool order until the tier is used up (R245). -/
def State.honoured (s : State) (p : Nat) : Nat :=
  let before := (((tierPools (poolTier p)).filter (· < p)).map s.poolGuar).sum
  min (s.poolGuar p) (tierSize (poolTier p) - before)

/-- Berths of a pool in use. -/
def State.poolUse (s : State) (p : Nat) : Nat := tget zn s.br.use p

/-- Berths of a tier on its free stack, and with those in the check ring (R247). -/
def State.onStack (s : State) (t : Nat) : Nat := (tget nil0 s.br.pushed t).length + (tierSize t - tget zn s.br.fresh t)
def State.freeBerths (s : State) (t : Nat) : Nat := s.onStack t + (s.br.ring.filter (fun r => tierOf r.1 == t)).length

/-- An allocation from a pool may succeed (R245). -/
def State.mayAlloc (s : State) (p : Nat) : Bool :=
  let t := poolTier p
  let others := (((tierPools t).filter (· != p)).map (fun q => s.honoured q - s.poolUse q)).sum
  0 < s.onStack t && (s.poolUse p < s.honoured p || (s.poolUse p < s.poolLimit p && others < s.freeBerths t))

/-- The quarantine holds a berth. -/
def Berths.inQuar (b : Berths) (x : Nat) : Bool := b.quar.any (·.2.1 == x)

/-- A berth is lost until an audit (R253). -/
def State.loseBerth (s : State) (b : Nat) : State :=
  (s.setBerths { s.br with lost := s.br.lost ++ [b] }).hwAdd 0xBF220018 15 0 1 0xFFFF

/-- BCRC of a DRAM berth: over its 1,024 data bytes and trailer bits [127:16], begun from its index (R237). -/
def berthCrc (b : Nat) (data : List Byte) (trailer : BitVec 128) : BitVec 16 :=
  let i := b % 2 ^ 27
  crcMsb 0x1021#16 (0xFFFF#16 ^^^ BitVec.ofNat 16 (i % 65536) ^^^ BitVec.ofNat 16 (i / 65536))
    (data ++ beBytes 14 (trailer.toNat / 65536))

/-- The trailer of a DRAM berth: NEXT with its complement, OWNER, FIRST (63: none), USED and BCRC (R237). -/
def trailerOf (b next owner first used : Nat) (data : List Byte) : BitVec 128 :=
  let t : BitVec 128 := BitVec.ofNat 128
    (packNat [(28, next), (28, 2 ^ 28 - 1 - next % 2 ^ 28), (4, owner), (6, first), (5, used), (41, 0), (16, 0)] 0)
  t ||| (berthCrc b data t).setWidth 128

/-- NEXT of a trailer, and whether NEXT_N is its complement (R237, R239). -/
def trailerNext (t : BitVec 128) : Nat := (t.extractLsb' 100 28).toNat
def trailerLinkOk (t : BitVec 128) : Bool := t.extractLsb' 72 28 == ~~~ t.extractLsb' 100 28

/-- A berth lies on a pseudo-channel that was lost without a spare (R361). -/
def State.onLostPc (s : State) (b : Nat) : Bool :=
  !s.mem.lostPcs.isEmpty && tierOf b == 1 && s.mem.lostPcs.contains (Config.berthPc (b % 2 ^ 27))

/-- A berth leaves the free stack for good (R361). -/
def State.retireBerth (s : State) : State := { s with mem := { s.mem with retired := s.mem.retired + 1 } }

/-- Pops a berth of a tier; `bad` popped entries fail their complement, and quarantined ones are discarded (R247, R250).
The fuel bounds the entries discarded. -/
def State.popBerth (t : Nat) : Nat → Nat → State → Option Nat × State
  | 0, _, s => (none, s)
  | n + 1, bad, s =>
    let next : Option (Nat × State) := match tget nil0 s.br.pushed t with
      | b :: r => some (b, s.setBerths { s.br with pushed := tset nil0 s.br.pushed t r })
      | [] =>
        let i := tget zn s.br.fresh t
        if i < tierSize t then some (berthPtr t i, s.setBerths { s.br with fresh := tset zn s.br.fresh t (i + 1) }) else none
    match next with
    | none => (none, s)
    | some (b, s) =>
      if 0 < bad then State.popBerth t n (bad - 1) ((s.loseBerth b).post 0x106 [d16 t])
      else if s.onLostPc b then State.popBerth t n 0 s.retireBerth
      else if s.br.inQuar b then State.popBerth t n 0 s
      else (some b, s)

/-- Allocates a berth of a pool to a queue slice (R245 to R247). -/
def State.allocBerth (s : State) (slice p bad : Nat) : Option Nat × State :=
  if !s.mayAlloc p then (none, s.postOnce 0x10B 0 [d16 (poolTier p), d16 p])
  else
    let fuel := bad + s.br.quar.length + 1 + (if s.mem.lostPcs.isEmpty then 0 else tierSize 1)
    match State.popBerth (poolTier p) fuel bad s with
    | (some b, s) => (some b, s.setBerths { s.br with
        owner := tins s.br.owner b (slice, p), use := tset zn s.br.use p (s.poolUse p + 1) })
    | (none, s) => (none, s.postOnce 0x10B 0 [d16 (poolTier p), d16 p])

/-- Allocates `n` berths, or none: those taken before a failure are freed (R246). -/
def State.allocMany (slice p : Nat) : Nat → Nat → List Nat → State → Option (List Nat) × State
  | 0, _, l, s => (some l, s)
  | n + 1, bad, l, s =>
    match s.allocBerth slice p bad with
    | (some b, s) => State.allocMany slice p n 0 (l ++ [b]) s
    | (none, s) => (none, s.setBerths { s.br with frees := s.br.frees ++ l.map (·, slice) })

/-- A queue slice frees berths: the frees wait to be checked (R240, R248). -/
def State.freeAll (s : State) (slice : Nat) (l : List Nat) : State :=
  s.setBerths { s.br with frees := s.br.frees ++ l.map (·, slice) }

/-- Quarantines a berth; past 4,096 it is lost (R251). -/
def State.quarantine (s : State) (cause b slice : Nat) : State :=
  if s.br.quar.length < 4096 then s.setBerths { s.br with quar := s.br.quar ++ [(cause, b, slice)] }
  else (s.loseBerth b).post 0x10A [d32 b]

/-- The state bit of a berth: it is allocated (R247). -/
def State.berthState (s : State) (b : Nat) : Bool := (tfind s.br.owner b).isSome

/-- BERTH_FREE (R248, R249): a free is checked; while the check ring is full it waits. A DRAM berth freed without a read
has its trailer read. -/
def execBerthFree (berth : BitVec 28) (slice : Fin 16) (s : State) : Out :=
  let b := berth.toNat
  if 32768 ≤ s.br.ring.length then .next s
  else
    let unread := tierOf b == 1 && !s.br.staged.contains b
    let s := s.setBerths { s.br with frees := s.br.frees.erase (b, slice.val), staged := s.br.staged.filter (· != b) }
    if s.br.inQuar b then .next (s.bump 4 0 4 1)
    else
      match tfind s.br.owner b with
      | none => .next ((s.post 0x108 [d32 b, d16 slice]).quarantine 1 b slice)
      | some (o, p) =>
        let s := if unread then s.hbm 4 0 (128 + slice) else s
        .next (s.setBerths { s.br with
          owner := tdel s.br.owner b, use := tset zn s.br.use p (s.poolUse p - 1), ring := s.br.ring ++ [(b, slice.val, o)] })

/-- CHECK_RING_RESULT (R249, R251): the owner code of the oldest free in the ring has been read. A berth that a double free has
quarantined or lost meanwhile is not pushed. -/
def execCheckRingResult (s : State) : Out :=
  match s.br.ring with
  | [] => .next s
  | (b, slice, owner) :: r =>
    let s := s.setBerths { s.br with ring := r }
    let t := tierOf b
    if s.br.inQuar b || s.br.lost.contains b then .next s
    else if owner = slice && s.onLostPc b then .next s.retireBerth
    else if owner = slice then
      .next (s.setBerths { s.br with pushed := tset nil0 s.br.pushed t (b :: tget nil0 s.br.pushed t) })
    else .next ((s.post 0x109 [d32 b, d16 slice, d16 owner]).quarantine 2 b slice)

/-- A write to TD_BERTH_POOLCFGp (R245). -/
def State.poolCfgWrite (s : State) (p : Nat) (v : Word) : State :=
  let a := 0xBF220040 + 4 * p
  let s := s.setCfgReg a (v &&& ((regRowAt a).map RegRow.cfgMask).getD 0)
  let t := poolTier p
  if tierSize t < ((tierPools t).map s.poolGuar).sum then s.post 0x10C [d16 t] else s

/-! ## Audit and quarantine list -/

/-- BERTH_AUDIT (R253). -/
def execBerthAudit (h : Hdr) (p : List Word) (s : State) : Out :=
  .next (runCommand 0x422 h p (!tdWide h || !p.isEmpty) (h.priv == 2) (!(s.pwr.mode == .boot || s.pwr.mode == .drain))
    [(s.br.audit != 0, codeBusy)]
    (fun s => (s.setBerths { s.br with audit := 1 }, codeDeferred, [])) s)

/-- Every queue and multicast body is empty (R253, R487). -/
def State.queuesEmpty (s : State) : Bool := s.td.q.all (fun q => q.2.ents.isEmpty) && s.td.slots.isEmpty

/-- Free stacks and state bits as every start builds them (R253). -/
def Berths.fresh0 : Berths := ⟨[], [], [], [], [], [], [], [], 0, 0, [], [], []⟩

/-- BERTH_AUDIT_REBUILD (R253): with every queue empty, the free stacks and state bits are built from scratch. -/
def execBerthAuditRebuild (s : State) : Out :=
  if s.br.audit ≠ 1 || !s.queuesEmpty then .next s
  else
    let found := s.br.quar.length + s.br.lost.length
    let s := s.setHw 0xBF220018 (putBits (s.hwReg 0xBF220018) 15 0 0)
    let s := s.setBerths { Berths.fresh0 with audit := 2, found }
    .next { s with td := { s.td with
      q := tmapv dflt (fun r => { r with fill := none, writes := [] }) s.td.q } }

/-- BERTH_AUDIT_COMPLETE (R253). -/
def execBerthAuditComplete (s : State) : Out :=
  if s.br.audit = 2 then .next ((s.setBerths { s.br with audit := 0, found := 0 }).post 0x10F [d32 s.br.found]) else .next s

/-- BERTH_QLIST (R252). -/
def execBerthQlist (h : Hdr) (p : List Word) (s : State) : Out :=
  .next (runCommand 0x423 h p (!tdWide h || p.length != 1 || pf p 0 19 0 != 0) false (s.pwr.mode == .slipway) []
    (fun s =>
      let l := (s.br.quar.drop (pf p 0 31 20)).take 64
      (s, codeOk, mkWord [(13, s.br.quar.length), (11, 0), (8, l.length)]
        :: l.flatMap (fun q => [mkWord [(2, q.1), (2, 0), (28, q.2.1)], BitVec.ofNat 32 q.2.2]))) s)

end Sys2Proof.Machine
end

