-- ==== Sys2Proof/Machine/Rollout.lean ====
section
/-! DEFINITION. The control store: ACT_LOAD and ACT_READ, and the steps of a microcode rollout (R206, R209 to R213,
R217 to R220). -/

namespace Sys2Proof.Machine

/-! ## Programs -/

/-- The operations of R201. -/
def opcodes : List Nat :=
  [0x01, 0x02, 0x03, 0x04, 0x05, 0x06, 0x07, 0x08, 0x09, 0x0A, 0x0B, 0x10, 0x11, 0x12, 0x13, 0x14, 0x18, 0x19, 0x1A,
   0x1B, 0x20, 0x21, 0x22, 0x28, 0x29, 0x2A, 0x30, 0x31, 0x32]

/-- Registers that the key of an associative search fills: 20 bytes for each bank of the widest enabled chain of its template. -/
def State.lkaRegs (s : State) (tmpl : Nat) : Nat :=
  let w := ((s.chainsIn (s.cfg.fd.rules.ascMaps tmpl).1).map (fun c => (s.chain c).w)).foldl max 1
  (20 * w + 7) / 8

/-- Whether an instruction word is accepted in a program of `n` words from `base` (R209). The registers of a key are
judged by FD_EXACT_TMAP as it stands, and for LKA by the widest of the template's enabled chains (R168, R173). -/
def State.insnOk (s : State) (base n : Nat) (w : Word64) : Bool :=
  let op := bits w 63 56
  let a := bits w 51 48
  opcodes.contains op && bits w 42 32 == 0
    && (!(0x10 ≤ op && op ≤ 0x14) || (base ≤ bits w 13 0 && bits w 13 0 < base + n))
    && (op != 0x20 || a + (if bit (s.tmap (bits w 5 0)) 7 then 4 else 2) ≤ 16)
    && (op != 0x21 || a ≤ 13)
    && (op != 0x22 || a + s.lkaRegs (bits w 5 0) ≤ 16)
    && (op != 0x30 || 3 ≤ bits w 5 0)
    && (op != 0x2A || bits w 31 28 ≤ 8)

/-- Banks of the current version and of versions in flight (R120). -/
def State.liveBanks (s : State) : List RuleBank :=
  s.cfg.fd.rules :: (s.fd.rules.old.filter (fun b => s.flying.contains b.2.version)).map (·.2)

/-- Entries that the profiles of live versions name (R114, R210). -/
def State.liveEntries (s : State) : List Nat :=
  s.liveBanks.flatMap (fun b => b.profiles.flatMap (fun q => [bits (q.2.getD 0 0) 21 8, bits (q.2.getD 1 0) 31 18]))

/-- A loaded program, by first page and length, is in use (R210). -/
def State.progUsed (s : State) (q : Nat × Nat) : Bool :=
  s.liveEntries.any (fun e => 0x1000 + 256 * q.1 ≤ e && e < 0x1000 + 256 * (q.1 + pagesOf q.2))

/-- Loaded programs that overlap `k` pages from `page`. -/
def State.progHits (s : State) (page k : Nat) : List (Nat × Nat) :=
  s.cfg.fd.progs.filter (fun q => q.1 < page + k && page < q.1 + pagesOf q.2)

/-- Instruction words from parameter words, the high half first (R209). -/
def pairWords : List Word → List Word64
  | a :: b :: r => (a ++ b) :: pairWords r
  | _ => []

/-- Writes instruction words from an address. -/
def putWords (t : Tab Word64) : Nat → List Word64 → Tab Word64
  | _, [] => t
  | a, w :: r => putWords (tset (fun _ => dropWord) t a w) (a + 1) r

/-- Writes a program over those it overlaps (R209). -/
def FdSetup.load (f : FdSetup) (page : Nat) (hits : List (Nat × Nat)) (ws : List Word64) : FdSetup :=
  let gone (a : Nat) : Bool := hits.any (fun q => 0x1000 + 256 * q.1 ≤ a && a < 0x1000 + 256 * (q.1 + pagesOf q.2))
  { f with
    words := putWords (f.words.filter (fun w => !gone w.1)) (0x1000 + 256 * page) ws
    progs := tins (f.progs.filter (fun q => !hits.contains q)) page ws.length }

/-- ACT_LOAD (R209). -/
def execActLoad (h : Hdr) (p : List Word) (s : State) : Out :=
  let page := pf p 0 31 26
  let n := pf p 0 12 0
  let ws := pairWords (p.drop 1)
  let bad := !fdWide h || p.length != 1 + 2 * n || n = 0 || 4096 < n || pf p 0 25 13 != 0 || 48 < page + pagesOf n
    || !ws.all (s.insnOk (0x1000 + 256 * page) n)
  .next (runSimple 0xD20 h p bad (h.priv == 2) s.slipOrQuiet
    [((s.progHits page (pagesOf n)).any s.progUsed, codeInUse)]
    (fun s => s.setFdCfg (s.cfg.fd.load page (s.progHits page (pagesOf n)) ws)) s)

/-- A microword's fields (R207). -/
structure Microword where
  uop    : Nat
  clen   : Nat
  last   : Bool
  cond   : Nat
  dst    : Nat
  sa     : Nat
  sb     : Nat
  imm    : Nat
  target : Nat
  deriving DecidableEq, Repr, Inhabited

/-- A microword as a control-store word holds it (R207). -/
def microword (v : BitVec 68) : Microword :=
  ⟨bits v 63 58, bits v 57 56, bit v 55, bits v 54 51, bits v 50 46, bits v 45 41, bits v 40 36, bits v 35 14, bits v 13 0⟩

/-- The issue cycles of the microwords that a handler executes (R207); no set changes their sum for an instruction (R208). -/
def issueCycles (l : List (BitVec 68)) : Nat := (l.map (fun v => (microword v).clen + 1)).sum

/-- The word of a set at an address below the program region: the vendor region, or a patch slot (R206). -/
def MicroSet.word (m : MicroSet) (a : Nat) : BitVec 68 :=
  match if 0xC00 ≤ a then m.patches.find? (·.slot == (a - 0xC00) / 16) else none with
  | some p => p.body.getD ((a - 0xC00) % 16) 0
  | none => Config.vendorWord m.head a

/-- Where a fetch of a microword address goes: to the first microword of the slot of the patch that replaces it (R213). -/
def MicroSet.fetchAt (m : MicroSet) (a : Nat) : Nat :=
  match m.patches.find? (·.addr == a) with
  | some p => 0xC00 + 16 * p.slot
  | none => a

/-- A word of the control store of a half, while the half is on (R206, R213). -/
def State.storeWord (s : State) (d a : Nat) : Option (BitVec 68) :=
  (s.storeSet d).map (fun m => if a < 0x1000 then m.word a else withParity (s.codeWord a))

/-- The microword that a fetch of an address gives in a half (R207, R213). -/
def State.fetchWord (s : State) (d a : Nat) : Option Microword :=
  (s.storeSet d).bind (fun m => (s.storeWord d (m.fetchAt a)).map microword)

/-- ACT_READ (R211). -/
def execActRead (h : Hdr) (p : List Word) (s : State) : Out :=
  let a := pf p 0 31 18
  let n := pf p 0 7 0
  .next (runCommand 0xD21 h p
    (!fdWide h || p.length != 1 || pf p 0 17 8 != 0 || n = 0 || 128 < n || a < 0x1000 || 0x4000 < a + n) false s.slipOrQuiet []
    (fun s => (s, codeOk, (List.range n).flatMap (fun k =>
      let w := s.codeWord (a + k)
      [BitVec.ofNat 32 (bits w 63 32), BitVec.ofNat 32 (bits w 31 0)]))) s)

/-! ## Rollout -/

/-- A slice's halves hold no packet. -/
def State.halvesEmpty (s : State) (l : Nat) : Bool :=
  (tget nil0 s.fd.gang.staging l).isEmpty && !s.fd.eng.threads.any (·.slice == l) && (tget nil0 s.fd.eng.egress l).isEmpty

/-- ROT of a slice (R25). -/
def State.setRot (s : State) (l : Nat) (v : Bool) : State :=
  s.setGang { s.fd.gang with rot := tset noB s.fd.gang.rot l v, gen := s.fd.gang.gen + 1 }

/-- ROLLOUT_STEP_START (R217 to R219): at T0 + k × 2.5 ms, through the spare, in place by a drain, or at once in a slice that is gated or
powered off, holds no physical slice or holds the new set already. -/
def execRolloutStepStart (s : State) : Out :=
  match s.fd.eng.roll with
  | none => .next s
  | some r =>
    let l := r.step
    if r.stage ≠ 0 || s.fd.gang.moves.any (·.drain) || s.now.toNat < r.t0.toNat + l * 2500000 then .next s
    else if !s.hasPhys l then .next (s.rollNext r)
    else if s.mcseq (s.physOf l) = r.seq then .next (s.rollDone r)
    else if s.sliceSt l = 1 || s.sliceSt l = 2 then .next ((s.loadSet (s.physOf l) r.seq).rollDone r)
    else if s.spareSlice then .next ((s.setRot l true).setRoll (some { r with stage := 1, old := s.physOf l }))
    else
      let bs := s.bucketsOf l
      let s := s.setGang { s.fd.gang with
        drains := s.fd.gang.drains.filter (fun x => !bs.contains x.1) ++ s.targets l bs s.fd.gang.use }
      .next (((s.setSliceSt l 3).setRoll (some { r with stage := 3, old := s.physOf l, away := bs })).pumpMoves)

/-- The arrivals that a step holds enter its slice in order (R218). -/
def State.rollFree (s : State) (l : Nat) : State :=
  (s.setGang { s.fd.gang with rollHeld := [] }).enterHeld l s.fd.gang.rollHeld

/-- ROLLOUT_STEP_SWITCH (R218, R219): the old physical slice is empty. A step whose spare a double fault has taken
begins again in place. -/
def execRolloutStepSwitch (s : State) : Out :=
  match s.fd.eng.roll with
  | none => .next s
  | some r =>
    let l := r.step
    if !s.halvesEmpty l then .next s
    else if r.stage = 1 then
      if s.spareSlice then
        let x := s.fd.gang.spare
        let y := s.physOf l
        let s := s.setGang { s.fd.gang with phys := tset idn s.fd.gang.phys l x, spare := 0x1F }
        let s := (s.setDomain (ingressDomain x) (s.supplied (ingressDomain y))).setDomain (ingressDomain x + 1)
          (s.supplied (ingressDomain y + 1))
        .next (((s.setRoll (some { r with stage := 2, old := y })).setRot l false).rollFree l)
      else .next (((s.setRoll (some { r with stage := 0 })).setRot l false).rollFree l)
    else if r.stage = 3 && r.away.all (fun b => !s.fd.gang.moving b && !s.fd.gang.drains.any (·.1 == b)) && (s.bucketsOf l).isEmpty then
      .next (s.setRoll (some { r with stage := 4 }))
    else .next s

/-- ROLLOUT_STEP_RELOAD (R218, R219): the old physical slice has been loaded and tested, and passes or is fenced. -/
def execRolloutStepReload (pass : Bool) (s : State) : Out :=
  match s.fd.eng.roll with
  | none => .next s
  | some r =>
    let l := r.step
    let y := r.old
    let fence (s : State) : State := s.setGang { s.fd.gang with fenced := s.fd.gang.fenced ++ [y] }
    if r.stage = 2 then
      if pass then
        let s := s.setGang { s.fd.gang.gen2 with spare := y }
        .next ((s.loadSet y r.seq).rollDone r).pumpMoves
      else
        let s := (fence s).substitute 1 0 (lifeLoc 1 l 0 0) y (s.physOf l)
        .next ((s.post 0x0CB [d16 l, d16 y]).rollNext r).pumpMoves
    else if r.stage = 4 then
      if pass then
        let s := (s.loadSet y r.seq).setSliceSt l 0
        let s := s.setGang { s.fd.gang with drains := s.fd.gang.drains ++ r.away.map (fun b => (b, l)) }
        .next (s.setRoll (some { r with stage := 5 })).pumpMoves.rollBack
      else
        let s := (fence s).recordLife 15 0 (lifeLoc 1 l 0 0) y noUnit 0
        .next (((s.post 0x0CB [d16 l, d16 y]).fenceDrain l).rollNext r).pumpMoves
    else .next s

end Sys2Proof.Machine
end

