-- ==== Sys2Proof/Machine/Classify.lean ====
section
/-! DEFINITION. Versions of the rule set: CLS_BEGIN, CLS_STAGE, CLS_COMMIT, CLS_ABORT and the switch (R116, R119 to
R125, R176). -/

namespace Sys2Proof.Machine

/-- Puts the rule versions. -/
def State.setRules (s : State) (r : Rules) : State := { s with fd := { s.fd with rules := r } }

/-- Banks of older versions still in flight (R119, R120). -/
def State.oldBanks (s : State) : Tab RuleBank := s.fd.rules.old.filter (fun b => s.flying.contains b.2.version)

/-- The lowest free bank (R119, R121). -/
def State.freeBank (s : State) : Option Nat :=
  [0, 1, 2, 3].find? (fun k => k != s.fd.rules.cur && (tfind s.oldBanks k).isNone)

/-- A number is the current version or one in flight (R124). -/
def State.verUsed (s : State) (v : Nat) : Bool := v == s.curVer || s.flying.contains v

/-- CLS_BEGIN (R121, R125). -/
def execClsBegin (h : Hdr) (p : List Word) (s : State) : Out :=
  .next (runSimple 0xD00 h p (!fdWide h || p.length != 1 || pf p 0 15 0 != 0) (h.priv == 2) s.slipOrQuiet
    [(s.fd.rules.stage.isSome || s.freeBank.isNone, codeBusy)]
    (fun s =>
      s.setRules { s.fd.rules with
        old := s.oldBanks
        stage := some (s.freeBank.getD 0, { s.cfg.fd.rules with version := pf p 0 31 16 }) }) s)

/-- Objects of CLS_STAGE: how many the table holds and the words of each (R122). -/
def objShape : Nat → Option (Nat × Nat)
  | 1 => some (1024, 4)
  | 2 => some (8192, 2)
  | 3 => some (256, 2)
  | 4 => some (4096, 1)
  | 5 => some (64, 16)
  | 6 => some (4096, 17)
  | 7 => some (128, 1)
  | _ => none

/-- Whether the words of one object are accepted (R111, R114, R115, R117, R122). DESIGN CHOICE (log 108): a state's TCNT of 17 to 31,
for which R111 gives no outcome, is accepted and counts that many transitions. -/
def objOk (obj : Nat) (w : List Word) : Bool :=
  match obj with
  | 1 => pf w 0 5 0 == 0 && pf w 0 23 22 != 3 && pf w 1 8 0 == 0 && pf w 3 3 0 == 0
  | 3 => pf w 0 5 0 == 0
  | 5 => w.all (fun x => bits x 10 0 == 0 && bits x 15 11 ≤ 16) && (w.map (fun x => bits x 15 11)).sum ≤ 80
  | 6 => pf w 0 1 0 == 0 && 1 ≤ pf w 0 31 26 && pf w 0 31 26 ≤ 32
  | _ => true

/-- `n` objects of `k` words. -/
def cutObjs (k : Nat) : Nat → List Word → List (List Word)
  | 0, _ => []
  | n + 1, ws => ws.take k :: cutObjs k n (ws.drop k)

/-- An object at rest: no words. -/
def putObj (t : Tab (List Word)) (i : Nat) (w : List Word) : Tab (List Word) :=
  tset nil0 t i (if w.all (· == 0) then [] else w)

/-- Writes one object into a bank (R122). -/
def RuleBank.putOne (b : RuleBank) (obj i : Nat) (w : List Word) : RuleBank :=
  match obj with
  | 1 => { b with states := putObj b.states i w }
  | 2 => { b with trans := putObj b.trans i w }
  | 3 => { b with profiles := putObj b.profiles i w }
  | 4 => { b with chanMap := putObj b.chanMap i w }
  | 5 => { b with templates := putObj b.templates i w }
  | 6 => { b with patterns := putObj b.patterns i w }
  | _ => { b with regs := tset cfgRest b.regs (0x7F040200 + 4 * i) (w.getD 0 0) }

/-- Writes objects from an index. -/
def RuleBank.putAll (obj : Nat) : List (List Word) → Nat → RuleBank → RuleBank
  | [], _, b => b
  | w :: r, i, b => RuleBank.putAll obj r (i + 1) (b.putOne obj i w)

/-- CLS_STAGE (R122). -/
def execClsStage (h : Hdr) (p : List Word) (s : State) : Out :=
  let obj := pf p 0 31 28
  let i := pf p 0 12 0
  let n := (par p 1).toNat
  let k := (objShape obj).getD (0, 1)
  let ws := cutObjs k.2 (min n k.1) (p.drop 2)
  let bad := !fdWide h || p.length < 2 || pf p 0 27 13 != 0 || (objShape obj).isNone || k.1 < i + n
    || p.length != 2 + n * k.2 || !ws.all (objOk obj) || s.fd.rules.stage.isNone
  .next (runSimple 0xD01 h p bad false false [(s.fd.rules.sched.isSome, codeBusy)]
    (fun s => s.setRules { s.fd.rules with
      stage := s.fd.rules.stage.map (fun b => (b.1, RuleBank.putAll obj ws i b.2)) }) s)

/-- A SHADOW register that a rule version carries (R119, R176). -/
def ruleShadow (a : Nat) : Bool :=
  match regRowAt a with
  | some r => r.cls == .shadow
  | none => false

/-- The switch to the staged bank (R116, R120, R123, R176): shadows written before it go into effect with it, and
channels whose DEEP bit changes drain. -/
def State.switchRules (s : State) : State :=
  match s.fd.rules.stage with
  | none => s
  | some (k, b) =>
    let mine := s.wr.shadow.filter (fun x => ruleShadow x.1)
    let b := { b with regs := mine.foldl (fun t x => tset cfgRest t x.1 x.2) b.regs }
    let old := if s.flying.contains s.curVer then tins s.oldBanks s.fd.rules.cur s.cfg.fd.rules else s.oldBanks
    let was := s
    let regs := s.cfg.regs.filter (fun x => !ruleShadow x.1)
    let regs := b.regs.foldl (fun t x => tset cfgRest t x.1 x.2) regs
    let s := { s with
      wr := { s.wr with shadow := s.wr.shadow.filter (fun x => !ruleShadow x.1) }
      cfg := { s.cfg with regs, fd := { s.cfg.fd with rules := b } } }
    let s := s.setRules { cur := k, old, stage := none, sched := none }
    let moved := (List.range 4096).filter (fun c => was.isDeep c != s.isDeep c && s.chanBusy c)
    s.setGang { s.fd.gang with
      chanHeld := moved.foldl (fun t c => match tget none0 t c with
        | some _ => t
        | none => tset none0 t c (some [])) s.fd.gang.chanHeld }

/-- CLS_COMMIT (R123, R124). -/
def execClsCommit (h : Hdr) (p : List Word) (s : State) : Out :=
  let v := pf p 0 31 16
  let t := par64 p 1
  let bad := !fdWide h || p.length != 3 || pf p 0 15 0 != 0
    || (match s.fd.rules.stage with | some b => b.2.version != v | none => true)
  .next (runCommand 0xD02 h p bad false false
    [(s.verUsed v, codeInUse), (s.fd.rules.sched.isSome || s.nearActivation t, codeBusy)]
    (fun s =>
      if s.reached t then (s.switchRules, codeOk, [])
      else (s.setRules { s.fd.rules with sched := some t }, codeDeferred, [])) s)

/-- CLS_ABORT (R125). -/
def execClsAbort (h : Hdr) (p : List Word) (s : State) : Out :=
  .next (runSimple 0xD03 h p (!fdWide h || !p.isEmpty) false false []
    (fun s => s.setRules { s.fd.rules with stage := none, sched := none }) s)

/-- CLS_SWITCH (R123): the instant of a scheduled commit has come. -/
def execClsSwitch (s : State) : Out :=
  match s.fd.rules.sched with
  | some t => if s.reached t then .next (let u := s.switchRules; u.post 0x082 [d16 u.curVer]) else .next s
  | none => .next s

end Sys2Proof.Machine
end

