-- ==== Sys2Proof/Machine/Cnt.lean ====
section
/-! DEFINITION. Counters: the flow and route pairs in DRAM, the programmable counters with their grants and snapshots, and
the counters of R407 (R398 to R409). -/

namespace Sys2Proof.Machine

/-- Puts the counters. -/
def State.setCnt (s : State) (c : Counters) : State := { s with cnt := c }

/-- A pair with one increment (R398, R390). -/
def Flow.add (f : Flow) (i : FlowInc) : Flow :=
  ⟨f.bytes + BitVec.ofNat 67 i.bytes, f.pkts + BitVec.ofNat 61 i.pkts⟩

/-- Writes increments to DRAM. -/
def putIncs (t : Tab Flow) (l : List FlowInc) : Tab Flow :=
  l.foldl (fun t i => tset dflt t i.idx ((tget dflt t i.idx).add i)) t

/-- Writes the increments that a condition takes, and keeps the others. -/
def Counters.flush (c : Counters) (f : FlowInc → Bool) : Counters :=
  { c with flow := putIncs c.flow (c.incs.filter f), incs := c.incs.filter (fun i => !f i) }

/-- A flow snapshot is cut once its instant has come: with every increment before the instant, and none from it on (R405). -/
def Counters.cutFlow (c : Counters) (now : Word64) : Counters :=
  match c.cutsNow 1 now with
  | some x =>
    let c := c.flush (fun i => i.time.toNat < x.due.toNat)
    { c with
      snaps := tset none0 c.snaps 1 (some { x with cut := true }), snapFlow := tCopy c.flow c.snapFlow x.first x.count
      flow := if x.clr then tOutside c.flow x.first x.count else c.flow }
  | none => c

/-- Snapshots whose instants have come are cut. -/
def State.cutDue (s : State) : State := s.setCnt ((s.cnt.cutProg s.now).cutFlow s.now)

/-- Counters of a space: 0 programmable, 1 flow. -/
def spaceSize (space : Nat) : Nat := if space = 0 then 4096 else 16777216

/-! ## Grants (R402, R403) -/

/-- The first counter from `pos` on that no grant of ring `k` covers for a right. -/
def State.granted (s : State) (k right space : Nat) : Nat → Nat → Nat
  | 0, pos => pos
  | n + 1, pos =>
    let g := s.cnt.grants.find? (fun x => match x.2 with
      | some g => g.rings.getLsbD k && g.rights.getLsbD right && b01 g.flow == space && g.first ≤ pos && pos < g.first + g.count
      | none => false)
    match g with
    | some (_, some g) => State.granted s k right space n (g.first + g.count)
    | _ => pos

/-- A PRIV 2 command lacks a grant for a counter that it names (R403). -/
def State.noGrant (s : State) (h : Hdr) (right space first count : Nat) : Bool :=
  h.priv == 2 && State.granted s (srcRing h) right space 65 first < first + count

/-- CNT_GRANT (R402). -/
def execCntGrant (h : Hdr) (p : List Word) (s : State) : Out :=
  let op := pf p 0 25 24
  let size := spaceSize (pf p 0 13 13)
  let first := pf p 1 23 0
  let count := pf p 2 24 0
  let bad := !tdWide h || p.length != 3 || 1 < op || pf p 0 12 0 != 0 || pf p 1 31 24 != 0 || pf p 2 31 25 != 0
    || (op == 0 && (count == 0 || size < first + count))
  .next (runSimple 0x803 h p bad (hdrUser h) s.slipOrQuiet []
    (fun s => s.setCnt { s.cnt with
      grants := tset none0 s.cnt.grants (pf p 0 31 26) (if op = 1 then none
        else some ⟨BitVec.ofNat 8 (pf p 0 23 16), BitVec.ofNat 2 (pf p 0 15 14), pf p 0 13 13 == 1, first, count⟩) }) s)

/-! ## Programs (R399, R400) -/

/-- Events that PRIV 2 may select (R400). -/
def userEvents : List Nat := [0x00, 0x01, 0x02, 0x03, 0x04, 0x05, 0x06, 0x0E]

/-- The program that CNT_PROGRAM gives (R399). -/
def cntOfWords (p : List Word) : CntProg :=
  { en := bit (par p 0) 19, byLen := bit (par p 0) 18, event := pf p 1 31 24, privs := BitVec.ofNat 4 (pf p 1 23 20),
    classes := BitVec.ofNat 8 (pf p 1 19 12), masterEn := bit (par p 1) 11, master := pf p 1 7 0, addr := par p 2,
    mask := par p 3 }

/-- CNT_PROGRAM (R399, R403, R406). -/
def execCntProgram (h : Hdr) (p : List Word) (s : State) : Out :=
  let k := pf p 0 31 20
  let c := cntOfWords p
  let bad := !tdWide h || p.length != 4 || pf p 0 16 0 != 0 || pf p 1 10 8 != 0 || 0x0E < c.event
    || (c.byLen && !(1 ≤ c.event && c.event ≤ 5))
  .next (runSimple 0x800 h p bad
    (h.priv == 2 && (s.noGrant h 1 0 k 1 || !userEvents.contains c.event)) s.slipOrQuiet []
    (fun s =>
      let s := { s with cfg := { s.cfg with cnts := tset restProg s.cfg.cnts k c } }
      let s := s.cutDue
      if bit (par p 0) 17 then s.setCnt { s.cnt with prog := tset z s.cnt.prog k 0 } else s) s)

/-! ## Snapshots (R404, R405) -/

/-- CNT_SNAPSHOT (R404): an instant of 0, or one already passed, is the present one. -/
def execCntSnapshot (h : Hdr) (p : List Word) (s : State) : Out :=
  let space := pf p 0 31 31
  let first := (par p 3).toNat
  let count := (par p 4).toNat
  let most := if space = 0 then 4096 else 1048576
  .next (runCommand 0x801 h p
    (!tdWide h || p.length != 5 || pf p 0 29 0 != 0 || count == 0 || most < count || spaceSize space < first + count)
    (s.noGrant h 0 space first count) s.slipOrQuiet [((tget none0 s.cnt.snaps space).isSome || s.nearActivation (par64 p 1), codeBusy)]
    (fun s => (s.setCnt { s.cnt with
      snaps := tset none0 s.cnt.snaps space (some ⟨bit (par p 0) 30, if s.reached (par64 p 1) then s.now else par64 p 1, first, count, false⟩) }, codeDeferred, [])) s)

/-- CNT_SNAPSHOT_INSTANT (R404, R405): the range is cut at T. -/
def execCntSnapshotInstant (space : Fin 2) (s : State) : Out :=
  .next (s.setCnt (if space.val = 0 then s.cnt.cutProg s.now else s.cnt.cutFlow s.now))

/-- CNT_SNAPSHOT_COMPLETE (R404). -/
def execCntSnapshotComplete (space : Fin 2) (s : State) : Out :=
  match tget none0 s.cnt.snaps space with
  | some x =>
    if x.cut then
      .next ((s.setCnt { s.cnt with snaps := tset none0 s.cnt.snaps space none }).post 0x1D8 [d16 space, d32 x.first])
    else .next s
  | none => .next s

/-! ## Reads (R401, R408) -/

/-- A pair's four result words (R401). -/
def flowWords (f : Flow) : List Word :=
  [f.bytes.extractLsb' 0 32, f.bytes.extractLsb' 32 32, mkWord [(3, bits f.bytes 66 64), (29, bits f.pkts 60 32)],
   f.pkts.extractLsb' 0 32]

/-- A 64-bit value's two result words. -/
def words64 (v : Word64) : List Word := [v.extractLsb' 0 32, v.extractLsb' 32 32]

/-- CNT_READ (R401, R403, R406). -/
def execCntRead (h : Hdr) (p : List Word) (s : State) : Out :=
  let space := pf p 0 31 31
  let snap := bit (par p 0) 30
  let clr := bit (par p 0) 29
  let n := pf p 0 7 0
  let first := (par p 1).toNat
  let bad := !tdWide h || p.length != 2 || pf p 0 28 8 != 0 || (snap && clr) || n == 0 || (if space = 0 then 64 else 32) < n
    || spaceSize space < first + n
  .next (runCommand 0x802 h p bad (s.noGrant h 0 space first n) s.slipOrQuiet []
    (fun s =>
      let s := s.cutDue
      let ks := (List.range n).map (first + ·)
      if space = 0 then
        let c := s.cnt
        (if clr then s.setCnt { c with prog := tOutside c.prog first n } else s, codeOk,
          ks.flatMap (fun k => words64 (tget z (if snap then c.snapProg else c.prog) k)))
      else
        let c := s.cnt.flush (fun i => i.time.toNat + 20000 ≤ s.now.toNat)
        (s.setCnt (if clr then { c with flow := tOutside c.flow first n } else c), codeOk,
          ks.flatMap (fun k => flowWords (tget dflt (if snap then c.snapFlow else c.flow) k)))) s)

/-- Counters and units of a scope (R407). -/
def scopeSize (scope : Nat) : Nat × Nat :=
  match scope with | 0 => (25, 128) | 1 => (27, 176) | 2 => (3, 64) | 3 => (6, 32) | 4 => (11, 1) | _ => (0, 0)

/-- A unit that is not the first lane of a committed port reads zero in scope 0 (R407). -/
def State.unitReads (s : State) (scope unit : Nat) : Bool := scope != 0 || (s.port unit).isSome

/-- PORT_CNT_READ (R408). -/
def execPortCntRead (h : Hdr) (p : List Word) (s : State) : Out :=
  let scope := pf p 0 31 29
  let clr := bit (par p 0) 28
  let unit := pf p 0 7 0
  let (n, units) := scopeSize scope
  .next (runCommand 0x804 h p (!tdWide h || p.length != 1 || pf p 0 27 8 != 0 || units ≤ unit) (clr && h.priv == 2)
    s.slipOrQuiet []
    (fun s =>
      let k := scope * 65536 + unit * 32
      let t := s.cnt.ports
      (if clr then s.setCnt { s.cnt with ports := tOutside t k n } else s, codeOk,
        mkWord [(24, 0), (8, n)] :: (List.range n).flatMap (fun i =>
          words64 (if s.unitReads scope unit then tget z t (k + i) else 0)))) s)

end Sys2Proof.Machine
end

