-- ==== Sys2Proof/Machine/D2d.lean ====
section
/-! DEFINITION. The die-to-die interface: flits, retraining and retirement of modules (R33 to R41). -/

namespace Sys2Proof.Machine

/-- One direction of a module. -/
def State.d2dDir (s : State) (m : Nat) (d : Dir) : D2dDir := tget dflt s.fd.d2d.dirs (m * 2 + (if d = .tdToFd then 1 else 0))

/-- Puts one direction of a module. -/
def State.putDir (s : State) (m : Nat) (d : Dir) (x : D2dDir) : State :=
  s.setD2d { s.fd.d2d with dirs := tset dflt s.fd.d2d.dirs (m * 2 + (if d = .tdToFd then 1 else 0)) x }

/-- FCRC of a flit holds on a module (R34). -/
def flitOk (m : Nat) (f : List Byte) : Bool :=
  crc32cFrom (0xFFFFFFFF#32 ^^^ BitVec.ofNat 32 m) (f.take 60) == BitVec.ofNat 32 (beNat ((f.drop 60).take 4))

/-- The header of a flit (R34). -/
def flitHead (f : List Byte) : Word := BitVec.ofNat 32 (beNat (f.take 4))

/-- The next flit of a direction: its part of a packet (R34). -/
def D2dDir.take (x : D2dDir) (f : List Byte) : D2dDir :=
  let vc := bits (flitHead f) 31 29
  let pos := bits (flitHead f) 28 27
  let x := { x with expect := (x.expect + 1) % 2048, discard := false, fails := 0, since := (x.since + 1) % 32 }
  if vc = 7 then x
  else
    let body := (if pos % 2 = 1 then [] else tget nil0 x.part vc) ++ (f.drop 4).take 56
    if 2 ≤ pos then { x with part := tset nil0 x.part vc [], last := tset nil0 x.last vc body }
    else { x with part := tset nil0 x.part vc body }

/-- The other direction. -/
def otherWay : Dir → Dir
  | .fdToTd => .tdToFd
  | .tdToFd => .fdToTd

/-- Key of a module's transmitter in a direction. -/
def txKey (m : Nat) (d : Dir) : Nat := wayKey m (d == .tdToFd)

/-- The receiver of a direction sends a message on VC7 of the other one (R37). -/
def State.linkSay (s : State) (m : Nat) (d : Dir) (msg : LinkMsg) : State :=
  s.putFlitTx (txKey m (otherWay d)) ((s.d2dTx (txKey m (otherWay d))).say msg)

/-- The transmitter of the direction that faces a flit learns what it returns and says (R34, R37): what a flit of VC7 says
stands with the one that sent it. -/
def State.linkHear (s : State) (m : Nat) (d : Dir) (f : List Byte) : State :=
  let w := flitHead f
  let k := txKey m (otherWay d)
  let t := (s.d2dTx k).credit (bits w 15 13) (bits w 12 0)
  let said := ((s.d2dTx (txKey m d)).replay.find? (·.1 == bits w 26 16)).bind (·.2.1.msg)
  let t := match said with | some x => if bits w 31 29 = 7 then t.told x else t | none => t
  (s.putFlitTx k t).sendsDone k

/-- D2D_RETRAIN (R38): a module retrains, its partial packets are discarded, its sequence numbers begin anew, and what it
had not been told of is sent on other modules. -/
def State.retrain (s : State) (m : Nat) : State :=
  if s.fd.d2d.retired.contains m || s.fd.d2d.training.contains m then s
  else
    let cut (d : Dir) (s : State) : State := s.putDir m d { (default : D2dDir) with last := (s.d2dDir m d).last }
    let s := cut .tdToFd (cut .fdToTd s)
    (s.setD2d { s.fd.d2d with training := s.fd.d2d.training ++ [m] }).resendAll m

/-- A flit fails FCRC (R37, R38): it and every later one are discarded, the expected FSEQ is asked for, and at 8 failures
of one FSEQ in a row the module retrains. -/
def State.flitFails (s : State) (m : Nat) (d : Dir) : State :=
  let x := s.d2dDir m d
  let s := (s.putDir m d { x with discard := true, fails := x.fails + 1, nak := some x.expect }).linkSay m d (.nak x.expect)
  if 8 ≤ x.fails + 1 then s.retrain m else s

/-- FLIT_RECEIVE (R34, R37, R38): the flit that is expected is taken, and every 32nd is acknowledged; one that has come
before is acknowledged again, and one that is still to come is discarded until the flit asked for has come. -/
def execFlitReceive (m : Fin 24) (dir : Dir) (flit : List Byte) (s : State) : Out :=
  let x := s.d2dDir m dir
  let w := flitHead flit
  if s.domain 4 ≠ 0 || !s.modOn m then .next s
  else if !flitOk m flit then .next (s.flitFails m dir)
  else if bits w 26 16 = x.expect then
    let s := (s.count 0x08 m (bits w 31 29) (some (if dir = .fdToTd then 127 else 191)) none 0).putDir m dir (x.take flit)
    let s := s.linkHear m dir flit
    let k := txKey m (otherWay dir)
    let s := if bits w 31 29 = 7 then s
      else s.putFlitTx k { s.d2dTx k with owed := tset zn (s.d2dTx k).owed (bits w 31 29) (tget zn (s.d2dTx k).owed (bits w 31 29) + 1) }
    .next (if x.since + 1 = 32 then s.linkSay m dir (.ack ((x.expect + 1) % 2048)) else s)
  else if serialLe 2048 513 (bits w 26 16) x.expect then .next (s.linkSay m dir (.ack x.expect))
  else .next s

/-- D2D_RETRAIN (R38). -/
def execD2dRetrain (m : Fin 24) (s : State) : Out := .next (s.retrain m)

/-- A module that cannot be trained is retired (R38, R41, R371). -/
def State.retireModule (s : State) (m : Nat) : State :=
  let s := s.setD2d { s.fd.d2d with retired := s.fd.d2d.retired ++ [m] }
  let loc := lifeLoc 2 0x3F m 0
  let s := if 0 < s.spareLeft 9 then s.substitute 9 0 loc m noUnit else s.recordLife 9 0 loc m noUnit 0
  s.postYield (if 17 ≤ s.modules then 0x1C8 else 0x1C9) [d16 m]

/-- A lane that faults at training is repaired by one of its module's and direction's 4 redundant lanes (R33, R371); none
where they have run out. The redundant lanes are numbered 64 to 67 (log 57). -/
def State.repairLane (s : State) (m : Nat) (up : Bool) (lane : Nat) : Option State :=
  let k := m * 2 + b01 up
  let n := tget zn s.spares.lanes k
  if 4 ≤ n then none
  else
    let s := { s with spares := { s.spares with lanes := tset zn s.spares.lanes k (n + 1) } }
    some ((s.substitute 8 0 (lifeLoc (if up then 2 else 1) 0x3F (m * 64 + lane) 0) lane (64 + n)).post 0x1CA [d16 m, d16 lane])

/-- A module's lanes after its training: whether every faulty one has been repaired. -/
def State.repairLanes (s : State) (m : Nat) : List (Bool × Fin 64) → Bool × State
  | [] => (true, s)
  | (up, lane) :: r =>
    match s.repairLane m up lane with
    | none => (false, (s.repairLanes m r).2)
    | some s => s.repairLanes m r

/-- Step 7 of a start (R490, R38): modules are trained and lanes repaired; one whose redundant lanes run out retrains. -/
def State.trainModules (s : State) (lanes : List (Fin 24 × Bool × Fin 64)) : State :=
  (List.range 24).foldl (fun s m =>
    if s.fd.d2d.retired.contains m then s
    else
      let r := s.repairLanes m ((lanes.filter (fun x => x.1.val == m)).map (·.2))
      if r.1 then r.2 else r.2.retrain m) s

/-- D2D_RETRAIN_END (R38, R41, R371): faulty lanes are repaired; a failed retrain retires the module, and one whose
redundant lanes run out retrains again. -/
def execD2dRetrainEnd (m : Fin 24) (ok : Bool) (lanes : List (Bool × Fin 64)) (s : State) : Out :=
  if !s.fd.d2d.training.contains m.val then .next s
  else
    let r := s.repairLanes m lanes
    let out (s : State) : State := s.setD2d { s.fd.d2d with training := s.fd.d2d.training.filter (· != m.val) }
    .next (if !ok then (out r.2).retireModule m else if r.1 then (out r.2).placeWaiting else r.2)

end Sys2Proof.Machine
end

