-- ==== Sys2Proof/Machine/Packet.lean ====
section
/-! DEFINITION. A command packet as it is fetched: its words and the checks of R424 to R427, for a ring and for the
tether. -/

namespace Sys2Proof.Machine

/-- A command's words but for the trailer (R423). -/
structure Packet where
  w0   : Word
  w1   : Word
  w2   : Word
  w3   : Word
  body : List Word
  deriving DecidableEq, Repr

def Packet.op (p : Packet) : Nat := bits p.w0 31 20
def Packet.cpl (p : Packet) : Bool := bit p.w0 19
def Packet.norply (p : Packet) : Bool := bit p.w0 18
def Packet.len (p : Packet) : Nat := bits p.w0 15 0
def Packet.prio (p : Packet) : Nat := bits p.w1 15 13
def Packet.priv (p : Packet) : Nat := bits p.w1 12 11
def Packet.die (p : Packet) : Nat := bits p.w2 31 30
def Packet.slice (p : Packet) : Nat := bits p.w2 29 24

/-- The header of a packet's command. -/
def Packet.hdr (p : Packet) (src : Src) : Hdr :=
  { src, tag := p.w1.extractLsb' 16 16, prio := p.w1.extractLsb' 13 3, priv := p.w1.extractLsb' 11 2, cpl := p.cpl,
    norply := p.norply, die := p.w2.extractLsb' 30 2, slice := p.w2.extractLsb' 24 6, seq := p.w3 }

/-- The packet in a command's bytes: four header words, and what follows them but for the trailer. -/
def packetOf (b : List Byte) : Packet :=
  let w := bytesWords b
  let n := bits (w.getD 0 0) 15 0 / 4
  ⟨w.getD 0 0, w.getD 1 0, w.getD 2 0, w.getD 3 0, (w.take (n - 1)).drop 4⟩

/-- The trailer of a packet of `len` bytes fails (R423). -/
def trailerBad (b : List Byte) (len : Nat) : Bool :=
  b.length < len || BitVec.ofNat 32 (leNat ((b.drop (len - 4)).take 4)) != crcRing (b.take (len - 4))

/-- The opcodes that exist (R438). -/
def allOps : List Nat :=
  [0x000, 0x001, 0x002, 0x003, 0x100, 0x101, 0x102, 0x103, 0x104, 0x200, 0x201, 0x202, 0x203, 0x204, 0x205, 0x210, 0x211,
   0x300, 0x301, 0x302, 0x303, 0x304, 0x305, 0x400, 0x401, 0x402, 0x403, 0x404, 0x405, 0x406, 0x420, 0x421, 0x422, 0x423,
   0x430, 0x431, 0x500, 0x501, 0x502, 0x503, 0x600, 0x601, 0x602, 0x603, 0x700, 0x701, 0x702, 0x703, 0x704, 0x800, 0x801,
   0x802, 0x803, 0x804, 0x900, 0x901, 0x902, 0x903, 0x910, 0x911, 0xA00, 0xA01, 0xA02, 0xB00, 0xB01, 0xB02, 0xC00, 0xC01,
   0xC02, 0xC03, 0xD00, 0xD01, 0xD02, 0xD03, 0xD10, 0xD20, 0xD21, 0xE00, 0xE01]

/-- Opcodes that require CPL (R425). -/
def cplOps : List Nat := [0x002, 0x603, 0x702, 0xC02, 0x502]

/-- Opcodes that the ROM sequencer serves (R434, R518). -/
def romOps : List Nat := [0x000, 0x001, 0x002, 0x003, 0x100, 0x101, 0xB00, 0xB01, 0xC03, 0x700, 0x701]

/-- A slice code that R8 gives its die (R10). -/
def sliceExists (die slice : Nat) : Bool :=
  slice == 0x3F || (match die with | 0 => false | 3 => slice < 5 | _ => slice < 16)

/-- The first parameter word, counted from 1, whose complement fails (R425). -/
def cplFails : Nat → List Word → Option Nat
  | i, a :: b :: r => if b = ~~~ a then cplFails (i + 1) r else some i
  | _, _ => none

/-- The first word of each pair. -/
def firstOfPairs : List Word → List Word
  | a :: _ :: r => a :: firstOfPairs r
  | l => l

/-- The parameter words that a command gets (R425). -/
def Packet.pars (p : Packet) : List Word := if p.cpl then firstOfPairs p.body else p.body

/-- Why complements fail (R425): 0 for a missing CPL, or the index of the failing word. -/
def Packet.cplBad (p : Packet) : Option Nat :=
  if p.cpl then cplFails 1 p.body else if cplOps.contains p.op then some 0 else none

/-- A fenced logical FD slice: one left without a physical slice (R426, R542). -/
def State.fencedTarget (s : State) (die slice : Nat) : Bool := die == 1 && slice < 16 && !s.hasPhys slice

/-- The checks of R426 from the opcode on: the code, and for complements the datum of event 0x1E2. -/
def State.headCheck (s : State) (p : Packet) (privBad rom : Bool) : Option (Byte × Option Nat) :=
  if !allOps.contains p.op then some (codeBadOpcode, none)
  else if privBad then some (codeNotPermitted, none)
  else if bits p.w0 17 16 ≠ 0 || bits p.w1 10 0 ≠ 0 || bits p.w2 23 0 ≠ 0 || (p.norply && p.op = 0x001)
      || (p.cpl && p.body.length % 2 = 1) then some (codeBadParam, none)
  else match p.cplBad with
    | some i => some (codeMismatch, some i)
    | none =>
      if !sliceExists p.die p.slice then some (codeBadParam, none)
      else if s.fencedTarget p.die p.slice then some (codeFenced, none)
      else if rom && !romOps.contains p.op then some (codeModeWrong, none)
      else none

/-- The reply to a packet that fails a check (R424, R429): the header echoed as it was read. -/
def State.rawReply (s : State) (p : Packet) (code : Byte) : List Word :=
  [p.w0, mkWord [(16, bits p.w1 31 16), (3, p.prio), (2, p.priv), (11, 0)], s.status code, p.w3]

/-- The ROM sequencer serves commands (R434). -/
def State.romServes (s : State) : Bool := s.host.rom || s.pwr.mode == .slipway

end Sys2Proof.Machine
end

