-- ==== Sys2Proof/Machine/Rings.lean ====
section
/-! DEFINITION. Rings: fetching commands, the ring registers, the records of outbound rings, and the system family
(R411 to R441). -/

namespace Sys2Proof.Machine

/-! ## Ring registers (R422) -/

/-- Addresses of CTAIL and RHEAD of inbound ring `n`, of OCFG and OHEAD of outbound ring `m`. -/
def ctailAddr (n : Nat) : Nat := 0x3F071000 + 0x1000 * n
def rheadAddr (n : Nat) : Nat := 0x3F071004 + 0x1000 * n
def ocfgAddr (m : Nat) : Nat := 0x3F070208 + 0x10 * m
def oheadAddr (m : Nat) : Nat := 0x3F079000 + 0x1000 * m

/-- The writable bits of a register. -/
def cfgBits (a : Nat) (v : Word) : Word := v &&& ((regRowAt a).map RegRow.cfgMask).getD 0

/-- The endpoint answers the host: its domain is on, and no near-end loopback has the link (R475, R547). -/
def State.pcieUp (s : State) : Bool := s.domain 1 == 0 && !s.host.loopback

/-- A BAR write of a ring register, where the endpoint answers. -/
def State.barRing (s : State) (a : Nat) (f : State → State) : State := if s.pcieUp then (f s).countReg a true 0 1 else s

/-- CTAIL_WRITE (R415). -/
def execCtailWrite (n : Fin 8) (v : Word) (s : State) : Out := .next (s.barRing (ctailAddr n) (fun s => s.setCfgReg (ctailAddr n) (cfgBits (ctailAddr n) v)))

/-- RHEAD_WRITE (R415, R416). -/
def execRheadWrite (n : Fin 8) (v : Word) (s : State) : Out := .next (s.barRing (rheadAddr n) (fun s => s.setCfgReg (rheadAddr n) (cfgBits (rheadAddr n) v)))

/-- OHEAD_WRITE (R440). -/
def execOheadWrite (m : Fin 5) (v : Word) (s : State) : Out := .next (s.barRing (oheadAddr m) (fun s => s.setCfgReg (oheadAddr m) (cfgBits (oheadAddr m) v)))

/-- A write to RCFG (R422): while EN is 1 only EN takes effect. -/
def State.rcfgWrite (s : State) (n : Nat) (v : Word) : State :=
  let a := rcfgAddr n
  let old := s.cfgReg a
  if s.ringOn n then
    if bit v 31 then s
    else
      let s := s.setCfgReg a (putBits old 31 31 0)
      let r := s.ring n
      s.setRing n { r with held := none, running := none, orphans := r.orphans ++ (r.running.map (·.hdr)).toList }
  else
    let s := s.setCfgReg a (cfgBits a v)
    if bit v 31 then
      ((s.setRing n { restRing n with orphans := (s.ring n).orphans, doneAt := (s.ring n).doneAt }).setCfgReg (ctailAddr n) 0).setCfgReg (rheadAddr n) 0
    else s

/-- A write to OCFG (R422). -/
def State.ocfgWrite (s : State) (m : Nat) (v : Word) : State :=
  let a := ocfgAddr m
  let old := s.cfgReg a
  if bit old 31 then (if bit v 31 then s else s.setCfgReg a (putBits old 31 31 0))
  else
    let s := s.setCfgReg a (cfgBits a v)
    if bit v 31 then
      { s.setCfgReg (oheadAddr m) 0 with host := { s.host with outs := tdel s.host.outs m } }
    else s

/-- RING_ENABLE (R422). -/
def execRingEnable (n : Fin 8) (v : Word) (s : State) : Out := .next (s.barRing (rcfgAddr n) (fun s => s.rcfgWrite n (putBits v 31 31 1)))
/-- RING_DISABLE (R422). -/
def execRingDisable (n : Fin 8) (v : Word) (s : State) : Out := .next (s.barRing (rcfgAddr n) (fun s => s.rcfgWrite n (putBits v 31 31 0)))
/-- OUT_RING_ENABLE (R422). -/
def execOutRingEnable (m : Fin 5) (v : Word) (s : State) : Out := .next (s.barRing (ocfgAddr m) (fun s => s.ocfgWrite m (putBits v 31 31 1)))
/-- OUT_RING_DISABLE (R440). -/
def execOutRingDisable (m : Fin 5) (v : Word) (s : State) : Out := .next (s.barRing (ocfgAddr m) (fun s => s.ocfgWrite m (putBits v 31 31 0)))

/-- RSTAT of an inbound ring. -/
def State.rstat (s : State) (n : Nat) : Word :=
  let r := s.ring n
  mkWord [(1, b01 r.stop), (2, r.cause), (1, b01 r.held.isSome), (6, 0), (22, r.chead)]

/-! ## Fetching (R415, R416, R424 to R427) -/

/-- CTAIL as it acts: modulo S, bits [5:0] ignored. -/
def State.ctail (s : State) (n : Nat) : Nat := s.rf (ctailAddr n) 21 6 * 64 % s.ringSize n

/-- Bytes of commands that wait in a ring. -/
def State.cmdBytes (s : State) (n : Nat) : Nat := (s.ctail n + s.ringSize n - (s.ring n).chead) % s.ringSize n

/-- Whether the ring's next command may be fetched and started (R416, R417, R424, R514, R547). -/
def State.mayFetch (s : State) (n : Nat) : Bool :=
  let r := s.ring n
  s.ringOn n && !r.stop && r.running.isNone && s.cmdBytes n != 0 && s.pcieUp && s.fw.restarting != 1
    && 4160 + (if r.held.isSome then 64 else 0) ≤ s.replyRoom n

/-- Writes a reply that a check decides; a failure is always replied to (R428). -/
def State.replyRaw (s : State) (n : Nat) (ws : List Word) : State := if s.ringOn n then s.putReply n ws else s

/-- A ring error stops the ring (R424). -/
def State.ringError (s : State) (n : Nat) (p : Packet) (code : Byte) (cause : Nat) : State :=
  let s := s.replyRaw n (s.rawReply p code)
  (s.setRing n { s.ring n with stop := true, cause }).post 0x1E1 [d16 n, d16 cause]

/-- The lowest PRIV that a ring may claim (R422, R426). -/
def State.topPriv (s : State) (n : Nat) : Nat :=
  let t := s.rf (rcfgAddr n) 23 22
  if t = 0 then (if Config.vendorDebug then 0 else 1) else t

/-- In QUIESCENT a command other than NOP, WAIT_ATTN, MODE_SET and IDENT powers up the control complex (R435). -/
def State.wakeCtrl (s : State) (op : Nat) : State :=
  if s.pwr.mode == .quiescent && 3 < op then
    { s.setDomain 3 0 with host := { s.host with ctrlAwake := true, ctrlAt := s.mono } }
  else s

/-- CHEAD moves past a command of `len` bytes and is written to host memory (R414, R415, R425). -/
def State.passCommand (s : State) (n len : Nat) : State :=
  let r := s.ring n
  let head := (r.chead + roundUp len 64) % s.ringSize n
  let s := s.setRing n { r with chead := head }
  { s with host := { s.host with mem := memWrite s.host.mem (s.ringBase n) (leBytes (BitVec.ofNat 32 head)) } }

/-- COMMAND_FETCH (R415, R424 to R427): the bytes at CHEAD; a command that passes every check is the ring's running one. -/
def execCommandFetch (n : Fin 8) (bytes : List Byte) (s : State) : Out :=
  if !s.mayFetch n then .next s
  else
    let p := packetOf bytes
    let len := p.len
    if len % 4 ≠ 0 || len < 20 || 65532 < len || s.cmdBytes n < len then .next (s.ringError n p codeBadParam 1)
    else
      let s := s.passCommand n len
      if trailerBad bytes len then .next (s.ringError n p codeCrcError 2)
      else
        let expect := (s.ring n).expect
        let s := s.setRing n { s.ring n with expect := some (p.w3 + 1) }
        let fail (s : State) (code : Byte) : Out :=
          .next ((s.count 0x0B p.op n none (some p.priv) 0).replyRaw n (s.rawReply p code))
        if p.prio ≠ n then fail s codeBadParam
        else if expect.isSome && expect != some p.w3 then fail (s.post 0x1E0 [d16 n, d32 p.w3.toNat]) codeBadParam
        else match s.headCheck p (p.priv == 3 || p.priv < s.topPriv n) s.romServes with
          | some (code, some i) => fail (s.post 0x1E2 [d16 p.op, d16 i]) code
          | some (code, none) => fail s code
          | none =>
            let s := s.wakeCtrl p.op
            .next (s.setRing n { s.ring n with running := some ⟨p.op, p.hdr (.ring n), p.pars⟩ })

/-! ## The system family (R431 to R433, R18) -/

/-- NOP (R433). -/
def execNop (h : Hdr) (p : List Word) (s : State) : Out :=
  .next (runSimple 0x000 h p (!p.isEmpty) false false [] id s)

/-- The state differs from what a WAIT_ATTN names (R431). -/
def State.differs (s : State) (w : Word) : Bool :=
  bits w 21 19 != s.attn || bits w 18 16 != modeCode s.pwr.mode || bits w 15 4 != s.ev.seq.toNat || bit w 3 != s.pair.act
    || bit w 2 != s.pair.formed

/-- WAIT_ATTN (R431, R432). -/
def execWaitAttn (h : Hdr) (p : List Word) (s : State) : Out :=
  let tmo := pf p 0 31 22
  let n := srcRing h
  let bad := p.length != 1 || tmo == 0 || 1000 < tmo || pf p 0 1 0 != 0
  let busy := (s.ring n).held.isSome
  if bad || busy || s.differs (par p 0) then
    .next (runCommand 0x001 h p bad false false [(busy, codeBusy)] (fun s => (s, codeOk, [1])) s)
  else .next (s.setRing n { s.ring n with running := none, held := some (⟨0x001, h, p⟩, s.mono + ms tmo) })

/-- Replies to a held WAIT_ATTN. -/
def State.endWait (s : State) (n : Nat) (c : Started) (changed : Bool) : State :=
  let s := s.count 0x0B 0x001 c.hdr.prio.toNat none (some c.hdr.priv.toNat) 0
  let s := s.setRing n { s.ring n with held := none }
  s.replyRaw n (s.replyWords 0x001 c.hdr c.par.length codeOk [BitVec.ofNat 32 (b01 changed)])

/-- WAIT_ATTN_CHANGE (R431). -/
def execWaitAttnChange (n : Fin 8) (s : State) : Out :=
  match (s.ring n).held with
  | some (c, _) => .next (if s.differs (par c.par 0) then s.endWait n c true else s)
  | none => .next s

/-- WAIT_ATTN_TIMEOUT (R431): TMO has expired. -/
def execWaitAttnTimeout (n : Fin 8) (s : State) : Out :=
  match (s.ring n).held with
  | some (c, t) => .next (if t ≤ s.mono then s.endWait n c (s.differs (par c.par 0)) else s)
  | none => .next s

/-- DEV_TOLLHOUSE_IDCODE on A1 (R17). -/
def idcodeWord : Word := 0x1B2564E3#32

/-- The running firmware's version; zero while none runs (R18, R490). -/
def State.fwVersion (s : State) : Word :=
  if s.pwr.fwRuns then (tget dflt s.fw.images s.fw.runBank).version else 0

/-- IDENT (R18). -/
def execIdent (h : Hdr) (p : List Word) (s : State) : Out :=
  .next (runCommand 0x003 h p (!p.isEmpty) false false []
    (fun s => (s, codeOk, [idcodeWord, Config.uid.extractLsb' 0 32, Config.uid.extractLsb' 32 32, Config.romVersion,
      s.fwVersion])) s)

/-- CTRL_IDLE_POWER_DOWN (R435): 10 ms with no command in QUIESCENT. -/
def execCtrlIdlePowerDown (s : State) : Out :=
  let idle := s.host.ctrlAt + ms 10 ≤ s.mono
    && (List.range 8).all (fun n => (s.ring n).running.isNone && (s.ring n).doneAt + ms 10 ≤ s.mono)
  .next (if s.pwr.mode == .quiescent && s.host.ctrlAwake && idle then
      { s.setDomain 3 2 with host := { s.host with ctrlAwake := false } }
    else s)

/-! ## Outbound rings (R413, R414, R439 to R441) -/

/-- OTAIL of an outbound ring, and its size, base and free space for records of an alignment. -/
def State.otail (s : State) (m : Nat) : Nat := (tget (fun _ => OutRing.mk 0) s.host.outs m).otail
def State.outSize (s : State) (m : Nat) : Nat := 16384 * 2 ^ min 8 (s.rf (ocfgAddr m) 27 24)
def State.outBase (s : State) (m : Nat) : Nat :=
  (s.cfgReg (ocfgAddr m - 4)).toNat * 2 ^ 32 + s.rf (ocfgAddr m - 8) 31 12 * 4096
def State.outRoom (s : State) (m align : Nat) : Nat :=
  (s.rf (oheadAddr m) 21 5 * 32 + 2 * s.outSize m - s.otail m % s.outSize m - align) % s.outSize m

/-- Whether an outbound ring is enabled. -/
def State.outOn (s : State) (m : Nat) : Bool := s.rf (ocfgAddr m) 31 31 == 1

/-- Writes a record into an outbound ring, and then OTAIL (R412, R414). -/
def State.putOut (s : State) (m : Nat) (b : List Byte) : State :=
  let tail := (s.otail m + b.length) % s.outSize m
  let mem := ringWrite s.host.mem (s.outBase m + 4096) (s.outSize m) (s.otail m) b
  let mem := memWrite mem (s.outBase m) (leBytes (BitVec.ofNat 32 tail))
  { s with host := { s.host with mem, outs := tset (fun _ => OutRing.mk 0) s.host.outs m ⟨tail⟩ } }

/-- `b` padded with zero bytes to a multiple of `k`. -/
def padTo (k : Nat) (b : List Byte) : List Byte := b ++ List.replicate (roundUp b.length k - b.length) 0

/-- A punt record's bytes (R439). -/
def State.puntBytes (s : State) (r : PuntRec) : List Byte :=
  let len := r.bytes.length
  let cap := min len (s.snap r.ring)
  let w := [mkWord [(6, r.reason), (1, b01 r.copy), (1, b01 (cap < len)), (1, b01 r.eg), (2, 0), (7, if r.eg then 0 else r.port),
      (14, len)],
    mkWord [(12, r.chan), (4, r.slice), (16, r.ruleVer)], r.time.extractLsb' 0 32, r.time.extractLsb' 32 32, r.emeta,
    mkWord [(12, if r.eg then 0 else r.bucket), (8, if r.eg then r.node else 0), (12, 0)], BitVec.ofNat 32 cap]
  let data := r.bytes.take cap
  padTo 64 (wordsBytes w ++ leBytes (crcRing (wordsBytes w ++ data)) ++ data)

/-- PUNT_RECORD_WRITE (R439, R440): the oldest punt that waits. -/
def execPuntRecordWrite (s : State) : Out :=
  match s.host.punts with
  | [] => .next s
  | r :: rest =>
    let s := { s with host := { s.host with punts := rest } }
    let b := s.puntBytes r
    if !s.outOn r.ring then .next (s.puntNoRoom r 0)
    else if s.outRoom r.ring 64 < b.length then .next (s.puntNoRoom r 1)
    else .next ((s.putOut r.ring b).count 0x0E r.reason r.ring (some (64 + r.slice)) none r.bytes.length)

/-- OSTAT of an outbound ring. -/
def State.ostat (s : State) (m : Nat) : Word := putBits (s.hwReg (oheadAddr m + 4)) 21 0 (s.otail m)

end Sys2Proof.Machine
end

