-- ==== Sys2Proof/Machine/EventLog.lean ====
section
/-! DEFINITION. The event log, attention and acknowledgement, and control-core machine checks (R527 to R541). -/

namespace Sys2Proof.Machine

/-- Puts the event side. -/
def State.setEv (s : State) (e : Events) : State := { s with ev := e }

/-- The die whose source it is, for a counter's master (R400, R523). -/
def eventDie (src : Nat) : Nat :=
  if 0x040 ≤ src && src ≤ 0x073 || 0x080 ≤ src && src ≤ 0x0CC then 1
  else if src = 0x010 || src = 0x011 || 0x078 ≤ src && src ≤ 0x07C || 0x100 ≤ src && src ≤ 0x1A2 || src = 0x1D8 || src = 0x1D9 then 2
  else if 0x1C0 ≤ src && src ≤ 0x1D7 then 3
  else 0

/-! ## The log (R441, R527, R528) -/

/-- Unread entries. -/
def State.unread (s : State) : Nat := (s.ev.log.filter (!·.read)).length

/-- The eight words of an entry (R441). -/
def LogEntry.words (e : LogEntry) : List Word :=
  let w := [mkWord [(12, e.seq.toNat), (3, (attnLevel e.src).getD 0), (9, e.src), (8, 0)], 0,
    e.data.extractLsb' 0 32, e.data.extractLsb' 32 32, e.time.extractLsb' 0 32, e.time.extractLsb' 32 32, 0]
  w ++ [crcRing (wordsBytes w)]

/-- The log without its oldest read entry. -/
def dropRead : List LogEntry → List LogEntry
  | [] => []
  | e :: r => if e.read then r else e :: dropRead r

/-- Enters an occurrence: EVSEQ, a place, and ring 4 (R441, R527, R528). There is room. -/
def State.logEnter (s : State) (r : EvRec) : State :=
  let seq := s.ev.seq + 1
  let e : LogEntry := ⟨seq, r.src, r.data, r.time, false⟩
  let ok := s.outOn 4 && 32 ≤ s.outRoom 4 32
  let s := if ok then s.putOut 4 (wordsBytes e.words) else s.addLost 4
  let e := { e with read := ok && s.rf 0x3F050008 31 31 == 1 }
  let log := if s.ev.log.length < 1024 then s.ev.log else dropRead s.ev.log
  let s := s.setEv { s.ev with seq, log := log ++ [e], newest := tset zn s.ev.newest r.src (1 + seq.toNat) }
  s.count 0x0D r.src ((attnLevel r.src).getD 0) (some (eventDie r.src * 64 + 63)) none 0

/-- An occurrence counts in its source's counter and raises attention (R529, R531). -/
def State.noteEvent (s : State) (src : Nat) : State :=
  s.setEv { s.ev with
    counts := tset z s.ev.counts src (tget z s.ev.counts src + 1), unack := putBits s.ev.unack src src 1
    newest := tset zn s.ev.newest src 0 }

/-- A place that frees up after an overflow takes event 0x012 (R528). -/
def State.payOwed (s : State) : State :=
  if s.ev.owed && s.unread < 1024 then
    let n := s.ev.lost.toNat
    let s := (s.setEv { s.ev with owed := false, lost := 0 }).noteEvent 0x012
    s.logEnter ⟨0x012, evData [d32 n], s.now, false⟩
  else s

/-- The log head takes one occurrence (R528, R529, R531, R535). -/
def State.takeEvent (s : State) (r : EvRec) : State :=
  if (attnLevel r.src).isNone then s
  else
    let s := s.noteEvent r.src
    if r.limited || s.ev.mask.getLsbD r.src then s
    else if 1024 ≤ s.unread then s.setEv { s.ev with lost := s.ev.lost + 1, ovf := true, owed := true }
    else s.logEnter r

/-- The occurrence that the head takes next: of the oldest cycle of 20 ns, the least source (R527). -/
def nextEvent (l : List EvRec) : Option EvRec :=
  match l with
  | [] => none
  | h :: _ =>
    let c := l.filter (fun r => r.time.toNat / 20 == h.time.toNat / 20)
    c.find? (fun r => c.all (fun x => r.src ≤ x.src))

/-- EVENT_LOG_ENTRY (R527). -/
def execEventLogEntry (s : State) : Out :=
  match nextEvent s.ev.flight with
  | none => .next s
  | some r => .next ((s.setEv { s.ev with flight := s.ev.flight.erase r }).takeEvent r).payOwed

/-! ## The EVT family (R532 to R536) -/

/-- Marks the first `n` unread entries read. -/
def readFirst : Nat → List LogEntry → List LogEntry
  | 0, l => l
  | _, [] => []
  | n + 1, e :: r => if e.read then e :: readFirst (n + 1) r else { e with read := true } :: readFirst n r

/-- EVT_READ (R534, R536). -/
def execEvtRead (h : Hdr) (p : List Word) (s : State) : Out :=
  let sel := pf p 0 31 30
  let peek := bit (par p 0) 29
  let first := pf p 0 24 16
  let n := pf p 0 7 0
  let bad := !devWide h || p.length != 1 || sel == 3 || pf p 0 28 25 != 0 || pf p 0 15 8 != 0
    || (sel == 0 && (n == 0 || 32 < n)) || (sel == 1 && (n == 0 || 512 < first + n))
  .next (runCommand 0xB00 h p bad (hdrUser h) false []
    (fun s => match sel with
      | 0 =>
        let es := (s.ev.log.filter (!·.read)).take n
        let ovf := s.ev.ovf
        let lost := min 4095 s.ev.lost.toNat
        let s := if peek then s else s.setEv { s.ev with log := readFirst n s.ev.log, ovf := false }
        let left := s.unread
        (s.payOwed, codeOk, mkWord [(1, b01 ovf), (11, left), (12, lost), (8, es.length)] :: es.flatMap LogEntry.words)
      | 1 => (s, codeOk, BitVec.ofNat 32 n :: (List.range n).map (fun i => tget z s.ev.counts (first + i)))
      | _ => (s, codeOk, (List.range 16).map (fun w => s.ev.unack.extractLsb' (32 * w) 32))) s)

/-- The acknowledgement of a source (R531, R532, R541). -/
def State.ackSource (s : State) (src : Nat) : State :=
  let s := s.setEv { s.ev with unack := putBits s.ev.unack src src 0 }
  if src = 0x0C0 then s.setEng { s.fd.eng with mchk := [] }
  else if src = 0x010 then { s with host := { s.host with coreFlags := [] } }
  else s

/-- EVT_ACK (R532, R533, R536). -/
def execEvtAck (h : Hdr) (p : List Word) (s : State) : Out :=
  let op := pf p 0 31 30
  let first := pf p 0 24 16
  let n := pf p 0 9 0
  let bad := !devWide h || p.length != 2 || op == 3 || pf p 0 29 25 != 0 || pf p 0 15 10 != 0 || pf p 1 31 12 != 0
    || (op != 1 && par p 1 != 0) || (op == 0 && (n == 0 || 512 < first + n))
  .next (runCommand 0xB01 h p bad (hdrUser h) false []
    (fun s =>
      let named (e : Nat) : Bool := match op with
        | 0 => first ≤ e && e < first + n
        | 1 => let k := tget zn s.ev.newest e; k != 0 && serialLe 4096 2048 (k - 1) (pf p 1 11 0)
        | _ => true
      let l := (List.range 512).filter named
      let k := (l.filter (fun e => s.ev.unack.getLsbD e)).length
      (l.foldl (fun s e => s.ackSource e) s, codeOk, [BitVec.ofNat 32 (k % 1024)])) s)

/-- Puts the mask bits, which the registers DEV_EVENTS_MASKn read (R535). -/
def State.setMask (s : State) (m : BitVec 512) : State :=
  (List.range 16).foldl (fun s w => s.setCfgReg (0x3F050100 + 4 * w) (m.extractLsb' (32 * w) 32)) (s.setEv { s.ev with mask := m })

/-- EVT_MASK (R535, R536). -/
def execEvtMask (h : Hdr) (p : List Word) (s : State) : Out :=
  let on := bit (par p 0) 31
  let first := pf p 0 24 16
  let n := pf p 0 9 0
  let bad := !devWide h || p.length != 1 || pf p 0 30 25 != 0 || pf p 0 15 10 != 0 || n == 0 || 512 < first + n
  .next (runCommand 0xB02 h p bad (hdrUser h) (s.pwr.mode == .slipway) []
    (fun s =>
      let l := ((List.range n).map (first + ·)).filter (fun e => maskable e && s.ev.mask.getLsbD e != on)
      (s.setMask (l.foldl (fun m e => putBits m e e (b01 on)) s.ev.mask), codeOk,
        [BitVec.ofNat 32 (l.length % 1024)])) s)

/-! ## Control cores (R539 to R542) -/

/-- CORE_MACHINE_CHECK (R437, R540, R541), while the control complex is on: `journalLost` names the ring whose command's step has lost its journal. -/
def execCoreMachineCheck (core : Fin 5) (journalLost : Option (Fin 8)) (s : State) : Out :=
  if !s.host.cores.contains core || s.domain 3 ≠ 0 then .next s
  else
    let s := match journalLost with
      | some n =>
        match (s.ring n).running with
        | some c => (s.post 0x1E3 [d16 c.op, d16 0]).finish c.op c.hdr c.par.length codeInternal []
        | none => s
      | none => s
    let k := s.host.cores.length
    if !s.host.coreFlags.contains core then
      .next ({ s with host := { s.host with coreFlags := s.host.coreFlags ++ [core.val] } }.post 0x010 [d16 k])
    else
      let fence (s : State) (more : List Nat) : State :=
        { s with host := { s.host with
            cores := (s.host.cores.filter (· != core.val)) ++ more
            coreFlags := s.host.coreFlags.filter (· != core.val) } }
      match s.host.coreSpares with
      | x :: rest =>
        let s := fence { s with host := { s.host with coreSpares := rest } } [x]
        .next ((s.post 0x011 [d16 k, d16 1]).substitute 4 3 (lifeLoc 2 0x3F core 0) core x)
      | [] =>
        if k = 1 then .next (s.post 0x011 [d16 k, d16 0])
        else .next (((fence s []).post 0x011 [d16 (k - 1), d16 1]).recordLife 15 3 (lifeLoc 2 0x3F core 0) core noUnit 0)

/-- DEV_EVENTS_LOGSTAT. -/
def State.logStat (s : State) : Word :=
  mkWord [(12, s.ev.seq.toNat), (3, s.attn), (1, b01 s.ev.ovf), (11, s.unread), (5, 0)]

end Sys2Proof.Machine
end

