-- ==== Sys2Proof/Machine/Queue.lean ====
section
/-! DEFINITION. Queues: admission, multicast copies, promotion, the ways a packet leaves its queue, and the commands
that configure and read queues (R231, R232, R236 to R244, R254 to R258, R264, R276 to R286, R538). -/

namespace Sys2Proof.Machine

/-- Puts the crossbar. -/
def State.setXb (s : State) (x : Xbar) : State := { s with td := { s.td with xb := x } }
/-- A queue as it runs. -/
def State.qrun (s : State) (q : Nat) : QRun := tget dflt s.td.q q
def State.putQ (s : State) (q : Nat) (r : QRun) : State := { s with td := { s.td with q := tset dflt s.td.q q r } }
/-- The queue slice of a queue (R222). -/
def sliceOfQ (q : Nat) : Nat := q / 16384
/-- The profile registers of a queue: A, B, C for k = 0, 1, 2 (R276). -/
def State.prof (s : State) (q k : Nat) : Word := s.cfgReg (0xBF234000 + 16 * (s.queueCfg q).profile + 4 * k)

/-- Chunks of a packet: its head chunk and its data (R224). -/
def chunksOf (len : Nat) : Nat := 1 + (len + 31) / 32

/-- Chunks of a cut-through packet once 512 bytes of it are stored (R231). -/
def cutChunks : Nat := 17

/-! ## Chunks in berths -/

/-- Lays `n` chunks into the open berth and then into new ones: the runs, and the berth left open (R236). -/
def layChunks : Nat → Option (Nat × Nat) → List Nat → List Seg → List Seg × Option (Nat × Nat)
  | n, fill, [], segs =>
    match fill with
    | some (b, u) =>
      let k := min n (8 - u)
      (if k = 0 then segs else segs ++ [⟨b, u, k⟩], if u + k < 8 then some (b, u + k) else none)
    | none => (segs, none)
  | n, fill, c :: bs, segs =>
    match fill with
    | some (b, u) =>
      let k := min n (8 - u)
      layChunks (n - k) (some (c, 0)) bs (if k = 0 then segs else segs ++ [⟨b, u, k⟩])
    | none => layChunks n (some (c, 0)) bs segs

/-- New berths that `n` chunks need behind the open one. -/
def newBerths (n : Nat) (fill : Option (Nat × Nat)) : Nat :=
  let room := match fill with | some (_, u) => 8 - u | none => 0
  (n - room + 7) / 8

/-- Berths that entries of a queue still use, and the open one. -/
def QRun.uses (r : QRun) (b : Nat) : Bool :=
  r.ents.any (fun e => e.segs.any (·.berth == b)) || (match r.fill with | some (f, _) => f == b | none => false)

/-- Frees the berths among `l` that the queue no longer uses (R240, R242). -/
def State.unref (s : State) (q : Nat) (l : List Nat) : State :=
  s.freeAll (sliceOfQ q) (l.eraseDups.filter (fun b => !(s.qrun q).uses b))

/-- A multicast slot's key. -/
def slotKey (slice k : Nat) : Nat := slice * 32768 + k

/-- A copy leaves: the slot's reference count falls, and at zero its body is freed, or lost with a bad pointer
(R257, R538). -/
def State.unslot (s : State) (slice k : Nat) : State :=
  match tfind s.td.slots (slotKey slice k) with
  | none => s
  | some x =>
    if 1 < x.refs then { s with td := { s.td with slots := tins s.td.slots (slotKey slice k) { x with refs := x.refs - 1 } } }
    else
      let s := { s with td := { s.td with slots := tdel s.td.slots (slotKey slice k) } }
      let l := (x.segs.map (·.berth)).eraseDups
      if x.bad then l.foldl (fun s b => s.loseBerth b) s else s.freeAll slice l

/-- A queue, a group or a channel that holds no packet any more has a deficit of zero (R267). -/
def State.restDeficits (s : State) (q : Nat) : State :=
  let g := s.groupOf q
  let c := s.chanOf q
  let backlog (f : Nat → Bool) : Bool := s.td.q.any (fun x => !x.2.ents.isEmpty && f x.1)
  let zero (k : Nat) (on : Bool) (s : State) : State := if on then s else s.putDeficit k 0
  zero (nodeKey 2 c) (backlog (fun x => s.chanOf x == c))
    (zero (nodeKey 1 g) (backlog (fun x => s.groupOf x == g)) (zero (nodeKey 0 q) (backlog (· == q)) s))

/-- A packet or copy leaves its queue: its berths and its slot reference go, and what it leaves empty loses its deficit (R240, R257,
R267). -/
def State.leaveQ (s : State) (q : Nat) (e : QEnt) : State :=
  let r := s.qrun q
  let s := s.putQ q { r with ents := r.ents.filter (·.id != e.id), depth := r.depth - e.len }
  let s := s.unref q (e.segs.map (·.berth))
  let s := match e.slot with
    | some k => s.unslot (sliceOfQ q) k
    | none => s
  s.restDeficits q

/-- Counts a drop of a queue's packet on its egress port node (R277). -/
def State.qcount (s : State) (q idx len : Nat) : State :=
  match s.nodeOf q with
  | some n => s.drop 1 n idx (sliceOfQ q) len
  | none => s

/-- Drops a queued packet or copy, counted (R240). -/
def State.dropQ (s : State) (q idx : Nat) (e : QEnt) : State := (s.qcount q idx e.len).leaveQ q e

/-! ## ECN and age (R278 to R281) -/

/-- The next value of a queue slice's LFSR (R278). -/
def lfsrNext (v : BitVec 16) : BitVec 16 :=
  (v <<< 1) ||| (if bit v 15 ^^ bit v 14 ^^ bit v 12 ^^ bit v 3 then 1 else 0)

/-- The seed of an LFSR. DESIGN CHOICE: the spec gives none. -/
def lfsrSeed (_ : Nat) : BitVec 16 := 0xFFFF#16

/-- One decision of the ramp: `x` and the ends in like units, drawn from the queue slice's LFSR (R278). -/
def State.ramp (s : State) (slice x emin emax pmax : Nat) : Bool × State :=
  let v := lfsrNext (tget lfsrSeed s.td.sched.lfsr slice)
  let s := s.setSched { s.td.sched with lfsr := tset lfsrSeed s.td.sched.lfsr slice v }
  let yes := if x < emin then false
    else if emax ≤ x || emax ≤ emin then true
    else v.toNat * 32 * (emax - emin) < 65536 * (pmax + 1) * (x - emin)
  (yes, s)

/-- Whether a packet is chosen for marking in a mode: `x` in bytes (mode 0) or ns (mode 1) (R278, R279). -/
def State.ecn (s : State) (q mode x : Nat) : Bool × State :=
  let c := s.prof q 2
  if bit c 31 && bits c 30 30 == mode then
    let u := if mode = 0 then 16384 else 16000
    s.ramp (sliceOfQ q) x (bits c 11 0 * u) (bits c 23 12 * u) (bits c 28 24)
  else (false, s)

/-- The admission stamp: DEVTIME[33:2] (R280). -/
def State.stampNow (s : State) : Nat := bits s.now 33 2

/-- A packet's age in slots; a difference of 2^31 or more reads as 0 (R280, R385). -/
def State.age (s : State) (e : QEnt) : Nat :=
  let d := (s.stampNow + 2 ^ 32 - e.stamp) % 2 ^ 32
  if 2 ^ 31 ≤ d then 0 else d

/-- MAX_AGE of a queue in slots (R276). -/
def State.maxAge (s : State) (q : Nat) : Nat :=
  let a := bits (s.prof q 1) 15 4
  (if a = 0 then 4095 else a) * 250000

/-- Drops a packet as AGED (R281). -/
def State.dropAged (s : State) (q : Nat) (e : QEnt) : State :=
  match s.nodeOf q with
  | some n => (s.dropQ q 8 e).postOnce 0x145 n [d16 n]
  | none => s.leaveQ q e

/-! ## Admission (R231, R241, R277) -/

/-- How the tests of R277 before the berths end. -/
inductive Adm
  | ok (ce : Bool)
  | noPort
  | drop (idx : Nat)
  deriving DecidableEq, Repr

/-- LIMIT of a colour in bytes, 256 times (R276, R277). -/
def State.limit256 (s : State) (q colour : Nat) : Nat :=
  bits (s.prof q 0) 31 8 * 1024
    * (match colour with | 0 => 256 | 1 => bits (s.prof q 1) 31 24 | _ => bits (s.prof q 1) 23 16)

/-- The tests of R277 but for the berths, and a bad tail known on arrival (R232). -/
def State.decide (s : State) (q : Nat) (p : TdPkt) : Adm × State :=
  let r := s.qrun q
  let len := p.bytes.length
  match s.nodeOf q with
  | none => (.noPort, s)
  | some n =>
    let st := (s.pnode n).st
    let lim := s.limit256 q p.colour
    if p.landed && p.tail = some true then (.drop 11, s)
    else if 2 ≤ st then (.drop 2, s)
    else if !(s.queueCfg q).en then (.drop 3, s)
    else if (lim < (r.depth + len) * 256 && !r.ents.isEmpty)
        || (p.colour = 1 && bits (s.prof q 1) 31 24 = 0) || (2 ≤ p.colour && bits (s.prof q 1) 23 16 = 0) then (.drop 4, s)
    else
      let (ce, s) := s.ecn q 0 r.depth
      if ce && bits p.emeta 1 0 = 0 && bit (s.prof q 2) 29 then (.drop 6, s) else (.ok ce, s)

/-- Counts what the tests have dropped (R277). -/
def State.admCount (s : State) (q len : Nat) : Adm → State
  | .ok _ => s
  | .noPort => s.bump 4 0 10 1
  | .drop i => s.qcount q i len

/-- Moves a queue's dequeue measure to the present 8 µs interval (R241). -/
def QRun.roll (r : QRun) (mono : Nat) : QRun :=
  let n := mono / 8000
  if n = r.ivl then r
  else { r with ivl := n, deqLast := if n = r.ivl + 1 then r.deq else 0, deq := 0 }

/-- TD_BERTH_TIERCFG as predictions use it: a value counts from 1 µs after its write (R244). -/
def State.tierCfg (s : State) : Word :=
  ((s.br.tierPast.find? (fun x => s.mono < x.2)).map (·.1)).getD (s.cfgReg 0xBF220000)

/-- A write to TD_BERTH_TIERCFG (R244). -/
def State.tierCfgWrite (s : State) (v : Word) : State :=
  let past := s.br.tierPast.filter (fun x => s.mono < x.2) ++ [(s.cfgReg 0xBF220000, s.mono + 1000)]
  (s.setBerths { s.br with tierPast := past }).setCfgReg 0xBF220000 v

/-- PROMO_THR in ns (R244). -/
def State.promoThr (s : State) : Nat := max 1 (bits s.tierCfg 31 20) * 250
/-- PROMO_AGE in ns (R244). -/
def State.promoAge (s : State) : Nat := max s.promoThr (bits s.tierCfg 19 8 * 250)

/-- Whether an arrival behind `b` bytes is marked for promotion (R241): its wait is b × 8,000 ns ÷ the bytes of the
last interval. -/
def State.marks (s : State) (b deq : Nat) : Bool :=
  let long (thr : Nat) : Bool := b ≠ 0 && thr * deq ≤ b * 8000
  long s.promoThr || (s.freeBerths 0 * 16 < bits s.tierCfg 7 4 * 262144 && b ≠ 0 && s.promoThr * deq ≤ 4 * (b * 8000))

/-- A queue may be promoted: its DPOOL is a DRAM pool (R276). -/
def State.mayPromote (s : State) (q : Nat) : Bool := 8 ≤ bits (s.prof q 0) 3 0

/-- Whether a unicast packet travels cut-through (R231). -/
def State.cuts (s : State) (q : Nat) (p : TdPkt) : Bool :=
  p.ct && (s.qrun q).ents.isEmpty && !p.landed
    && (match s.nodeOf q, s.port p.port with
        | some n, some c => (s.pnode n).st == 0 && s.nodeRate n ≤ c.rate
        | _, _ => false)

/-- Puts `n` chunks of an entry into a queue's stream, or fails for want of berths (R236, R246). -/
def State.enqueue (s : State) (q n bad : Nat) (p : TdPkt) (slot : Option Nat) (copy : Nat) (ce : Bool) : Option State :=
  let r := (s.qrun q).roll s.mono
  let pool := bits (s.prof q 0) 7 4 % 8
  match State.allocMany (sliceOfQ q) pool (newBerths n r.fill) bad [] s with
  | (none, _) => none
  | (some bs, s) =>
    let (segs, fill) := layChunks n r.fill bs []
    let len := p.bytes.length
    let e : QEnt :=
      { id := s.td.nextEnt, pkt := p, slot, copy, len, stamp := s.stampNow, born := s.mono, segs, inDram := 0, writing := 0,
        marked := slot.isNone && s.mayPromote q && s.marks r.depth r.deqLast, cut := slot.isNone && s.cuts q p, ce }
    let r := { r with ents := r.ents ++ [e], fill, depth := r.depth + len, maxDepth := max r.maxDepth (r.depth + len) }
    let s := (s.count 0x03 q p.colour (some (128 + sliceOfQ q)) none len).stir (48 + sliceOfQ q)
    some ({ s with td := { s.td with nextEnt := s.td.nextEnt + 1 } }.putQ q r)

/-- A failed allocation leaves its event and the frees of the berths it had taken (R246). -/
def State.enqueueFail (s : State) (q n bad : Nat) : State :=
  (State.allocMany (sliceOfQ q) (bits (s.prof q 0) 7 4 % 8) (newBerths n (s.qrun q).fill) bad [] s).2

/-- A unicast packet reaches its queue (R277). -/
def State.admitUni (s : State) (p : TdPkt) (bad : Nat) : State :=
  let q := p.queue
  match s.decide q p with
  | (.ok ce, s) =>
    let n := if p.part then cutChunks else chunksOf p.bytes.length
    match s.enqueue q n bad p none 0 ce with
    | some t =>
      match tfind t.td.xb.pkts p.pid with
      | some f => if p.part then t.setXb { t.td.xb with pkts := tins t.td.xb.pkts p.pid { f with ent := s.td.nextEnt + 1 } } else t
      | none => t
    | none => (s.enqueueFail q n bad).qcount q 7 p.bytes.length
  | (a, s) => s.admCount q p.bytes.length a

/-! ## Multicast (R254 to R258) -/

/-- A tally is closed once every queue slice has decided: one of the group's counters advances (R258). -/
def State.tally (s : State) (pid slice ok bad : Nat) : State :=
  match tget none0 s.td.tallies pid with
  | none => s
  | some t =>
    let t := { t with left := t.left.erase slice, ok := t.ok + ok, bad := t.bad + bad }
    if t.left.isEmpty then
      let k := t.group * 4 + (if t.bad = 0 then 0 else if 0 < t.ok then 1 else 2)
      { s with td := { s.td with
          tallies := tset none0 s.td.tallies pid none
          mcCnt := tset z s.td.mcCnt k (tget z s.td.mcCnt k + 1) } }
    else { s with td := { s.td with tallies := tset none0 s.td.tallies pid (some t) } }

/-- The copies of a list that one queue slice makes, by place in the list (R256). -/
def copiesIn (slice : Nat) (l : List McEnt) : List (Nat × McEnt) :=
  ((List.range l.length).zip l).filter (fun c => sliceOfQ c.2.queue == slice)

/-- A packet as one copy carries it (R254, R256). -/
def copyOf (p : TdPkt) (e : McEnt) : TdPkt := { p with queue := e.queue, emeta := e.emeta.getD p.emeta }

/-- Decides the copies of a queue slice in list order: those admitted, with their CE flags (R256, R257). -/
def State.decideCopies (p : TdPkt) (group : Nat) (replBad : List Nat) :
    List (Nat × McEnt) → List (Nat × McEnt × Bool) → State → List (Nat × McEnt × Bool) × State
  | [], l, s => (l, s)
  | (i, e) :: r, l, s =>
    if replBad.contains i then
      State.decideCopies p group replBad r l ((s.qcount e.queue 17 p.bytes.length).post 0x10E [d16 group])
    else
      match s.decide e.queue (copyOf p e) with
      | (.ok ce, s) => State.decideCopies p group replBad r (l ++ [(i, e, ce)]) s
      | (a, s) => State.decideCopies p group replBad r l (s.admCount e.queue p.bytes.length a)

/-- The lowest free multicast slot of a queue slice (R257). -/
def State.freeSlot (s : State) (slice : Nat) : Option Nat :=
  (List.range (s.td.slots.length + 1)).find? (fun k => k < 32768 && (tfind s.td.slots (slotKey slice k)).isNone)

/-- Writes the reference chunks of the admitted copies: how many found a berth (R256, R246). -/
def State.refCopies (p : TdPkt) (k : Nat) : List (Nat × McEnt × Bool) → Nat → State → Nat × State
  | [], n, s => (n, s)
  | (i, e, ce) :: r, n, s =>
    match s.enqueue e.queue 1 0 (copyOf p e) (some k) i ce with
    | some s => State.refCopies p k r (n + 1) s
    | none => State.refCopies p k r n ((s.enqueueFail e.queue 1 0).qcount e.queue 7 p.bytes.length)

/-- A multicast packet reaches a queue slice (R256 to R258): its body is marked for promotion where the shortest predicted wait of
its copies, and so each of them, is long enough (R241, R256). -/
def State.admitMc (s : State) (slice : Nat) (p : TdPkt) (bad : Nat) (replBad : List Nat) : State :=
  match tget none0 s.td.tallies p.pid with
  | none => s
  | some t =>
    let cs := copiesIn slice t.list
    let (adm, s) := State.decideCopies p t.group replBad cs [] s
    let all := cs.length
    let dropAll (idx : Nat) (s : State) : State := adm.foldl (fun s c => s.qcount c.2.1.queue idx p.bytes.length) s
    if adm.isEmpty then s.tally p.pid slice 0 all
    else
      match s.freeSlot slice with
      | none => ((dropAll 18 s).postOnce 0x10D 0 [d16 slice]).tally p.pid slice 0 all
      | some k =>
        let n := chunksOf p.bytes.length
        let pool := s.rf 0xBF220000 3 1
        match State.allocMany slice pool ((n + 7) / 8) bad [] s with
        | (none, s) => (dropAll 7 s).tally p.pid slice 0 all
        | (some bs, s) =>
          let segs := (layChunks n none bs []).1
          let marked := adm.all (fun c =>
            let r := (s.qrun c.2.1.queue).roll s.mono
            s.marks r.depth r.deqLast)
          let put (refs : Nat) (s : State) : State := { s with td := { s.td with
            slots := tins s.td.slots (slotKey slice k) ⟨refs, false, marked, segs, p⟩ } }
          let (m, s) := State.refCopies p k adm 0 (put adm.length s)
          let s := if m = 0 then (put 1 s).unslot slice k else put m s
          s.tally p.pid slice m (all - m)

/-- QUEUE_ADMIT (R256, R277): the oldest packet that has crossed to a queue slice. -/
def execQueueAdmit (slice : Fin 16) (badPops : Nat) (replBad : List Nat) (s : State) : Out :=
  match tget nil0 s.td.xb.arrived slice with
  | [] => .next s
  | p :: r =>
    let s := { s with td := { s.td with xb := { s.td.xb with arrived := tset nil0 s.td.xb.arrived slice r } } }
    .next (if p.mc then s.admitMc slice p badPops replBad else s.admitUni p badPops)

/-! ## Promotion (R241 to R244) -/

/-- Marks the bodies of a queue's copies that have reached PROMO_AGE (R241, R256). -/
def State.ageBodies (s : State) (q : Nat) : State :=
  let ks := ((s.qrun q).ents.filter (fun e => e.born + s.promoAge ≤ s.mono)).filterMap
    (fun e => e.slot.map (slotKey (sliceOfQ q)))
  { s with td := { s.td with slots := s.td.slots.map (fun x => (x.1, if ks.contains x.1 then { x.2 with marked := true } else x.2)) } }

/-- PROMO_AGE_EXPIRE (R241, R242): packets and bodies still in the SRAM tier at PROMO_AGE are marked. -/
def execPromoAgeExpire (q : Fin 262144) (s : State) : Out :=
  let s := s.ageBodies q
  let r := s.qrun q
  let old (e : QEnt) : Bool := e.slot.isNone && e.born + s.promoAge ≤ s.mono && e.inDram + e.writing < chunksOf e.len
  if !s.mayPromote q || !r.ents.any old then .next s
  else .next (s.putQ q { r with
    ents := r.ents.map (fun e => if old e then { e with marked := true } else e), urgent := true })

/-- Gathers up to `n` chunks of marked packets in stream order: packet numbers with their chunks (R242). -/
def gather : Nat → List QEnt → List (Nat × Nat)
  | _, [] => []
  | n, e :: r =>
    let k := if e.marked && e.slot.isNone && !e.pkt.part then min n (chunksOf e.len - e.inDram - e.writing) else 0
    if k = 0 then gather n r else (e.id, k) :: gather (n - k) r

/-- A body of a queue's copies that is marked and still in the SRAM tier (R256). -/
def State.bodyOfQ (s : State) (q : Nat) : Option (Nat × McSlot) :=
  (s.qrun q).ents.findSome? (fun e => match e.slot with
    | some k =>
      match tfind s.td.slots (slotKey (sliceOfQ q) k) with
      | some x => if x.marked && x.segs.any (fun g => tierOf g.berth = 0) then some (k, x) else none
      | none => none
    | none => none)

/-- Promotes a multicast body whole; only its slot's pointer changes (R256). -/
def State.promoteBody (s : State) (q k : Nat) (x : McSlot) (bad : Nat) : State :=
  let slice := sliceOfQ q
  let n := chunksOf x.pkt.bytes.length
  match State.allocMany slice (s.rf 0xBF220000 3 1 + 8) ((n + 31) / 32) bad [] s with
  | (none, s) => s.bump 4 0 3 1
  | (some bs, s) =>
    let segs := (List.range bs.length).zip bs |>.map (fun b => (⟨b.2, 0, min 32 (n - 32 * b.1)⟩ : Seg))
    let s := { s with td := { s.td with slots := tins s.td.slots (slotKey slice k) { x with segs } } }
    let s := bs.foldl (fun s _ => s.hbmBerth 1 slice) s
    s.freeAll slice (x.segs.map (·.berth)).eraseDups

/-- PROMOTION_WRITE (R242, R243, R256): gathered chunks begin their write into a DRAM berth. -/
def execPromotionWrite (q : Fin 262144) (badPops : Nat) (s : State) : Out :=
  let r := s.qrun q
  let parts := if s.mayPromote q then gather 32 r.ents else []
  let used := (parts.map (·.2)).sum
  if used = 0 ∨ (used < 32 ∧ ¬ r.urgent) then
    match s.bodyOfQ q with
    | some (k, x) => .next (s.promoteBody q k x badPops)
    | none => .next s
  else
    match s.allocBerth (sliceOfQ q) (bits (s.prof q 0) 3 0) badPops with
    | (none, s) => .next (s.bump 4 0 3 parts.length)
    | (some b, s) =>
      let taken (e : QEnt) : Nat := ((parts.find? (·.1 == e.id)).map (·.2)).getD 0
      .next (s.putQ q { r with
        ents := r.ents.map (fun e => { e with writing := e.writing + taken e })
        writes := r.writes ++ [⟨b, parts, used⟩], urgent := false })

/-- The runs of an entry without the first `k` chunks of those that stand in SRAM berths. -/
def cutSram : Nat → List Seg → List Seg
  | _, [] => []
  | k, g :: r =>
    if tierOf g.berth = 1 then g :: cutSram k r
    else if k = 0 then g :: r
    else if g.n ≤ k then cutSram (k - g.n) r
    else { g with lo := g.lo + k, n := g.n - k } :: r

/-- Links a written berth in place of an entry's next `k` chunks, at chunk `lo` of the berth (R242). -/
def QEnt.linked (e : QEnt) (b lo k : Nat) : QEnt :=
  let l := cutSram k e.segs
  { e with
    segs := l.filter (fun g => tierOf g.berth == 1) ++ [⟨b, lo, k⟩] ++ l.filter (fun g => tierOf g.berth == 0)
    inDram := e.inDram + k, writing := e.writing - k }

/-- Links a written berth's parts in turn. -/
def linkParts (b : Nat) : Nat → List (Nat × Nat) → List QEnt → List QEnt
  | _, [], es => es
  | lo, (id, k) :: r, es => linkParts b (lo + k) r (es.map (fun e => if e.id = id then e.linked b lo k else e))

/-- PROMOTION_WRITE_COMPLETE (R242, R243): the oldest write of a queue ends; a berth whose packets have all left is
freed. -/
def execPromotionWriteComplete (q : Fin 262144) (s : State) : Out :=
  let r := s.qrun q
  match r.writes with
  | [] => .next s
  | w :: ws =>
    let was := r.ents.flatMap (fun e => e.segs.map (·.berth))
    let s := s.putQ q { r with writes := ws, ents := linkParts w.berth 0 w.parts r.ents }
    .next ((s.hbmBerth 1 (sliceOfQ q)).unref q (w.berth :: was))

/-- Drops every packet of a queue that has a chunk in a berth (R238). -/
def State.dropBerth (s : State) (q b idx : Nat) : State :=
  ((s.qrun q).ents.filter (fun e => e.segs.any (·.berth == b))).foldl (fun s e => s.dropQ q idx e) s

/-- A berth reads badly: by its BCRC in DRAM, by ECC in SRAM (R238). -/
def State.berthBad (s : State) (q b : Nat) : State :=
  if tierOf b = 1 then (s.dropBerth q b 14).post 0x104 [d32 b] else (s.dropBerth q b 15).post 0x107 [d32 b]

/-- The link of berth `b` fails its complement (R239): the queue's packets from that berth on are dropped, and the berths behind it
are lost. DEDUCED (log 111): packets that end before the berth stay. A write that runs ends, and its berth is then freed. -/
def State.linkLost (s : State) (q b : Nat) : State :=
  let r := s.qrun q
  let keep := r.ents.takeWhile (fun e => !e.segs.any (·.berth == b))
  let gone := r.ents.drop keep.length
  let kept := keep.flatMap (fun e => e.segs.map (·.berth))
  let bs := ((gone.flatMap (fun e => e.segs.map (·.berth)) ++ (r.fill.map (fun f => [f.1])).getD []).eraseDups).filter
    (fun x => x != b && !kept.contains x)
  let s := gone.foldl (fun s e =>
    let s := s.qcount q 16 e.len
    match e.slot with | some k => s.unslot (sliceOfQ q) k | none => s) s
  let s := (s.putQ q { r with ents := keep, fill := none, depth := (keep.map (·.len)).sum }).unref q [b]
  ((bs.foldl (fun s b => s.loseBerth b) s).restDeficits q).post 0x105 [d32 q]

/-- The berths of a queue's stream from its read pointer on. -/
def QRun.stream (r : QRun) : List Nat := (r.ents.flatMap (fun e => e.segs.map (·.berth))).eraseDups

/-- The DRAM berth that a queue may have read into the staging area now: the one that holds its head, or the next one (R244). -/
def State.nextRead (s : State) (q : Nat) : Option Nat :=
  ((s.qrun q).stream.take 2).find? (fun b => tierOf b == 1 && !s.br.staged.contains b)

/-- DRAM berths of a queue slice in its staging area. -/
def State.stagedOf (s : State) (slice : Nat) : Nat :=
  (s.br.staged.filter (fun b => match tfind s.br.owner b with | some o => o.1 == slice | none => false)).length

/-- BERTH_STAGING_READ (R237 to R239, R244): a queue's next DRAM berth is read, its data and its trailer as they come. While the staging
area is full, reads wait in order. -/
def execBerthStagingRead (q : Fin 262144) (data : List Byte) (trailer : BitVec 128) (s : State) : Out :=
  let slice := sliceOfQ q
  let s := s.setBerths { s.br with reads := s.br.reads.filter (fun x => (s.nextRead x).isSome) }
  match s.nextRead q with
  | none => .next s
  | some b =>
    let ahead := (s.br.reads.takeWhile (· != q.val)).any (fun x => sliceOfQ x == slice)
    if 4096 ≤ s.stagedOf slice || ahead then
      .next (s.setBerths { s.br with reads := if s.br.reads.contains q.val then s.br.reads else s.br.reads ++ [q.val] })
    else
      let s := (s.setBerths { s.br with reads := s.br.reads.filter (· != q.val) }).hbmBerth 0 slice
      if trailer.extractLsb' 0 16 ≠ berthCrc b data trailer then .next (s.berthBad q b)
      else if !trailerLinkOk trailer then .next (s.linkLost q b)
      else .next (s.setBerths { s.br with staged := s.br.staged ++ [b] })

/-! ## Flushes, the sampler and tail status -/

/-- Drops every packet queued under the port nodes that `f` holds of: how many (R286, R487). -/
def State.flushWhere (s : State) (idx : Nat) (f : Option Nat → Bool) : Nat × State :=
  let l := (s.td.q.filter (fun x => f (s.nodeOf x.1))).flatMap (fun x => x.2.ents.map (x.1, ·))
  (l.length, l.foldl (fun s e => s.dropQ e.1 idx e.2) s)

/-- PORT_FLUSH_COMPLETE (R284, R286). -/
def execPortFlushComplete (node : Fin 176) (s : State) : Out :=
  if (s.pnode node).st ≠ 2 then .next s
  else
    let (n, s) := s.flushWhere 9 (· == some node.val)
    let up := s.nodeLink node
    let s := s.putPnode node { s.pnode node with link := up }
    .next (s.toPort node (if up then 0 else 3) 0x143 [d32 n])

/-- Drops the packets at a queue's head that are older than MAX_AGE (R281). -/
def State.ageHead (q : Nat) : Nat → State → State
  | 0, s => s
  | n + 1, s =>
    match (s.qrun q).ents with
    | e :: _ => if s.maxAge q < s.age e then State.ageHead q n (s.dropAged q e) else s
    | [] => s

/-- QUEUE_SAMPLER_VISIT (R281, R282). -/
def execQueueSamplerVisit (q : Fin 262144) (s : State) : Out :=
  let s := State.ageHead q (s.qrun q).ents.length s
  let r := s.qrun q
  .next (s.putQ q { r with
    sDepth := r.depth, sPkts := r.ents.length, sHead := (r.ents.head?.map (fun e => s.age e * 4 / 1000)).getD 0 })

/-- A late bad tail stomps the FCS of a frame that waits for the framer (R232, R233). -/
def stompLate (f : List Byte) : List Byte := f.take (f.length - 4) ++ (f.drop (f.length - 4)).map (fun b => ~~~ b)

/-- An egress packet learns its tail status. -/
def EgInfo.tailed (e : EgInfo) (id : Nat) (bad : Bool) : EgInfo :=
  if e.ent = id && !e.tailIn then { e with tailIn := true, stomp := bad } else e

/-- The tail status of the packet with this number reaches it wherever it stands (R232). -/
def State.tailArrives (s : State) (id : Nat) (bad : Bool) : State :=
  let tailQ (e : QEnt) : QEnt := if e.id = id && e.pkt.tail.isNone then { e with pkt := { e.pkt with tail := some bad } } else e
  let s := { s with td := { s.td with
    q := tmapv dflt (fun r => { r with ents := r.ents.map tailQ }) s.td.q } }
  let late := s.fd.eng.tx.flatMap (fun x => (x.2.filter (fun f => f.2.ent == id && !f.2.tailIn)).map (fun _ => x.1))
  let eng := s.fd.eng
  let s := s.setEng { eng with
    egress := tmapv nil0 (·.map (fun y => (y.1, y.2.tailed id bad))) eng.egress
    threads := eng.threads.map (fun t => { t with eg := t.eg.map (·.tailed id bad) })
    tx := tmapv nil0 (·.map (fun y =>
      (if bad && y.2.ent = id && !y.2.tailIn then stompLate y.1 else y.1, y.2.tailed id bad))) eng.tx }
  if bad then late.foldl (fun s n => s.bump 1 n 12 1) s else s

/-- TAIL_STATUS_RECEIVE (R232). -/
def execTailStatusReceive (id : Nat) (bad : Bool) (s : State) : Out := .next (s.tailArrives id bad)

/-- The rest of a packet that was queued from 512 bytes on is stored, and its tail status is known; a berth that cannot be
had drops it, or ends it with a bad tail once it is released (R231, R232, R246). -/
def State.restStored (s : State) (p : TdPkt) (id : Nat) : State :=
  let q := p.queue
  let slice := sliceOfQ q
  let r := s.qrun q
  let n := chunksOf p.bytes.length - cutChunks
  let (bs, s) := State.allocMany slice (bits (s.prof q 0) 7 4 % 8) (newBerths n r.fill) 0 [] s
  match r.ents.find? (·.id == id), bs with
  | some e, some bs =>
    let (segs, fill) := layChunks n r.fill bs []
    let s := s.putQ q { r with fill, ents := r.ents.map (fun x =>
      if x.id = id then { x with segs := x.segs ++ segs, pkt := { x.pkt with part := false } } else x) }
    match p.tail with | some b => s.tailArrives e.id b | none => s
  | some e, none => s.dropQ q 7 e
  | none, some bs => match p.tail with | some b => (s.freeAll slice bs).tailArrives id b | none => s.freeAll slice bs
  | none, none => s.tailArrives id true

/-- The rest of such a packet is lost: it leaves its queue, or ends with a bad tail once it is released (R225). -/
def State.restLost (s : State) (q id : Nat) : State :=
  match (s.qrun q).ents.find? (·.id == id) with
  | some e => s.leaveQ q e
  | none => s.tailArrives id true

/-! ## Commands -/

/-- QUEUE_CFG's conditions for BAD_PARAM (R264, R291). -/
def queueCfgBad (h : Hdr) (p : List Word) : Bool :=
  !tdWide h || p.length != 3 || pf p 0 9 0 != 0 || pf p 1 4 0 != 0 || pf p 2 21 0 != 0 || pf p 1 16 5 = 0
    || pf p 1 31 17 / 2048 != pf p 0 31 14 / 16384

/-- QUEUE_CFG once its queue slice is awake (R264, R265). -/
def State.queueCfgRun (s : State) (h : Hdr) (p : List Word) : State :=
  runSimple 0x402 h p (queueCfgBad h p) (h.priv == 2) s.slipOrQuiet []
    (fun s =>
      let q := pf p 0 31 14
      let c : QueueCfg := ⟨bit (par p 0) 13, pf p 0 12 10, pf p 1 31 17, pf p 1 16 5, pf p 2 31 22⟩
      let old := s.queueCfg q
      let s := s.setTdCfg { s.cfg.td with queues := tset restQueue s.cfg.td.queues q c }
      let s := if c.en then { s with pwr := { s.pwr with quietAt := tdel s.pwr.quietAt (sliceOfQ q) } } else s
      if old.group = c.group && old.prio = c.prio then s else s.putDeficit (nodeKey 0 q) 0) s

/-- The power domain of a queue slice (R475). -/
def queueDomain (n : Nat) : Nat := 48 + n

/-- QUEUE_CFG (R264, R265): one that enables a queue in a queue slice that is off wakes the slice first (R482). -/
def execQueueCfg (h : Hdr) (p : List Word) (s : State) : Out :=
  let d := queueDomain (sliceOfQ (pf p 0 31 14))
  if bit (par p 0) 13 && 2 ≤ s.domain d && !queueCfgBad h p && h.priv != 2 && !s.slipOrQuiet && !s.mirrorRefuses 0x402 h then
    let s := s.askWake d
    .next { s with pwr := { s.pwr with qwaits := s.pwr.qwaits ++ [⟨0x402, h, p⟩] } }
  else .next (s.queueCfgRun h p)

/-- QUEUE_STAT's five words of a queue (R282). -/
def statWords (r : QRun) : List Word :=
  [BitVec.ofNat 32 r.sDepth, mkWord [(8, r.sDepth / 2 ^ 32), (24, min 0xFFFFFF r.sPkts)],
   BitVec.ofNat 32 (min 0xFFFFFFFF (r.maxDepth / 1024)), BitVec.ofNat 32 r.maxSoj, BitVec.ofNat 32 r.sHead]

/-- QUEUE_STAT (R282, R291). -/
def execQueueStat (h : Hdr) (p : List Word) (s : State) : Out :=
  let q := pf p 0 31 14
  let n := pf p 0 13 9 + 1
  .next (runCommand 0x405 h p (!tdWide h || p.length != 1 || pf p 0 7 0 != 0 || 262144 < q + n) false s.slipOrQuiet []
    (fun s =>
      let l := (List.range n).map (· + q)
      let ws := l.flatMap (fun q => statWords (s.qrun q))
      let s := if bit (par p 0) 8 then l.foldl (fun s q => s.putQ q { s.qrun q with maxDepth := 0, maxSoj := 0 }) s else s
      (s, codeOk, ws)) s)

/-- MC_GROUP_SET's list from its words (R254). -/
def mcList : List Word → List McEnt
  | a :: b :: r => ⟨bits a 31 14, if bit a 13 then some b else none, b⟩ :: mcList r
  | _ => []

/-- MC_GROUP_SET (R254, R255). -/
def execMcGroupSet (h : Hdr) (p : List Word) (s : State) : Out :=
  let g := pf p 0 31 16
  let n := pf p 0 15 8
  let l := mcList (p.drop 1)
  let others := ((s.cfg.td.mc.filter (·.1 != g)).map (fun x => x.2.length)).sum
  .next (runSimple 0x420 h p
    (!tdWide h || p.length != 1 + 2 * n || 128 < n || pf p 0 7 0 != 0
      || (List.range n).any (fun k => pf p (1 + 2 * k) 12 0 != 0))
    (h.priv == 2) s.slipOrQuiet [(262144 < others + n, codeFull)]
    (fun s => s.setTdCfg { s.cfg.td with mc := tset nil0 s.cfg.td.mc g l }) s)

/-- MC_GROUP_READ (R255). -/
def execMcGroupRead (h : Hdr) (p : List Word) (s : State) : Out :=
  let g := pf p 0 31 16
  .next (runCommand 0x421 h p (!tdWide h || p.length != 1 || pf p 0 15 0 != 0) false s.slipOrQuiet []
    (fun s =>
      let l := tget nil0 s.cfg.td.mc g
      (s, codeOk, [BitVec.ofNat 32 l.length, tget z s.td.mcCnt (g * 4), tget z s.td.mcCnt (g * 4 + 1),
          tget z s.td.mcCnt (g * 4 + 2)]
        ++ l.flatMap (fun e => [mkWord [(18, e.queue), (1, b01 e.emeta.isSome), (13, 0)], e.emWord]))) s)

/-! ## Wakes -/

/-- DOMAIN_WAKE_COMPLETE (R105, R476, R482): a waking domain is on; what waits for it goes on. -/
def execDomainWakeComplete (dom : Fin 64) (s : State) : Out :=
  let d := dom.val
  if s.domain d ≠ 3 || s.pwr.wakeQ.any (·.1 == d) then .next s
  else
    let s := s.setDomain d 0
    let s := if 14 ≤ d && d < 48 then s.loadHalf d (s.mcseq ((d - 14) / 2)) else s
    if 48 ≤ d then
      let mine (c : Started) : Bool := sliceOfQ (pf c.par 0 31 14) + 48 == d
      let l := s.pwr.qwaits.filter mine
      let s := { s with pwr := { s.pwr with qwaits := s.pwr.qwaits.filter (fun c => !mine c) } }
      .next (l.foldl (fun s c => s.queueCfgRun c.hdr c.par) s)
    else if 14 ≤ d && d % 2 = 0 then
      match slices.find? (fun l => s.physOf l == (d - 14) / 2) with
      | some l => .next (if s.sliceSt l = 1 || s.sliceSt l = 2 then s.halfAwake l else s)
      | none => .next s
    else .next s

end Sys2Proof.Machine
end

