-- ==== Sys2Proof/Machine/Sched.lean ====
section
/-! DEFINITION. The scheduler: eligibility, the choice by strict levels and DWRR, and the release of a queue's head
packet to its egress half (R28, R218, R231, R232, R238, R239, R266 to R269, R278 to R281, R292, R538). -/

namespace Sys2Proof.Machine

/-- A child that may be served: its number, strict level and weight. -/
structure Child where
  num    : Nat
  prio   : Nat
  weight : Nat
  deriving DecidableEq, Repr

/-- Whether a queue's head packet may be released: its head chunk is staged, and its tail is known or it travels
cut-through (R231, R244). -/
def State.headReady (s : State) (e : QEnt) : Bool :=
  (e.cut || e.pkt.tail.isSome) && (match e.segs.head? with
    | some g => tierOf g.berth == 0 || s.br.staged.contains g.berth
    | none => false)

/-- The egress half that a queue slice releases to (R28). -/
def State.egressOf (s : State) (q : Nat) : Nat := s.nextHeld (sliceOfQ q)

/-- Flits of VC2 that a packet of `len` bytes takes (R34). -/
def dataFlits (len : Nat) : Nat := max 1 ((len + 55) / 56)

/-- The egress half of a logical slice has VC2 credits for a packet (R28): an empty one has them (log 101). -/
def State.egressRoom (s : State) (l len : Nat) : Bool :=
  let w := tget nil0 s.fd.eng.egress l
  w.isEmpty || (w.map (fun x => dataFlits x.1.pkt.bytes.length)).sum + dataFlits len ≤ Config.egressCredits

/-- The queue handed to the OAM engine has left the tree (R395). -/
def State.isSink (s : State) (q : Nat) : Bool := s.rf 0xBF2A0000 31 31 == 1 && s.rf 0xBF2A0000 30 13 == q

/-- A queue under a port node that may be served: channel, group, queue and head packet (R266). A channel in `low`
has less than 2 KiB free in its transmit FIFO. -/
def State.servable (s : State) (node : Nat) (low : List Nat) (x : Nat × QRun) : Option (Nat × Nat × Nat × QEnt) :=
  match x.2.ents with
  | [] => none
  | e :: _ =>
    let g := s.groupOf x.1
    let c := s.chanOf x.1
    if s.nodeOf x.1 = some node && (s.groupCfg g).en && (s.chanCfg c).en && s.headReady e && s.shaperOk (nodeKey 0 x.1)
        && s.shaperOk (nodeKey 1 g) && s.shaperOk (nodeKey 2 c) && !low.contains c && !s.rollHolds (s.egressOf x.1)
        && !s.isSink x.1 && s.egressRoom (s.egressOf x.1) e.len
    then some (c, g, x.1, e) else none

/-- Goes round the children, each deficit growing on its turn, until one is positive (R267). -/
def State.spin (kind turn : Nat) (all : List Child) : Nat → List Child → State → Option (Nat × State)
  | 0, _, _ => none
  | n + 1, [], s => State.spin kind turn all n all s
  | n + 1, c :: r, s =>
    let k := nodeKey kind c.num
    let d := s.deficit k + c.weight * 256
    let s := s.putDeficit k d
    if 0 < d then some (c.num, s.setSched { s.td.sched with turns := tset zn s.td.sched.turns turn (c.num + 1) })
    else State.spin kind turn all n r s

/-- The child that a node serves: the lowest strict level with a child to serve, then DWRR within it (R267). -/
def State.choose (s : State) (kind parent : Nat) (cs : List Child) : Option (Nat × State) :=
  match leastBy id (cs.map (·.prio)) with
  | none => none
  | some prio =>
    let l := sortBy (·.num) (cs.filter (·.prio == prio))
    let turn := parent * 8 + prio
    let cur := tget zn s.td.sched.turns turn
    if l.any (fun c => c.num + 1 == cur) && 0 < s.deficit (nodeKey kind (cur - 1)) then some (cur - 1, s)
    else
      let after := l.filter (fun c => cur ≤ c.num)
      let all := after ++ l.filter (fun c => c.num < cur)
      State.spin kind turn all (66 * (l.length + 1)) all s

/-- The queue that a port node serves next, top down (R267). -/
def State.pick (s : State) (node : Nat) (l : List (Nat × Nat × Nat × QEnt)) : Option (Nat × Nat × Nat × QEnt × State) :=
  let chans := ((l.map (·.1)).eraseDups).map (fun c => (⟨c, (s.chanCfg c).prio, (s.chanCfg c).weight⟩ : Child))
  match s.choose 2 (nodeKey 3 node) chans with
  | none => none
  | some (c, s) =>
    let lc := l.filter (·.1 == c)
    let groups := ((lc.map (·.2.1)).eraseDups).map (fun g => (⟨g, (s.groupCfg g).prio, (s.groupCfg g).weight⟩ : Child))
    match s.choose 1 (nodeKey 2 c) groups with
    | none => none
    | some (g, s) =>
      let lg := lc.filter (·.2.1 == g)
      let queues := lg.map (fun x => (⟨x.2.2.1, (s.queueCfg x.2.2.1).prio, (s.queueCfg x.2.2.1).weight⟩ : Child))
      match s.choose 0 (nodeKey 1 g) queues with
      | none => none
      | some (q, s) => (lg.find? (·.2.2.1 == q)).map (fun x => (c, g, q, x.2.2.2, s))

/-- Charges a release to the deficits and shapers on its path; a child that becomes empty restarts (R267). -/
def State.chargeAll (s : State) (node c g q len : Nat) : State :=
  let pay (k : Nat) (s : State) : State := s.putDeficit k (s.deficit k - len)
  let s := pay (nodeKey 2 c) (pay (nodeKey 1 g) (pay (nodeKey 0 q) s))
  let s := (((s.charge (nodeKey 0 q) len).charge (nodeKey 1 g) len).charge (nodeKey 2 c) len).charge (nodeKey 3 node) len
  s.restDeficits q

/-- A queued packet as the egress half receives it (R28, R199). -/
def State.toEgress (s : State) (node c q : Nat) (e : QEnt) (ce : Bool) : State :=
  let p := e.pkt
  let x : Staged := ⟨⟨p.port, p.chan, p.manifest, p.stamp.setWidth 64, false, none, p.bytes⟩, p.bucket, 0⟩
  let i : EgInfo :=
    { queue := q, node, chan := c, ruleVer := p.ruleVer, colour := p.colour, emeta := p.emeta, stamp := p.stamp,
      time := s.now, ce, nonect := bit (s.prof q 2) 29, stomp := false, ent := e.id, tailIn := p.tail.isSome, begun := false,
      orgSrc := if p.landed then p.ssid else p.chan, orgMan := p.manifest }
  let sl := s.egressOf q
  ((s.stir (15 + 2 * s.physOf sl)).setEng { s.fd.eng with
    egress := tset nil0 s.fd.eng.egress sl (tget nil0 s.fd.eng.egress sl ++ [(x, i)]) }).sendFlits true
    (flitsOf 3 (Config.flitPayload 3 q e.id) ++ flitsOf 2 p.bytes)

/-- Releases a queue's head packet (R241, R267, R282). -/
def State.release (s : State) (node c g q : Nat) (e : QEnt) (ce : Bool) : State :=
  let s := (s.bump 1 node 0 1).bump 1 node 1 e.len
  let s := s.count 0x04 node (s.queueCfg q).prio (some (128 + sliceOfQ q)) none e.len
  let r := (s.qrun q).roll s.mono
  let s := s.putQ q { r with deq := r.deq + e.len, maxSoj := max r.maxSoj (s.age e * 4 / 1000) }
  let s := s.toEgress node c q e ce
  let s := s.putPnode node { s.pnode node with unsent := (s.pnode node).unsent + e.len }
  ((s.leaveQ q e).chargeAll node c g q e.len).timetable (nodeKey 3 node)

/-- A copy whose slot's pointer fails, now or before (R538): event 0x111 once a slot. -/
def State.slotBad (s : State) (q k : Nat) (x : McSlot) : State :=
  if x.bad then s
  else
    let slice := sliceOfQ q
    { s with td := { s.td with slots := tins s.td.slots (slotKey slice k) { x with bad := true } } }.post 0x111
      [d16 slice, d16 k]

/-- The body of a slot reads badly in the berth of its `i`-th run: every copy that refers to it is dropped (R238). -/
def State.bodyBad (s : State) (slice k : Nat) (x : McSlot) (i : Nat) : State :=
  match x.segs[i]? with
  | none => s
  | some g =>
    let (idx, ev) := if tierOf g.berth = 1 then (14, 0x104) else (15, 0x107)
    let l := (s.td.q.filter (fun y => sliceOfQ y.1 == slice)).flatMap (fun y => (y.2.ents.filter (·.slot == some k)).map (y.1, ·))
    (l.foldl (fun s y => s.dropQ y.1 idx y.2) s).post ev [d32 g.berth]

/-- What the read of a queue's head decides: the packet is dropped, or goes on to its release (R232, R238, R239, R279,
R281, R538). -/
def State.dequeue (s : State) (node c g q : Nat) (e : QEnt) (read : HeadRead) : State :=
  let slot := e.slot.bind (fun k => (tfind s.td.slots (slotKey (sliceOfQ q) k)).map (k, ·))
  let run (i : Nat) : Option Nat := e.segs[i]?.map (·.berth)
  match (match read with | .berth i => run i | _ => none), (match read with | .link i => run i | _ => none), read, slot with
  | some b, _, _, _ => s.berthBad q b
  | _, some b, _, _ => s.linkLost q b
  | _, _, .body, some (k, x) => (s.slotBad q k x).dropQ q 17 e
  | _, _, .bodyBerth i, some (k, x) => if x.bad then s.dropQ q 17 e else s.bodyBad (sliceOfQ q) k x i
  | _, _, _, sl =>
    if (match sl with | some (_, x) => x.bad | none => false) then s.dropQ q 17 e
    else if s.maxAge q < s.age e then s.dropAged q e
    else if e.pkt.tail = some true then s.dropQ q 11 e
    else
      let (ce, s) := if e.ce then (true, s) else s.ecn q 1 (s.age e * 4)
      s.release node c g q e ce

/-- SECDED finds uncorrectable state of a node: its deficit and bucket become 0 (R292). -/
def State.nodeLost (s : State) (kind n : Nat) : State :=
  let k := nodeKey kind n
  (((s.putDeficit k 0).putBucket k ⟨0, 0⟩).timetable k).post 0x146 [d16 kind, d32 n]

/-- SCHED_RELEASE (R266 to R269): a port node's next packet, while it is UP, its shaper and FIFO let it and its
unsent bytes are below ALLOW. `low` lists the channels, and as 4,096 + node the port nodes, whose transmit FIFO has
less than 2 KiB free. -/
def execSchedRelease (node : Fin 176) (low : List Nat) (read : HeadRead) (lost : Option (Fin 4 × Nat)) (s : State) : Out :=
  let s := match lost with | some l => s.nodeLost l.1 l.2 | none => s
  let p := s.pnode node
  if p.st ≠ 0 || s.allowance node ≤ p.unsent || !s.shaperOk (nodeKey 3 node) || low.contains (4096 + node.val) then .next s
  else
    match s.pick node (s.td.q.filterMap (s.servable node low)) with
    | none => .next s
    | some (c, g, q, e, s) => .next (s.dequeue node c g q e read)

end Sys2Proof.Machine
end

