-- ==== Sys2Proof/Machine/Xbar.lean ====
section
/-! DEFINITION. The crossbar: a packet's entry from the die-to-die interface or the landing stage, cells, the central
scheduler, and delivery at an output (R26, R27, R35, R36, R39, R222 to R230, R254, R256, R299 to R303). -/

namespace Sys2Proof.Machine

/-- Puts the fabric. -/
def State.setFab (s : State) (f : Fabric) : State := { s with td := { s.td with fab := f } }

/-- Packets cross the fabric: ACTIVE and STANDBY, and a DRAIN entered from them (R27, R485). -/
def State.viaFabric (s : State) : Bool :=
  let on (m : Mode) : Bool := m == .active || m == .standby
  on s.pwr.mode || (s.pwr.mode == .drain && on s.pwr.before)

/-- VOQ and stream key of an input, class and output (R226). -/
def voqKey (i c o : Nat) : Nat := i * 96 + c * 32 + o

/-- The crossbar class of a unicast packet by its queue index: 0 high, 1 low (R227). -/
def State.hiClass (s : State) (q : Nat) : Nat :=
  if bit (s.cfgReg (0xBF210010 + 4 * (q / 4096 / 32))) (q / 4096 % 32) then 0 else 1

/-! ## Cells (R224) -/

/-- A filled or timed-out cell goes to its VOQ. -/
def State.pushCell (s : State) (k : Nat) : State :=
  match tget none0 s.td.xb.packs k with
  | none => s
  | some c =>
    let x := s.td.xb
    let n := tget zn x.seqs k
    s.setXb { x with
      packs := tset none0 x.packs k none
      seqs := tset zn x.seqs k ((n + 1) % 65536)
      voqs := tset nil0 x.voqs k (tget nil0 x.voqs k ++ [{ c with seq := n, since := s.mono }]) }

/-- Puts the chunks of a packet into the cells of a stream. -/
def State.packChunks (s : State) (i c : Nat) (outs : List Nat) (k pid : Nat) : Nat → Nat → State
  | 0, _ => s
  | n + 1, idx =>
    let x := s.td.xb
    let cell := (tget none0 x.packs k).getD ⟨i, outs, c, 0, [], s.mono, false⟩
    let cell := { cell with chunks := cell.chunks ++ [(pid, idx)] }
    let s := s.setXb { x with packs := tset none0 x.packs k (some cell) }
    let s := if 8 ≤ cell.chunks.length then s.pushCell k else s
    s.packChunks i c outs k pid n (idx + 1)

/-- PACK_WAIT is 0: a cell leaves with whatever chunks it holds. -/
def State.packNow (s : State) : Bool := s.rf 0xBF210000 31 24 == 0

/-- A packet enters the crossbar toward outputs in a class (R224, R256). -/
def State.sendX (s : State) (i c : Nat) (outs : List Nat) (p : TdPkt) (list : Option (Nat × List McEnt)) : State :=
  let x := s.td.xb
  let pid := x.nextPid
  let s := s.setXb { x with pkts := tins x.pkts pid ⟨{ p with pid }, outs, i * 3 + c, false, 0⟩, nextPid := pid + 1 }
  let s := match list with
    | some (g, l) => { s with td := { s.td with tallies := tset none0 s.td.tallies pid (some ⟨g, l, outs, 0, 0⟩) } }
    | none => s
  let k := voqKey i c (outs.getD 0 0)
  let s := s.packChunks i c outs k pid (chunksOf p.bytes.length) 0
  if c = 2 || s.packNow then s.pushCell k else s

/-- A packet for the local queue slices (R222, R254, R256). -/
def State.sendLocal (s : State) (i : Nat) (p : TdPkt) : State :=
  if p.mc then
    let l := tget nil0 s.cfg.td.mc p.queue
    if 65536 ≤ p.queue then s.bump 4 0 1 1
    else if l.isEmpty then
      { s with td := { s.td with mcCnt := tset z s.td.mcCnt (p.queue * 4 + 2) (tget z s.td.mcCnt (p.queue * 4 + 2) + 1) } }
    else
      let outs := (List.range 16).filter (fun o => l.any (fun e => sliceOfQ e.queue == o))
      s.sendX i 2 outs p (some (p.queue, l))
  else s.sendX i (s.hiClass p.queue) [sliceOfQ p.queue] p none

/-- A packet for the fabric: the queue map, SSID and DC (R301 to R303). -/
def State.sendFabric (s : State) (i : Nat) (p : TdPkt) (mapBad : Bool) : State :=
  let w := s.cfgReg (0xBF254000 + 4 * p.chan)
  let p := { p with ssid := if p.ov then p.ssid else bits w 15 0, dc := bit w 31 }
  let group (d : Nat) : Nat := 16 + (p.bucket % 16 ^^^ d % 16)
  if p.mc then
    if 65536 ≤ p.queue then s.bump 4 0 1 1 else s.sendX i 2 [group p.queue] { p with dest := p.queue } none
  else
    let e := tget dflt s.cfg.td.qmap p.queue
    if mapBad then s.post 0x186 [d32 p.queue]
    else if !e.en then (s.bump 4 0 2 1).postOnce 0x187 0 [d32 p.queue]
    else s.sendX i (s.hiClass p.queue) [group e.dest] { p with queue := e.rqueue, dest := e.dest } none

/-! ## Entry from the die-to-die interface (R35, R36, R39) -/

/-- A packet from its descriptor (R35). -/
def tdOf (x : Crossing) (tail : Option Bool) : TdPkt :=
  let d := x.desc
  { queue := bits d 255 238, manifest := d.extractLsb' 172 48, ruleVer := bits d 171 156, colour := bits d 155 154,
    ct := bit d 153, mc := bit d 152, chan := bits d 151 140, port := bits d 139 133, bucket := bits d 98 87,
    stamp := d.extractLsb' 55 32, emeta := d.extractLsb' 23 32, ssid := 0, osrc := x.origin.getD 0, ov := x.origin.isSome,
    dc := false, dest := 0, bytes := x.bytes, tail, pid := 0, landed := false, part := false }

/-- SSID of a couple packet: that of the lower group's channel (R100, R302). -/
def State.coupleSsid (s : State) (chan : Nat) : Nat :=
  let low := match s.spanList.find? (fun g => g.2.chan == chan) with
    | some (n, g) => if g.couple && g.partner < n then ((s.span g.partner).map (·.chan)).getD chan else chan
    | none => chan
  bits (s.cfgReg (0xBF254000 + 4 * low)) 15 0

/-- A packet with its descriptor goes to the crossbar; COLOUR 3 is dropped (R35). -/
def State.intoXbar (s : State) (x : Crossing) : State :=
  let slice := bits x.desc 118 115
  let via := s.viaFabric
  let p := tdOf x (if via then some (x.tail.getD x.bad) else x.tail)
  let p := { p with ssid := if p.ov then s.coupleSsid p.chan else 0 }
  if p.colour = 3 then s.drop 0 p.port 23 slice p.bytes.length
  else if via then s.sendFabric slice p x.mapBad else s.sendLocal slice p

/-- A descriptor in its source slice's order: its packet waits while the crossbar input has no room for it and withholds
VC1 credits (R226). -/
def State.deliverD2d (s : State) (x : Crossing) : State :=
  let slice := bits x.desc 118 115
  let w := tget nil0 s.fd.d2d.stalled slice
  if w.isEmpty && s.xbarRoom slice x.bytes.length then s.intoXbar x
  else s.setD2d { s.fd.d2d with stalled := tset nil0 s.fd.d2d.stalled slice (w ++ [x]) }

/-- Waiting packets enter a crossbar input that has room (R226). -/
def State.unstall (slice : Nat) : List Crossing → State → State
  | [], s => s
  | x :: r, s =>
    if s.xbarRoom slice x.bytes.length then
      State.unstall slice r ((s.setD2d { s.fd.d2d with stalled := tset nil0 s.fd.d2d.stalled slice r }).intoXbar x)
    else s

/-- A source slice's receive order. -/
def State.order (s : State) (slice : Nat) : Reorder := tget dflt s.fd.d2d.order slice
def State.putOrder (s : State) (slice : Nat) (r : Reorder) : State :=
  s.setD2d { s.fd.d2d with order := tset dflt s.fd.d2d.order slice r }

/-- Delivers the held packets that have become next (R39). -/
def State.orderDrain (slice : Nat) : Nat → State → State
  | 0, s => s
  | n + 1, s =>
    let r := s.order slice
    match r.held.find? (·.1 == r.next) with
    | some (_, x) =>
      let held := r.held.filter (·.1 != r.next)
      State.orderDrain slice n ((s.putOrder slice
        ⟨(r.next + 1) % 65536, held, if held.isEmpty then none else some s.mono⟩).deliverD2d x)
    | none => s

/-- INGRESS_DESCRIPTOR_RECEIVE (R36, R39): the checks, then the order of the source slice by PSEQ. -/
def execIngressDescriptorReceive (desc : BitVec 256) (data : List Byte) (tail : Option Bool) (mapBad : Bool) (s : State) : Out :=
  let slice := bits desc 118 115
  let port := bits desc 139 133
  if s.domain 4 ≠ 0 || s.domain 7 ≠ 0 then .next s
  else
  let sent := s.fd.d2d.flight.find? (·.desc == desc)
  let s := s.setD2d { s.fd.d2d with flight := match sent with
    | some x => s.fd.d2d.flight.erase x
    | none => s.fd.d2d.flight }
  let dcrcBad := crc8From 0xFF#8 (beBytes 31 (desc.toNat / 256)) != desc.extractLsb' 0 8
  if dcrcBad then .next ((s.drop 0 port 24 slice (bits desc 132 119)).post 0x101 [d16 slice])
  else
    let x : Crossing := ⟨desc, data, sent.bind (·.origin), (sent.map (·.bad)).getD false, tail, mapBad⟩
    let r := s.order slice
    let d := (bits desc 114 99 + 65536 - r.next) % 65536
    if bits desc 255 238 + bits desc 237 220 ≠ 2 ^ 18 - 1 then
      let s := (s.drop 0 port 24 slice (bits desc 132 119)).post 0x102 [d16 slice]
      if d = 0 then .next (State.orderDrain slice 1025 (s.putOrder slice { r with next := (r.next + 1) % 65536 })) else .next s
    else if d = 0 then
      .next (State.orderDrain slice 1025 ((s.putOrder slice { r with next := (r.next + 1) % 65536 }).deliverD2d x))
    else if d < 1024 && !r.held.any (·.1 == bits desc 114 99) then
      .next (s.putOrder slice { r with
        held := r.held ++ [(bits desc 114 99, x)], gap := some (r.gap.getD s.mono) })
    else .next s

/-- D2D_GAP_TIMEOUT (R39): a gap that has stayed open for 4 µs is skipped. -/
def execD2dGapTimeout (slice : Fin 16) (s : State) : Out :=
  let r := s.order slice
  let open_ := match r.gap with | some t => t + 4000 ≤ s.mono | none => false
  if !open_ then .next s
  else match leastBy (fun q => (q + 65536 - r.next) % 65536) (r.held.map (·.1)) with
  | none => .next s
  | some q =>
    let n := (q + 65536 - r.next) % 65536
    let s := ((s.putOrder slice { r with next := q, gap := none }).bump 4 0 5 n).post 0x103 [d16 slice, d32 n]
    .next (State.orderDrain slice 1025 s)

/-- XBAR_PACK_TIMEOUT (R224): a partly filled cell leaves PACK_WAIT after its first chunk. -/
def execXbarPackTimeout (input out : Fin 32) (cls : Fin 3) (s : State) : Out :=
  let k := voqKey input cls out
  .next (match tget none0 s.td.xb.packs k with
    | some c => if c.since + 8 * s.rf 0xBF210000 31 24 ≤ s.mono then s.pushCell k else s
    | none => s)

/-- XBAR_MC_AGE (R230): the multicast cells that have stood MC_AGE at the heads of an input's VOQs compete as unicast low. -/
def execXbarMcAge (input : Fin 32) (s : State) : Out :=
  let x := s.td.xb
  let wait := 1000 * max 1 (s.rf 0xBF210000 23 12)
  let age (v : Nat × List Cell) : Nat × List Cell :=
    if v.1 / 96 = input.val && v.1 % 96 / 32 = 2 then
      (v.1, match v.2 with | c :: r => { c with aged := c.aged || c.since + wait ≤ s.mono } :: r | [] => [])
    else v
  .next (s.setXb { x with voqs := x.voqs.map age })

/-! ## The central scheduler (R228) -/

/-- A request: input, output, class, and the VOQ whose head asks. -/
structure Req where
  i   : Nat
  o   : Nat
  c   : Nat
  key : Nat
  deriving DecidableEq, Repr

/-- The requests of one VOQ's head cell (R228, R230). -/
def voqReqs (v : Nat × List Cell) : List Req :=
  match v.2 with
  | [] => []
  | h :: _ =>
    let i := v.1 / 96
    if h.cls = 2 then h.outs.map (fun o => ⟨i, o, if h.aged then 1 else 2, v.1⟩) else [⟨i, v.1 % 32, h.cls, v.1⟩]

/-- The first of requests by a cyclic measure from a pointer. -/
def firstFrom (ptr : Nat) (f : Req → Nat) (l : List Req) : Option Req :=
  match leastBy (fun n => (n + 32 - ptr % 32) % 32) (l.map f) with
  | some n => l.find? (fun r => f r == n)
  | none => none

/-- The grant of an unmatched output: the highest class requested, then by its pointer (R228). An aged multicast cell
goes before a unicast-low cell of the same input. -/
def Xbar.grant (x : Xbar) (rs : List Req) (o : Nat) : Option Req :=
  let l := rs.filter (·.o == o)
  match leastBy id (l.map (·.c)) with
  | none => none
  | some c =>
    let lc := l.filter (·.c == c)
    (firstFrom (tget zn x.grants (o * 3 + c)) (·.i) lc).map (fun r =>
      (lc.find? (fun q => q.i == r.i && q.key % 96 / 32 == 2)).getD r)

/-- What an input accepts: the highest class granted, then by its pointer; with a multicast grant every other grant of
the same cell (R228). -/
def Xbar.accept (x : Xbar) (gs : List Req) (i : Nat) : List Req :=
  let l := gs.filter (·.i == i)
  match leastBy id (l.map (·.c)) with
  | none => []
  | some c =>
    match firstFrom (tget zn x.accepts (i * 3 + c)) (·.o) (l.filter (·.c == c)) with
    | none => []
    | some r => if r.key % 96 / 32 = 2 then l.filter (·.key == r.key) else [r]

/-- Pointers after the first iteration (R228). -/
def Xbar.point (x : Xbar) (acc : List Req) : Xbar :=
  let x := acc.foldl (fun x r => { x with grants := tset zn x.grants (r.o * 3 + r.c) ((r.i + 1) % 32) }) x
  ((acc.map (·.i)).eraseDups).foldl (fun x i =>
    let mine := acc.filter (·.i == i)
    let c := (mine.head?.map (·.c)).getD 0
    { x with accepts := tset zn x.accepts (i * 3 + c) (((leastBy id (mine.map (·.o))).getD 0 + 1) % 32) }) x

/-- The iterations of a matching (R228): what has been accepted, and the crossbar with its pointers. -/
def matchRounds (rs : List Req) : Nat → List Req → Xbar → List Req × Xbar
  | 0, acc, x => (acc, x)
  | n + 1, acc, x =>
    let free := rs.filter (fun r => !acc.any (fun a => a.i == r.i || a.o == r.o))
    let gs := ((free.map (·.o)).eraseDups).filterMap (x.grant free)
    let new := ((gs.map (·.i)).eraseDups).flatMap (x.accept gs)
    let x := if acc.isEmpty && n = 2 then x.point new else x
    matchRounds rs n (acc ++ new) x

/-- A matched cell crosses to its outputs; a multicast cell stays until its fanout is empty (R228, R230). -/
def Xbar.cross (x : Xbar) (mono key : Nat) (outs : List Nat) : Xbar :=
  match tget nil0 x.voqs key with
  | [] => x
  | c :: r =>
    let left := c.outs.filter (fun o => !outs.contains o)
    let rest := if c.cls = 2 && !left.isEmpty then { c with outs := left } :: r
      else match r with | d :: t => { d with since := mono } :: t | [] => []
    { x with voqs := tset nil0 x.voqs key rest, crossing := x.crossing ++ outs.map (fun o => (o, { c with outs := [o] })) }

/-- Chunks of each packet of a list, in order. -/
def packetRuns : List FChunk → List Nat
  | [] => []
  | _ :: r =>
    match packetRuns r with
    | n :: l => if (r.head?.map (·.head)).getD true then 1 :: n :: l else (n + 1) :: l
    | [] => [1]

/-- Cells that the chunks of a stream take (R300): a multicast cell holds chunks of one packet only. -/
def streamCells (cls : Nat) (l : List FChunk) : Nat :=
  if cls = 2 then ((packetRuns l).map (fun n => (n + 7) / 8)).sum else (l.length + 7) / 8

/-- Cells in a transmit group's queues, and those that cross to it (R305). -/
def State.groupCells (s : State) (g : Nat) : Nat :=
  ((s.td.fab.streams.filter (fun x => x.1 / 2 ^ 18 == g)).map (fun x => streamCells (x.1 / 2 ^ 16 % 4) x.2.chunks)).sum
    + (s.td.xb.crossing.filter (·.1 == 16 + g)).length

/-- A link of the fabric. -/
def State.flink (s : State) (l : Nat) : FLink := tget dflt s.td.fab.links l

/-- Links of a transmit group in service (R295, R303). -/
def State.groupLinks (s : State) (g : Nat) : List Nat := ((List.range 12).map (· + 12 * g)).filter (fun l => (s.flink l).inServ)

/-- An output takes part in the matchings: a queue slice always, a transmit group with room and credit (R226, R305). -/
def State.outOpen (s : State) (o : Nat) : Bool :=
  o < 16 || (s.groupCells (o - 16) < 1024 && (s.groupLinks (o - 16)).any (fun l => (s.flink l).credits.any (0 < ·)))

/-- Three numbers by class, one changed. -/
def classAdd (l : List Nat) (c n : Nat) : List Nat :=
  (List.range 3).map (fun i => if i = c then l.getD i 0 + n else l.getD i 0)

/-- Puts a link of the fabric. -/
def State.putFlink (s : State) (l : Nat) (x : FLink) : State :=
  s.setFab { s.td.fab with links := tset dflt s.td.fab.links l x }

/-- A cell has left the landing buffer: its credit goes back (R304). -/
def State.owe (s : State) (link cls : Nat) : State :=
  let x := s.flink link
  s.putFlink link { x with owed := classAdd x.owed cls 1 }

/-- Delivered packets of the landing stage enter the crossbar inputs that are not held back (R226, R304). -/
def State.landReady : List (Nat × List TdPkt) → State → State
  | [], s => s
  | (g, ps) :: r, s =>
    let s := ps.foldl (fun s p =>
      if !(tget nil0 s.td.fab.ready g).isEmpty || !s.xbarRoom (16 + g) p.bytes.length then
        s.setFab { s.td.fab with ready := tset nil0 s.td.fab.ready g (tget nil0 s.td.fab.ready g ++ [p]) }
      else s.sendLocal (16 + g) p) (s.setFab { s.td.fab with ready := tset nil0 s.td.fab.ready g [] })
    let s := if (tget nil0 s.td.fab.ready g).isEmpty then
        (tget nil0 s.td.fab.deferred g).foldl (fun s x => s.owe x.1 x.2)
          (s.setFab { s.td.fab with deferred := tset nil0 s.td.fab.deferred g [] })
      else s
    State.landReady r s

/-- XBAR_MATCHING (R228). -/
def execXbarMatching (s : State) : Out :=
  let x := s.td.xb
  let rs := (x.voqs.flatMap voqReqs).filter (fun r => s.outOpen r.o)
  let (acc, x) := matchRounds rs 3 [] x
  let x := ((acc.map (·.key)).eraseDups).foldl (fun x k => x.cross s.mono k ((acc.filter (·.key == k)).map (·.o))) x
  let s := s.setXb x
  let s := s.fd.d2d.stalled.foldl (fun s x => State.unstall x.1 x.2 s) s
  .next (State.landReady s.td.fab.ready s)

/-! ## Delivery at an output (R225, R300) -/

/-- The fabric descriptor of a packet (R299). -/
def fabDesc (p : TdPkt) : Nat :=
  let v := packNat [(18, p.queue), (18, 2 ^ 18 - 1 - p.queue % 2 ^ 18), (48, p.manifest.toNat), (16, p.ruleVer), (2, p.colour),
    (1, b01 p.ct), (1, b01 p.mc), (16, p.ssid), (16, p.osrc.toNat), (1, b01 p.ov), (14, p.bytes.length),
    (32, p.emeta.toNat), (1, b01 p.dc), (64, 0)] 0
  v * 256 + (dcrcOf v).toNat

/-- 32-byte chunks of a packet's data, the last padded with zero. -/
def dataChunks : Nat → List Byte → List (List Byte)
  | 0, _ => []
  | n + 1, b => let c := b.take 32; (c ++ List.replicate (32 - c.length) 0) :: dataChunks n (b.drop 32)

/-- A packet as chunks of its fabric stream (R298, R299). -/
def fabChunks (mono : Nat) (p : TdPkt) : List FChunk :=
  let ds := dataChunks ((p.bytes.length + 31) / 32) p.bytes
  let mk (b : List Byte) (head last : Bool) : FChunk := ⟨b, head, last, last && p.tail = some true, p.queue, p.manifest, mono⟩
  mk (beBytes 32 (fabDesc p)) true ds.isEmpty
    :: ((List.range ds.length).zip ds).map (fun d => mk d.2 false (d.1 + 1 == ds.length))

/-- Key of a fabric stream: group, class and destination (R300). -/
def streamKey (g c dest : Nat) : Nat := g * 2 ^ 18 + c * 2 ^ 16 + dest

/-- A packet has crossed whole to an output. -/
def State.crossed (s : State) (out cls pid : Nat) : State :=
  match tfind s.td.xb.pkts pid with
  | none => s
  | some f =>
    let left := f.outs.filter (· != out)
    let x := s.td.xb
    let x := { x with pkts := if left.isEmpty then tdel x.pkts pid else tins x.pkts pid { f with outs := left } }
    if out < 16 then s.setXb { x with arrived := tset nil0 x.arrived out (tget nil0 x.arrived out ++ [f.pkt]) }
    else
      let s := s.setXb x
      let k := streamKey (out - 16) cls f.pkt.dest
      let st := tget dflt s.td.fab.streams k
      s.setFab { s.td.fab with
        streams := tset dflt s.td.fab.streams k { st with chunks := st.chunks ++ fabChunks s.mono f.pkt } }

/-- The first 512 bytes of a cut-through candidate have crossed: its queue slice has it, without its tail status (R231). -/
def State.crossedEarly (s : State) (out pid : Nat) (f : XFlight) : State :=
  let x := s.td.xb
  s.setXb { x with
    pkts := tins x.pkts pid { f with early := true }
    arrived := tset nil0 x.arrived out (tget nil0 x.arrived out ++ [{ f.pkt with part := true, tail := none }]) }

/-- The rest of a packet that its queue slice has had from 512 bytes on has crossed (R231, R246). -/
def State.crossedRest (s : State) (out pid : Nat) (f : XFlight) : State :=
  let x := s.td.xb
  let here := (tget nil0 x.arrived out).any (fun p => p.pid == pid && p.part)
  let s := s.setXb { x with
    pkts := tdel x.pkts pid
    arrived := tset nil0 x.arrived out
      ((tget nil0 x.arrived out).map (fun p => if p.pid == pid then { p with part := false, tail := f.pkt.tail } else p)) }
  if here || f.ent = 0 then s else s.restStored f.pkt (f.ent - 1)

/-- A packet is lost on its way to an output: counted as XBAR_ERR; its copies there are lost with it, and one that its queue
slice has begun ends there with a bad tail once it is released (R225). -/
def State.xlost (s : State) (out pid : Nat) : State :=
  match tfind s.td.xb.pkts pid with
  | none => s
  | some f =>
    let left := f.outs.filter (· != out)
    let x := s.td.xb
    let s := s.setXb { x with
      pkts := if left.isEmpty then tdel x.pkts pid else tins x.pkts pid { f with outs := left }
      arrived := tset nil0 x.arrived out ((tget nil0 x.arrived out).filter (fun p => !(p.pid == pid && p.part))) }
    let s := if f.ent = 0 then s else s.restLost f.pkt.queue (f.ent - 1)
    let n := match tget none0 s.td.tallies pid with
      | some t => (copiesIn out t.list).length
      | none => 0
    (s.bump 4 0 0 1).tally pid out 0 n

/-- One chunk at an output: the head chunk of a packet starts it, the last one completes it. -/
def State.takeChunk (s : State) (out : Nat) (c : Cell) (k : Nat) (ch : Nat × Nat) : State :=
  let st := tget dflt s.td.xb.rx k
  let put (v : XStream) (s : State) : State := s.setXb { s.td.xb with rx := tset dflt s.td.xb.rx k v }
  if ch.2 = 0 || (st.pid = some ch.1 && st.next = ch.2) then
    match tfind s.td.xb.pkts ch.1 with
    | none => put { st with pid := some ch.1, next := ch.2 + 1 } s
    | some f =>
      if ch.2 + 1 = chunksOf f.pkt.bytes.length then
        let s := put { st with pid := none, next := 0 } s
        if f.early then s.crossedRest out ch.1 f else s.crossed out c.cls ch.1
      else
        let s := put { st with pid := some ch.1, next := ch.2 + 1 } s
        if ch.2 + 1 = cutChunks && out < 16 && f.pkt.ct && !f.pkt.mc && !f.pkt.landed then s.crossedEarly out ch.1 f else s
  else s

/-- Packets of a stream that still wait for an output though a later one's chunk has come: those with a chunk in the gap of
the cell sequence (R225). -/
def State.gapPkts (s : State) (out : Nat) (c : Cell) : List Nat :=
  match c.chunks.head? with
  | some (p, _) => (s.td.xb.pkts.filter (fun x =>
      x.2.src == c.input * 3 + c.cls && x.2.outs.contains out && x.1 < p)).map (·.1)
  | none => []

/-- XBAR_CELL_RECEIVE (R224, R225): the oldest cell on its way to an output. -/
def execXbarCellReceive (out : Fin 32) (headerOk : Bool) (s : State) : Out :=
  match s.td.xb.crossing.find? (·.1 == out.val) with
  | none => .next s
  | some e =>
    let c := e.2
    let s := s.setXb { s.td.xb with crossing := s.td.xb.crossing.erase e }
    let k := voqKey c.input c.cls out
    let st := tget dflt s.td.xb.rx k
    let skip := c.cls ≠ 2 && c.seq ≠ st.expect
    let put (v : XStream) (s : State) : State := s.setXb { s.td.xb with rx := tset dflt s.td.xb.rx k v }
    if !headerOk || skip then
      let gap := if headerOk then s.gapPkts out c else []
      let lost := ((match st.pid with | some p => [p] | none => []) ++ gap ++ c.chunks.map (·.1)).eraseDups
      let s := put ⟨(c.seq + 1) % 65536, none, 0⟩ s
      .next ((lost.foldl (fun s p => s.xlost out p) s).post 0x100 [d16 out, d16 c.input])
    else
      let s := put { st with expect := (c.seq + 1) % 65536 } s
      .next (c.chunks.foldl (fun s ch => s.takeChunk out c k ch) s)

end Sys2Proof.Machine
end

