-- ==== Sys2Proof/Machine/Fabric.lean ====
section
/-! DEFINITION. The fabric interface and the landing stage: links, cells, credits and stops, reordering and reassembly,
the duplicate table, and the fabric queue map (R294 to R315). -/

namespace Sys2Proof.Machine

/-! ## Links (R295, R304, R305) -/

/-- The link is enabled, its block powered. -/
def State.linkOn (s : State) (l : Nat) : Bool := s.linkEn l && s.domain 8 == 0

/-- RXCRED, values outside 16 to 106 acting as the nearer end. -/
def State.rxCred (s : State) : Nat := max 16 (min 106 (s.rf 0xBF250000 22 15))
/-- NODE (R296). -/
def State.fabNode (s : State) : Nat := s.rf 0xBF250000 31 23


/-- A link is out of service (R295). -/
def State.linkOut (s : State) (l : Nat) : State :=
  let x := s.flink l
  if !x.inServ then s
  else (s.putFlink l { x with inServ := false, credits := [], owed := [], rot := 0 }).post 0x180 [d16 l]

/-- The links in service have fallen below 147 from `before` (R314). -/
def State.linksFell (before : Nat) (s : State) : State :=
  if 147 ≤ before && s.fabLinks < 147 then s.postYield 0x18B [d16 s.fabLinks] else s

/-- A link leaves service (R295, R314). -/
def State.linkLeaves (s : State) (l : Nat) : State := (s.linkOut l).linksFell s.fabLinks

/-- FABRIC_LINK_SERVICE (R295): in service after 1 ms of SYNC; out of it without SYNC or disabled. -/
def execFabricLinkService (link : Fin 192) (s : State) : Out :=
  let x := s.flink link
  if !s.linkOn link || x.st ≠ 3 then
    let s := s.linkLeaves link
    .next (if s.linkOn link then s else s.putFlink link default)
  else if !x.inServ && x.since + ms 1 ≤ s.mono then
    .next ((s.putFlink link { x with inServ := true, owed := [s.rxCred, s.rxCred, s.rxCred] }).post 0x181 [d16 link])
  else .next s

/-- FABRIC_STOP_EXPIRE (R305). -/
def execFabricStopExpire (link : Fin 192) (k : Fin 1536) (s : State) : Out :=
  let x := s.flink link
  match tget zn x.stops k with
  | 0 => .next s
  | t + 1 => .next (if t + 100000 ≤ s.mono then s.putFlink link { x with stops := tset zn x.stops k 0 } else s)

/-! ## The cell (R297, R298) -/

/-- HEC over header bytes 0 to 14. -/
def cellHec (head : BitVec 128) : Byte := crc8From 0xFF#8 (beBytes 15 (head.toNat / 256))

/-- INIT of CCRC for a queue and a manifest. -/
def ccrcInit (q : Nat) (m : BitVec 48) : Word :=
  0xFFFFFFFF#32 ^^^ m.extractLsb' 0 32 ^^^ ((m.extractLsb' 32 16).setWidth 32 <<< 16) ^^^ BitVec.ofNat 32 (q <<< 14)

/-- CCRC over header bytes 2 to 10 and the payload. -/
def cellCrc (init : Word) (head : BitVec 128) (payload : List Byte) : Word :=
  crc32cFrom init (beBytes 9 (bits head 111 40) ++ payload)

/-- Payload as the 256 bytes of a cell. -/
def cellBytes (l : List Byte) : List Byte := l.take 256 ++ List.replicate (256 - l.length) 0

/-- A chunk of a payload. -/
def chunkAt (l : List Byte) (i : Nat) : List Byte := (l.drop (32 * i)).take 32

/-! ## Landing: reassembly (R299, R307, R309) -/

/-- A landed packet from its fabric descriptor; port, channel, bucket and STAMP are not in it and stay free (log 2). -/
def landedPkt (d : Nat) (draw : BitVec 64) : TdPkt :=
  let d : BitVec 256 := BitVec.ofNat 256 d
  { queue := bits d 255 238, manifest := d.extractLsb' 172 48, ruleVer := bits d 171 156, colour := bits d 155 154,
    ct := bit d 153, mc := bit d 152, chan := bits draw 50 39, port := bits draw 38 32, bucket := bits draw 62 51,
    stamp := draw.extractLsb' 0 32, emeta := d.extractLsb' 73 32, ssid := bits d 151 136, osrc := d.extractLsb' 120 16,
    ov := bit d 119, dc := bit d 72, dest := 0, bytes := [], tail := none, pid := 0, landed := true, part := false }

/-- Key of a duplicate entry: SSID, OV, OSRC and MANIFEST (R310). -/
def dupKey (ssid : Nat) (ov : Bool) (osrc man : Nat) : Nat := ((ssid * 2 + b01 ov) * 65536 + osrc) * 2 ^ 48 + man

/-- DUP_TTL as written, in ns. -/
def dupTtlOf (w : Word) : Nat := max 1 (min 20 (bits w 16 12)) * 1000

/-- The life of an entry inserted now: a changed DUP_TTL counts 1 µs after the write. -/
def State.dupTtl (s : State) : Nat :=
  match s.td.fab.dupLife with
  | some (n, t) => if s.mono < t then n else dupTtlOf (s.cfgReg 0xBF250004)
  | none => dupTtlOf (s.cfgReg 0xBF250004)

/-- Counts in TD_LANDING_CNTn. -/
def State.landCount (s : State) (n k : Nat) : State :=
  s.setFab { s.td.fab with counts := tset z s.td.fab.counts n (tget z s.td.fab.counts n + BitVec.ofNat 32 k) }

/-- A full table makes room: the oldest entry of the stream that holds the most (R311). -/
def State.dupEvict (s : State) : State :=
  let ds := s.td.fab.dups
  if ds.length < 1048576 then s
  else
    let ssid (k : Nat) : Nat := k / 2 ^ 65
    let sizes := ds.foldl (fun (t : Tab Nat) d => tset zn t (ssid d.1) (tget zn t (ssid d.1) + 1)) []
    match leastBy (fun i => 2 ^ 20 - tget zn sizes i) (sizes.map (·.1)) with
    | none => s
    | some i =>
      match leastBy (fun k => (tget dflt ds k).time) ((ds.filter (fun d => ssid d.1 = i)).map (·.1)) with
      | none => s
      | some k => ((s.setFab { s.td.fab with dups := tdel ds k }).landCount 7 1).post 0x189 [d16 i]

/-- A packet of group `g` leaves the landing stage for its crossbar input (R226, R309). -/
def State.land (s : State) (g : Nat) (p : TdPkt) : State :=
  if !s.xbarRoom (16 + g) p.bytes.length || !(tget nil0 s.td.fab.ready g).isEmpty then
    s.setFab { s.td.fab with ready := tset nil0 s.td.fab.ready g (tget nil0 s.td.fab.ready g ++ [p]) }
  else s.sendLocal (16 + g) p

/-- A landing drop in the programmable counters of R400, group 6. -/
def State.landDrop (s : State) (p : TdPkt) : State :=
  match s.nodeOf p.queue with
  | some n => s.count 0x05 n 6 (some (128 + sliceOfQ p.queue)) none p.bytes.length
  | none => s

/-- A complete packet meets the duplicate check (R310 to R313). -/
def State.dupCheck (s : State) (g : Nat) (p : TdPkt) : State :=
  if !p.dc then s.land g p
  else
    let k := dupKey p.ssid p.ov p.osrc.toNat p.manifest.toNat
    match (tfind s.td.fab.dups k).filter (fun e => s.mono < e.time + e.ttl) with
    | some e =>
      let n := s.mono - e.time
      let s := ((s.setFab { s.td.fab with dups := tdel s.td.fab.dups k }).landCount 0 1).landDrop p
      let s := s.hwPeak 0xBF260004 31 16 (n / 100) 65535
      if 9 * e.ttl < 10 * n then s.postOnce 0x18A 0 [d16 (bits (s.hwReg 0xBF260004) 31 16)] else s
    | none =>
      let s := if (tfind s.td.fab.dups k).isSome then s else s.dupEvict
      let s := s.setFab { s.td.fab with dups := tins s.td.fab.dups k ⟨s.mono, s.dupTtl⟩ }
      (s.landCount 1 1).land g p

/-- A context of the landing stage by source node, group, class and destination (R300, R308). -/
def ctxKey (src g cls dest : Nat) : Nat := ((src * 16 + g) * 4 + cls) * 65536 + dest
def State.putCtx (s : State) (k : Nat) (c : FCtx) : State :=
  s.setFab { s.td.fab with ctxs := tins s.td.fab.ctxs k c }

/-- A packet whose last chunk has come (R309). -/
def State.partDone (s : State) (g : Nat) (part : FPart) (bad : Bool) : State :=
  if part.drop then s
  else s.dupCheck g { part.pkt with bytes := part.got.take part.len, tail := some bad }

/-- The chunks of a checked cell, in order, from chunk `i`, with the packet being reassembled; a packet whose head chunk fails
DCRC or QUEUE_N is passed over by its LENGTH (R307, log 47). -/
def State.chunks (g src : Nat) (c : FCell) : Nat → Nat → Option FPart → State → Option FPart × State
  | 0, _, part, s => (part, s)
  | n + 1, i, part, s =>
    let b := chunkAt c.payload i
    let bad := bit c.head (49 + i)
    match part with
    | some x =>
      let x := { x with got := x.got ++ b, need := x.need - 1 }
      if x.need = 0 then State.chunks g src c n (i + 1) none (s.partDone g x bad)
      else State.chunks g src c n (i + 1) (some x) s
    | none =>
      let d := beNat b
      let (v, s) := s.draw
      let p := landedPkt d v
      let len := bits (BitVec.ofNat 256 d : BitVec 256) 118 105
      let good : Bool := dcrcOf (d / 256) == BitVec.ofNat 8 d
        && bits (BitVec.ofNat 256 d : BitVec 256) 255 238 + bits (BitVec.ofNat 256 d : BitVec 256) 237 220 == 2 ^ 18 - 1
      let s := if good then s else (s.landCount 6 1).post 0x185 [d16 src]
      let x : FPart := ⟨p, (len + 31) / 32, [], len, !good, []⟩
      if x.need = 0 then State.chunks g src c n (i + 1) none (s.partDone g x bad)
      else State.chunks g src c n (i + 1) (some x) s

/-- A cell whose turn has come: the Context, CCRC and head checks, and its chunks (R307). -/
def State.reassemble (s : State) (link : Nat) (key : Nat) (c : FCell) : State :=
  let x := tget dflt s.td.fab.ctxs key
  let g := bits c.head 83 80
  let src := bits c.head 92 84
  let n := bits c.head 63 61 + 1
  let fhead := bits c.head 60 57
  let lose (s : State) : State := s.putCtx key { x with part := none }
  if fhead ≠ 0 && x.part.isNone then lose (s.landCount 5 1)
  else
    let init := match x.part with
      | some p => if fhead = 0 then
          let d : BitVec 256 := BitVec.ofNat 256 (beNat (chunkAt c.payload 0)); ccrcInit (bits d 255 238) (d.extractLsb' 172 48)
        else ccrcInit p.pkt.queue p.pkt.manifest
      | none => let d : BitVec 256 := BitVec.ofNat 256 (beNat (chunkAt c.payload 0)); ccrcInit (bits d 255 238) (d.extractLsb' 172 48)
    if cellCrc init c.head c.payload ≠ c.head.extractLsb' 8 32 then
      lose ((s.landCount 2 1).postOnce 0x182 link [d16 link])
    else
      let start := if fhead = 0 then none else x.part
      let (part, s) := State.chunks g src c n 0 start s
      s.putCtx key { x with part }

/-- Cells leave the landing buffer, delivered or discarded (R304): their credits wait while delivered packets of the group
wait. -/
def State.giveBack (s : State) (g cls : Nat) (links : List Nat) : State :=
  links.foldl (fun s link =>
    if (tget nil0 s.td.fab.ready g).isEmpty then s.owe link cls
    else s.setFab { s.td.fab with deferred := tset nil0 s.td.fab.deferred g (tget nil0 s.td.fab.deferred g ++ [(link, cls)]) }) s

/-- The cells of the packet that a context is reassembling. -/
def FCtx.cells (x : FCtx) : List Nat := (x.part.map (·.cells)).getD []

/-- A cell passes to reassembly (R304, R308): it stays in the landing buffer while a packet with a chunk in it is not
complete. -/
def State.passCell (s : State) (link key : Nat) (c : FCell) : State :=
  let g := bits c.head 83 80
  let cls := bits c.head 111 109 - 1
  let was := (tget dflt s.td.fab.ctxs key).cells
  let s := s.reassemble link key c
  let x := tget dflt s.td.fab.ctxs key
  match x.part with
  | none => s.giveBack g cls (was ++ [link])
  | some p =>
    let s := s.putCtx key { x with part := some { p with cells := p.cells ++ [link] } }
    if p.cells.isEmpty then s.giveBack g cls was else s

/-- A context drops its partial packet: the cells that hold it are discarded (R304, R308). -/
def State.dropPart (s : State) (key g cls : Nat) : State :=
  let x := tget dflt s.td.fab.ctxs key
  (s.putCtx key { x with part := none }).giveBack g cls x.cells

/-- Passes the held cells that have become next (R308). -/
def State.ctxDrain (key : Nat) : Nat → State → State
  | 0, s => s
  | n + 1, s =>
    let x := tget dflt s.td.fab.ctxs key
    match x.held.find? (fun h => h.2.2.head.extractLsb' 64 16 == x.expect) with
    | none => s
    | some h =>
      let s := s.putCtx key { x with held := x.held.erase h, expect := x.expect + 1 }
      State.ctxDrain key n (s.passCell h.1 key h.2.2)

/-- Skips the gap of a context: E moves to the lowest held CSEQ (R308). -/
def State.skipGap (s : State) (key src g cls : Nat) : State :=
  let x := tget dflt s.td.fab.ctxs key
  match leastBy id (x.held.map (fun h => (h.2.2.head.extractLsb' 64 16 - x.expect).toNat)) with
  | none => s
  | some d =>
    let s := (s.putCtx key { x with expect := x.expect + BitVec.ofNat 16 d }).dropPart key g cls
    State.ctxDrain key 2049 ((s.landCount 5 d).postOnce 0x183 0 [d16 src, d16 g, d16 cls])

/-- A cell of a stream reaches its context (R308). -/
def State.toContext (s : State) (link : Nat) (c : FCell) : State :=
  let cls := bits c.head 111 109 - 1
  let src := bits c.head 92 84
  let g := bits c.head 83 80
  let key := ctxKey src g cls (bits c.head 108 93)
  let q := c.head.extractLsb' 64 16
  match tfind s.td.fab.ctxs key with
  | none =>
    if 16384 ≤ s.td.fab.ctxs.length then (s.owe link cls).post 0x188 [d16 src]
    else (s.putCtx key ⟨q + 1, [], none, s.mono⟩).passCell link key c
  | some x =>
    let x := { x with last := s.mono }
    let d := (q - x.expect).toNat
    if cls = 2 then
      if d = 0 then (s.putCtx key { x with expect := q + 1 }).passCell link key c
      else if bits c.head 60 57 = 0 then ((s.putCtx key { x with expect := q + 1 }).dropPart key g cls).passCell link key c
      else ((s.putCtx key x).dropPart key g cls).owe link cls
    else if d = 0 then State.ctxDrain key 2049 ((s.putCtx key { x with expect := q + 1 }).passCell link key c)
    else if d < 8192 then
      if x.held.any (fun h => h.2.2.head.extractLsb' 64 16 == q) then (s.putCtx key x).owe link cls
      else
        let s := s.putCtx key { x with held := x.held ++ [(link, s.mono, c)] }
        if 2048 ≤ x.held.length + 1 then s.skipGap key src g cls else s
    else if 57344 ≤ d then (s.putCtx key x).owe link cls
    else
      let s := x.held.foldl (fun s h => s.owe h.1 cls) ((s.landCount 5 x.held.length).dropPart key g cls)
      (s.putCtx key ⟨q + 1, [], none, s.mono⟩).passCell link key c

/-! ## Receiving (R295, R304, R305, R307) -/

/-- The stop map of a control cell (R305). -/
def State.stopMap (s : State) (link : Nat) (payload : List Byte) : State :=
  let x := s.flink link
  let set (t : Tab Nat) (k : Nat) : Tab Nat :=
    if bit (byteAtMap k) (7 - k % 8) then tset zn t k (s.mono + 1) else tset zn t k 0
  s.putFlink link { x with stops := (List.range 1536).foldl set x.stops }
where
  byteAtMap (k : Nat) : Byte := payload.getD (k / 8) 0

/-- A cell with a correct HEC on a link in SYNC. -/
def State.goodCell (s : State) (link : Nat) (c : FCell) : State :=
  let x := s.flink link
  let cls := bits c.head 127 126
  let s := if cls < 3 then s.putFlink link { x with credits := classAdd x.credits cls (bits c.head 125 121) } else s
  let ty := bits c.head 111 109
  let crcOk : Bool := cellCrc 0xFFFFFFFF#32 c.head c.payload == c.head.extractLsb' 8 32
  let crcErr (s : State) : State := (s.landCount 2 1).postOnce 0x182 link [d16 link]
  if 5 ≤ ty then s.landCount 3 1
  else if ty = 0 then (if crcOk then s else crcErr s)
  else if ty = 4 then (if crcOk then s.stopMap link c.payload else crcErr s)
  else
    let s := s.count 0x0A link (ty - 1) none none 0
    if ty < 3 && bits c.head 108 93 ≠ s.fabNode then
      ((s.landCount 4 1).owe link (ty - 1)).post 0x184 [d16 link, d16 (bits c.head 108 93)]
    else s.toContext link c

/-- FABRIC_CELL_RECEIVE (R295, R307). -/
def execFabricCellReceive (link : Fin 192) (head : BitVec 128) (payload : List Byte) (s : State) : Out :=
  if !s.linkOn link then .next s
  else
    let x := s.flink link
    let ok : Bool := cellHec head == head.extractLsb' 0 8
    if x.st = 3 then
      if ok then .next ((s.putFlink link { x with run := 0 }).goodCell link ⟨head, cellBytes payload⟩)
      else
        let s := s.landCount 3 1
        if x.run + 1 < 7 then .next (s.putFlink link { x with run := x.run + 1 })
        else .next (State.linkLeaves (s.putFlink link { x with st := 1, run := 0 }) link)
    else if x.st = 2 then
      if !ok then .next ((s.landCount 3 1).putFlink link { x with st := 1, run := 0 })
      else if x.run + 1 < 6 then .next (s.putFlink link { x with run := x.run + 1 })
      else .next (s.putFlink link { x with st := 3, run := 0, since := s.mono })
    else .next (s.putFlink link { x with st := if ok then 2 else 1, run := 0 })

/-- REORD_TMO in ns. -/
def State.reordTmo (s : State) : Nat := max 1 (min 64 (s.rf 0xBF250004 23 17)) * 1000

/-- LANDING_GAP_TIMEOUT (R308). -/
def execLandingGapTimeout (src : Fin 512) (g : Fin 16) (cls : Fin 3) (dest : BitVec 16) (s : State) : Out :=
  let key := ctxKey src g cls dest.toNat
  let x := tget dflt s.td.fab.ctxs key
  .next (if x.held.any (fun h => h.2.1 + s.reordTmo ≤ s.mono) then s.skipGap key src g cls else s)

/-- LANDING_CONTEXT_FREE (R308). -/
def execLandingContextFree (src : Fin 512) (g : Fin 16) (cls : Fin 3) (dest : BitVec 16) (s : State) : Out :=
  let key := ctxKey src g cls dest.toNat
  match tfind s.td.fab.ctxs key with
  | some x => .next (if x.held.isEmpty && x.part.isNone && x.last + ms 1 ≤ s.mono then
      s.setFab { s.td.fab with ctxs := tdel s.td.fab.ctxs key } else s)
  | none => .next s

/-- DUP_ENTRY_EXPIRE (R311). -/
def execDupEntryExpire (ssid : BitVec 16) (osrc : Option (BitVec 16)) (man : BitVec 48) (s : State) : Out :=
  let k := dupKey ssid.toNat osrc.isSome (osrc.getD 0).toNat man.toNat
  match tfind s.td.fab.dups k with
  | some e => .next (if e.time + e.ttl ≤ s.mono then s.setFab { s.td.fab with dups := tdel s.td.fab.dups k } else s)
  | none => .next s

/-! ## Transmitting (R300, R303 to R306) -/

/-- A stop holds on a link for a class toward a destination; a multicast cell waits for every multicast stop. -/
def FLink.stopped (x : FLink) (cls dest : Nat) : Bool :=
  if cls = 2 then x.stops.any (fun t => t.1 / 512 == 2) else tget zn x.stops (cls * 512 + dest) != 0

/-- The link a cell of a stream would take: the next that qualifies, counted upward from the last one used; for
multicast the pinned one, if it has credit (R303). -/
def State.pickLink (s : State) (g cls dest : Nat) : Option Nat :=
  let ls := s.groupLinks g
  let ok (l : Nat) : Bool := 0 < (s.flink l).credits.getD cls 0 && !(s.flink l).stopped cls dest
  if cls = 2 then (ls[dest % ls.length]?).filter ok
  else leastBy (fun l => (l + 12 - 12 * g - tget zn s.td.fab.lastLink g) % 12) (ls.filter ok)

/-- The chunks of the next cell of a stream, if it may leave: full, of a whole multicast packet, or after PACK_WAIT
(R300). -/
def State.nextCell (s : State) (cls : Nat) (st : FStream) : Option (List FChunk) :=
  match st.chunks with
  | [] => none
  | c :: r =>
    if cls = 2 then some ((c :: r.takeWhile (fun x => !x.head)).take 8)
    else if 8 ≤ st.chunks.length || c.since + 8 * s.rf 0xBF250004 31 24 ≤ s.mono then some ((c :: r).take 8)
    else none

/-- The stream of a class that a group serves next: destinations round-robin (R306). -/
def State.nextStream (s : State) (g cls : Nat) : Option (Nat × Nat × List FChunk) :=
  let able := s.td.fab.streams.filterMap (fun x =>
    if x.1 / 2 ^ 16 = g * 4 + cls then
      match s.pickLink g cls (x.1 % 65536), s.nextCell cls x.2 with
      | some l, some cs => some (x.1 % 65536, l, cs)
      | _, _ => none
    else none)
  match leastBy (fun d => (d + 65536 - tget zn s.td.fab.lastDest (g * 4 + cls)) % 65536) (able.map (·.1)) with
  | some d => able.find? (·.1 == d)
  | none => none

/-- The credits that a transmitted cell on a link returns, and the link after it (R304). -/
def FLink.returns (x : FLink) : Nat × Nat × FLink :=
  match leastBy (fun c => (c + 3 - x.rot) % 3) ((List.range 3).filter (fun c => 0 < x.owed.getD c 0)) with
  | some c =>
    let n := min 31 (x.owed.getD c 0)
    (c, n, { x with owed := (List.range 3).map (fun i => x.owed.getD i 0 - (if i = c then n else 0)), rot := (c + 1) % 3 })
  | none => (3, 0, x)

/-- Place of the first head chunk, 15 for none (R297). -/
def firstHead : Nat → List FChunk → Nat
  | _, [] => 15
  | i, c :: r => if c.head then i else firstHead (i + 1) r

/-- A cell's header and payload with their checks (R297, R298). -/
def makeCell (cr n ty dest node g : Nat) (seq : BitVec 16) (cs : List FChunk) : FCell :=
  let payload := cellBytes (cs.flatMap (·.bytes))
  let tails := (((List.range cs.length).zip cs).map (fun x => if x.2.bad then 2 ^ x.1 else 0)).sum
  let top := packNat [(2, cr), (5, n), (9, 0), (3, ty), (16, dest), (9, node), (4, g), (16, seq.toNat), (3, cs.length - 1),
    (4, firstHead 0 cs), (8, tails), (9, 0)] 0
  let init := match cs with | c :: _ => ccrcInit c.queue c.man | [] => 0xFFFFFFFF#32
  let h1 : BitVec 128 := BitVec.ofNat 128 (top * 2 ^ 40)
  let h2 : BitVec 128 := h1 ||| BitVec.ofNat 128 ((cellCrc init h1 payload).toNat * 256)
  ⟨h2 ||| BitVec.ofNat 128 (cellHec h2).toNat, payload⟩

/-- Sends a cell of a stream. -/
def State.sendCell (s : State) (g cls dest link : Nat) (cs : List FChunk) : State :=
  let k := streamKey g cls dest
  let st := tget dflt s.td.fab.streams k
  let (cr, n, x) := (s.flink link).returns
  let c := makeCell cr n (cls + 1) dest s.fabNode g st.cseq cs
  let s := s.putFlink link { x with credits := (List.range 3).map (fun i => x.credits.getD i 0 - (if i = cls then 1 else 0)) }
  let f := s.td.fab
  let s := s.setFab { f with
    sent := tset dflt f.sent link c
    streams := tset dflt f.streams k ⟨st.chunks.drop cs.length, st.cseq + 1⟩
    lastLink := if cls = 2 then f.lastLink else tset zn f.lastLink g (link - 12 * g + 1)
    lastDest := tset zn f.lastDest (g * 4 + cls) (dest + 1)
    altern := if cls = 0 then f.altern else tset zn f.altern g (2 - cls) }
  s.count 0x09 link cls none none 0

/-- An idle cell returns credits that are pending (R297, R304). -/
def State.sendIdle (s : State) (g : Nat) : State :=
  match (s.groupLinks g).find? (fun l => (s.flink l).owed.any (0 < ·)) with
  | none => s
  | some l =>
    let (cr, n, x) := (s.flink l).returns
    let s := s.putFlink l x
    s.setFab { s.td.fab with sent := tset dflt s.td.fab.sent l (makeCell cr n 0 0 s.fabNode g 0 []) }

/-- FABRIC_CELL_TRANSMIT (R303, R306): unicast high first, then unicast low and multicast in alternation. -/
def execFabricCellTransmit (g : Fin 16) (s : State) : Out :=
  let order := if tget zn s.td.fab.altern g = 0 then [0, 1, 2] else [0, 2, 1]
  match order.findSome? (fun c => (s.nextStream g c).map (fun x => (c, x))) with
  | some (c, d, l, cs) => .next (s.sendCell g c d l cs)
  | none => .next (s.sendIdle g)

/-! ## The fabric queue map (R301) -/

/-- The conditions for BAD_PARAM of FAB_QMAP_SET and FAB_QMAP_READ on P0 and TARGET. -/
def qmapBad (h : Hdr) (p : List Word) : Bool :=
  !targetIs h 2 0x3F || pf p 0 7 0 != 0 || 63 < pf p 0 13 8 || 262144 < pf p 0 31 14 + pf p 0 13 8 + 1

/-- FAB_QMAP_SET (R301). -/
def execFabQmapSet (h : Hdr) (p : List Word) (s : State) : Out :=
  let n := pf p 0 13 8 + 1
  let first := pf p 0 31 14
  let ws := p.drop 1
  .next (runSimple 0x430 h p (qmapBad h p || ws.length != n || ws.any (fun w => bits w 3 0 != 0)) (h.priv == 2)
    s.slipOrQuiet [] (fun s =>
      let m := ((List.range n).zip ws).foldl (fun t x =>
        tset dflt t (first + x.1) ⟨bit x.2 31, bits x.2 30 22, bits x.2 21 4⟩) s.cfg.td.qmap
      { s with cfg := { s.cfg with td := { s.cfg.td with qmap := m } } }) s)

/-- FAB_QMAP_READ (R301). -/
def execFabQmapRead (h : Hdr) (p : List Word) (s : State) : Out :=
  .next (runCommand 0x431 h p (qmapBad h p || p.length != 1) false s.slipOrQuiet [] (fun s =>
    let word (i : Nat) : Word :=
      let e := tget dflt s.cfg.td.qmap i
      mkWord [(1, b01 e.en), (9, e.dest), (18, e.rqueue), (4, 0)]
    (s, codeOk, (List.range (pf p 0 13 8 + 1)).map (fun i => word (pf p 0 31 14 + i)))) s)

end Sys2Proof.Machine
end

