-- ==== Sys2Proof/Machine/Mem.lean ====
section
/-! DEFINITION. The HBM stacks, the persistent store, checkpoints, spares and the life log (R351 to R378). -/

namespace Sys2Proof.Machine

/-! ## Stacks -/

/-- A stack as it is shipped: 63 pseudo-channels in service and the spare (R352). -/
def restStack (_ : Nat) : Stack := ⟨63, true, 0, 0, 0, [], none, [], false⟩

/-- A stack. -/
def State.stack (s : State) (m : Nat) : Stack := tget restStack s.mem.hbm m
/-- Puts a stack. -/
def State.putStack (s : State) (m : Nat) (k : Stack) : State :=
  { s with mem := { s.mem with hbm := tset restStack s.mem.hbm m k } }
/-- A pseudo-channel. -/
def Stack.pc (k : Stack) (pc : Nat) : Pc := tget dflt k.pcs pc
/-- Puts a pseudo-channel. -/
def Stack.putPc (k : Stack) (pc : Nat) (c : Pc) : Stack := { k with pcs := tset dflt k.pcs pc c }
/-- A pseudo-channel in service: not taken out, and not the spare (R352, R360). -/
def Stack.serves (k : Stack) (pc : Nat) : Bool := !(k.pc pc).gone && !(pc == 63 && k.spare)

/-- The location of a pseudo-channel's record (R372, R374). -/
def pcLoc (m pc row : Nat) : Nat := lifeLoc 3 m pc row

/-- HBM_REFRESH_WINDOW (R355): refreshes of the window that could not be issued are postponed, in half-windows; eight
postponed windows force an all-bank refresh, which clears the debt. -/
def execHbmRefreshWindow (m : Fin 4) (pc : Fin 64) (bank : Fin 128) (issued : Nat) (s : State) : Out :=
  let k := s.stack m
  if k.selfRefresh || s.domain (10 + m.val) ≠ 0 then .next s
  else
    let c := k.pc pc
    let need := if 85 < tget zn s.pwr.hbmTemp m then 2 else 1
    let debt := tget zn c.debt bank + (need - issued) * (2 / need)
    .next (s.putStack m (k.putPc pc { c with debt := if 16 ≤ debt then [] else tset zn c.debt bank debt }))

/-- A pseudo-channel is lost without a spare (R361). -/
def State.losePc (s : State) (m pc cause : Nat) : State :=
  let k := s.stack m
  let k := { k with inServ := k.inServ - 1, lost := k.lost + 1 }
  let s := s.putStack m (k.putPc pc { k.pc pc with gone := true })
  let s := { s with mem := { s.mem with lostPcs := s.mem.lostPcs ++ [m * 64 + pc] } }
  let s := (s.post 0x1C4 [d16 m, d16 pc]).recordLife 13 cause (pcLoc m pc 0) pc noUnit 0
  if 0 < s.spareLeft 12 then s.substitute 12 cause (pcLoc m pc 0) pc noUnit
  else (s.post 0x1C7 [d16 m, d16 pc]).recordLife 15 cause (pcLoc m pc 0) pc noUnit 0

/-- A pseudo-channel meets a condition of R360: its copy to the spare begins; on another one's copy it waits. -/
def State.pcFails (s : State) (m pc cause : Nat) : State :=
  let k := s.stack m
  if !k.serves pc then s
  else match k.swap with
    | some (q, _) =>
      if q = pc || k.waits.any (·.1 == pc) then s else s.putStack m { k with waits := k.waits ++ [(pc, cause)] }
    | none => if k.spare then s.putStack m { k with swap := some (pc, cause) } else s.losePc m pc cause

/-- HBM_PC_SWAP (R360, R361): the copy is done. Triggers that waited find no spare. -/
def execHbmPcSwap (m : Fin 4) (s : State) : Out :=
  let k := s.stack m
  match k.swap with
  | none => .next s
  | some (pc, cause) =>
    let w := k.waits
    let k := { k with swap := none, waits := [], spare := false }
    let s := s.putStack m (k.putPc pc { k.pc pc with gone := true })
    let s := (s.post 0x1C3 [d16 m, d16 pc]).substitute 7 cause (pcLoc m pc 0) pc 63
    .next (w.foldl (fun s p => s.pcFails m p.1 p.2) s)

/-- A redirect takes effect (R358, R360, R378). -/
def State.redirect (s : State) (m pc row cause : Nat) : State :=
  let k := s.stack m
  let c := k.pc pc
  let c := { c with redirects := c.redirects ++ [row], copying := c.copying.filter (· != row) }
  let s := s.putStack m (k.putPc pc c)
  let s := (s.post 0x1C0 [d16 m, d16 pc, d32 row]).substitute 5 cause (pcLoc m pc row) row noUnit
  let s := if c.redirects.length = 64 then s.post 0x1C2 [d16 m, d16 pc] else s
  if 48 ≤ c.redirects.length then s.pcFails m pc 0 else s

/-- A row is counted as failing: its copy begins, where the redirect table has a place (R357, R358). -/
def State.rowFails (s : State) (m pc row : Nat) : State :=
  let k := s.stack m
  let c := k.pc pc
  if c.redirects.contains row || c.copying.contains row || 64 ≤ c.redirects.length + c.copying.length then s
  else s.putStack m (k.putPc pc { c with copying := c.copying ++ [row] })

/-- HBM_REDIRECT_COMPLETE (R358). -/
def execHbmRedirectComplete (m : Fin 4) (pc : Fin 64) (row : Nat) (s : State) : Out :=
  .next (if ((s.stack m).pc pc).copying.contains row && (s.stack m).serves pc then s.redirect m pc row 0 else s)

/-- A checkpoint fails or is skipped, with the cause of event 0x1CF (R368, R369); an entry to QUIESCENT that asked for it ends
(R487). -/
def State.ckptFails (s : State) (cause : Nat) : State :=
  let s := match s.mem.run with
    | some r => if r.quiesce then { s with pwr := { s.pwr with modeReq := none, quiescing := false } } else s
    | none => s
  let s := { s with mem := { s.mem with run := none }, store := { s.store with staged := none } }
  s.post 0x1CF [d16 cause]

/-- A checkpoint is being staged or written. -/
def State.ckptBusy (s : State) : Bool :=
  match s.mem.run with
  | some r => r.kib.isSome
  | none => false

/-- What an uncorrectable error does in its region (R353, R400; log 56). -/
def State.heldError (s : State) (region : Nat) : State :=
  if region = 3 then (if s.ckptBusy then s.ckptFails 1 else s)
  else if region = 6 then
    let (x, s) := s.draw
    let i := x.toNat % 16777216
    ({ s with cnt := { s.cnt with flow := tdel s.cnt.flow i } } : State).post 0x1D9 [d16 1, d32 i]
  else s

/-- The same for the remap reserve: a line there counts as of the region that it was remapped from, which is free (R353; log 56). -/
def State.regionError (s : State) (region : Nat) : State :=
  if region = 9 then let (x, s) := s.draw; s.heldError (x.toNat % 9) else s.heldError region

/-- What a read of a line finds (R353, R356, R357, R360): a corrected error counts against its row, an uncorrectable one makes its row
fail and does what its region says. -/
def State.lineRead (s : State) (m pc row region : Nat) (found : LineCheck) : State :=
  let k := s.stack m
  let c := k.pc pc
  match found with
  | .clean => s
  | .corrected =>
    let ces := (c.ces.filter (fun e => s.spares.poh < e.2 + 24)) ++ [(row, s.spares.poh)]
    let s := s.putStack m (({ k with ceNow := k.ceNow + 1 }).putPc pc { c with ces })
    if 3 ≤ (ces.filter (·.1 == row)).length then s.rowFails m pc row else s
  | .uncorrectable =>
    let ues := (c.ues.filter (fun e => s.mono < e.2 + 3600000000000)) ++ [(row, s.mono)]
    let s := (s.putStack m (k.putPc pc { c with ues })).post 0x1C1 [d16 m, d16 region]
    let s := (s.regionError region).rowFails m pc row
    if 4 ≤ (ues.map Prod.fst).eraseDups.length then s.pcFails m pc 0 else s

/-- FLOW_COUNTER_WRITE (R356, R398): the coalesced increments reach DRAM; the read of a pair's line finds what any read may. -/
def execFlowCounterWrite (m : Fin 4) (pc : Fin 64) (row : Nat) (found : LineCheck) (s : State) : Out :=
  if s.domain (10 + m.val) ≠ 0 then .next s
  else
  let s := s.cutDue
  let reads := !s.cnt.incs.isEmpty && row ≤ 589823 && (s.stack m).serves pc
  let s := if reads then s.lineRead m pc row 6 found else s
  .next (s.setCnt (s.cnt.flush (fun _ => true)))

/-- HBM_PATROL_SCRUB (R356, R357, R360): regions in the order of R353, of which the scrub reads all but the first two. -/
def execHbmPatrolScrub (m : Fin 4) (pc : Fin 64) (row region : Nat) (found : LineCheck) (s : State) : Out :=
  let k := s.stack m
  if s.domain (10 + m.val) ≠ 0 || region < 2 || 9 < region || 589823 < row || !k.serves pc then .next s
  else .next ((s.hbm region 6 191).lineRead m pc row region found)

/-- Hard repair of one redirected row at a cold start (R359, R371). -/
def State.hardRepair (s : State) (m pc row : Nat) : State :=
  let k := s.stack m
  let c := k.pc pc
  if 16 ≤ c.hard then s
  else
    let s := s.putStack m (k.putPc pc { c with hard := c.hard + 1, redirects := c.redirects.filter (· != row) })
    let s := (s.post 0x1C6 [d16 m, d16 pc, d32 row]).substitute 6 0 (pcLoc m pc row) row noUnit
    { s with spares := { s.spares with used := tset zn s.spares.used 5 (s.spareUsed 5 - 1) } }

/-- What the training of the stacks reports of data lanes (R351, R360): a repair, or a pseudo-channel without one left, or whose
training fails, which is replaced. -/
def State.trainStacks (s : State) (l : List (Fin 4 × Fin 64 × Bool)) : State :=
  l.foldl (fun s x =>
    let k := s.stack x.1
    if x.2.2 then s.putStack x.1 (k.putPc x.2.1 { k.pc x.2.1 with laneFixes := (k.pc x.2.1).laneFixes + 1 })
    else s.pcFails x.1 x.2.1 0) s

/-- Hard repairs of a cold start, before the stacks enter service (R359). -/
def State.hardRepairs (s : State) : State :=
  (List.range 4).foldl (fun s m => (s.stack m).pcs.foldl (fun s p =>
    if p.2.gone then s else p.2.redirects.foldl (fun s row => s.hardRepair m p.1 row) s) s) s

/-- MEM_STACKS_STATm (R378). -/
def State.stackStat (s : State) (m : Nat) : Word :=
  let k := s.stack m
  mkWord [(6, k.inServ), (1, b01 k.spare), (7, (k.pcs.map (fun p : Nat × Pc => p.2.redirects.length)).foldl max 0), (6, k.lost),
    (12, min 4095 k.ce)]

/-! ## Store blocks -/

/-- A store block is retired (R364): a spare takes its place, or, with none left, its region shrinks. -/
def State.retireBlock (s : State) (block cause : Nat) : State :=
  let old := (tfind s.mem.moved block).getD (((s.mem.defects.find? (·.1 == block)).map Prod.snd).getD block)
  let s := { s with mem := { s.mem with retiring := s.mem.retiring.filter (·.1 != block), moved := tdel s.mem.moved block } }
  if s.spareLeft 10 = 0 then
    if s.mem.lostBlocks.contains block then s
    else
      let s := { s with mem := { s.mem with lostBlocks := s.mem.lostBlocks ++ [block] } }
      s.recordLife 10 cause (lifeLoc 3 4 block 0) old noUnit 0
  else
    let new := 61440 + s.spareUsed 10
    let s := { s with mem := { s.mem with
      defects := s.mem.defects.filter (fun d : Nat × Nat => d.1 != block) ++ [(block, new)]
      wroteAt := tset zn s.mem.wroteAt block s.spares.poh } }
    let s := (s.substitute 10 cause (lifeLoc 3 4 block 0) old new).post 0x1CB [d16 block]
    let left := s.spareLeft 10
    let s := if left = 255 then s.post 0x1CC [d32 left] else s
    if left = 0 then s.post 0x1CD [] else s

/-- STORE_BLOCK_RETIRE (R364, R373): the cause is the command's where one has named the block. -/
def execStoreBlockRetire (block : Nat) (s : State) : Out :=
  .next (if s.domain 2 ≠ 0 || 61440 ≤ block then s
    else s.retireBlock block (((s.mem.retiring.find? (·.1 == block)).map Prod.snd).getD 0))

/-- The pass has read a block; once it has read every block, a pass is complete (R370, R377). -/
def MemSide.passOver (m : MemSide) (block poh : Nat) : MemSide :=
  let seen := if m.passSeen.contains block then m.passSeen else m.passSeen ++ [block]
  if seen.length < 61440 then { m with passSeen := seen } else { m with passSeen := [], passHour := poh }

/-- A block's content is copied to a fresh block, whose number the spec does not give, and the map follows (R370, log 117). -/
def State.rewriteBlock (s : State) (block : Nat) : State :=
  let (v, s) := s.draw
  { s with mem := { s.mem with
    rewritten := s.mem.rewritten + 1, wroteAt := tset zn s.mem.wroteAt block s.spares.poh
    moved := tins s.mem.moved block (v.toNat % 65536) } }

/-- RETENTION_PASS (R364, R370): the pass reads a block and rewrites one that is old or weak; one that is weaker still after it was
rewritten is to be retired. -/
def execRetentionPass (block corrections : Nat) (s : State) : Out :=
  if s.domain 2 ≠ 0 || 61440 ≤ block || s.ckptBusy || !s.mem.retiring.isEmpty then .next s
  else
    let s := { s with mem := s.mem.passOver block s.spares.poh }
    if 24 < corrections then .next (s.post 0x1D1 [d16 block])
    else if 16 < corrections && (tfind s.mem.moved block).isSome then
      .next { s with mem := { s.mem with retiring := [(block, 0)] } }
    else if 8760 ≤ s.spares.poh - tget zn s.mem.wroteAt block || 8 < corrections then .next (s.rewriteBlock block)
    else .next s

/-- 24 h in ns (R370). -/
def dayNs : Nat := 86400000000000

/-- RETENTION_PROGRESS_LOG (R370): once in 24 h. -/
def execRetentionProgressLog (s : State) : Out :=
  .next (if s.domain 2 ≠ 0 || s.mono < s.mem.reported + dayNs then s
    else { s with mem := { s.mem with rewritten := 0, reported := s.mono } }.post 0x1D0 [d32 s.mem.rewritten])

/-- Adds to the KiB written to a region (R365). -/
def State.wear (s : State) (region kib : Nat) : State :=
  { s with mem := { s.mem with written := tset zn s.mem.written region (tget zn s.mem.written region + kib) } }

/-- PERSISTENT_COUNTERS_WRITE (R363, R365): the firmware writes a set every 10 s. -/
def execPersistentCountersWrite (s : State) : Out :=
  .next (if s.domain 2 ≠ 0 || !s.pwr.fwRuns || s.mono < s.mem.pcAt + ms 10000 then s
    else ({ s with mem := { s.mem with pcSets := s.mem.pcSets + 1, pcAt := s.mono } }).wear 2 8192)

/-- Writes to the most-written cell in units of 0.1 % of 100 million (R365, R378). -/
def State.wearStat (s : State) : Nat :=
  let w (r kib : Nat) : Nat := tget zn s.mem.written r / kib / 100000
  min 1000 (max (w 0 2097152) (max (w 1 524288) (w 2 65536)))

/-- Power-on days since the oldest block was last written (R378). -/
def State.retAge (s : State) : Nat :=
  let oldest := if s.mem.wroteAt.length < 61440 then 0
    else (s.mem.wroteAt.map Prod.snd).foldl min s.spares.poh
  min 511 ((s.spares.poh - oldest) / 24)

/-- MEM_STORE_WEAR (R378). -/
def State.storeWear (s : State) : Word := mkWord [(13, s.spareLeft 10), (10, s.wearStat), (9, s.retAge)]

/-! ## Checkpoints -/

/-- One byte in the journal bucket's unit. -/
def jByte : Nat := 1953125

/-- JOURNAL_BUCKET_REFILL (R365): 56 MiB/s up to 256 MiB. -/
def execJournalBucketRefill (s : State) : Out :=
  let m := s.mem
  .next (if s.domain 2 ≠ 0 then s else { s with mem := { m with
    tokens := min (268435456 * jByte) (m.tokens + (s.mono - m.refilled) * 114688), refilled := s.mono } })

/-- 2 s of the 50 MHz count (R365). -/
def fullGap : Nat := 100000000

/-- A full checkpoint that starts at the tick `t` would come less than 2 s after the last (R365). -/
def State.tooSoon (s : State) (t : Nat) : Bool :=
  match s.mem.lastFull with
  | some l => t < l + fullGap
  | none => false

/-- The tick at which an instant of DEVTIME falls (R365, R367). -/
def State.tickOf (s : State) (due : Word64) : Nat := s.time.ticks + (due.toNat - s.now.toNat) / 20

/-- STORE_CHECKPOINT (R367). -/
def execStoreCheckpoint (h : Hdr) (p : List Word) (s : State) : Out :=
  let kind := pf p 0 31 30
  .next (runCommand 0xC01 h p
    (p.length != 3 || kind == 3 || pf p 0 29 0 != 0 || !targetIs h 3 4 || (kind == 1 && s.store.ckpts.isEmpty))
    (h.priv == 2) (s.slipOrQuiet || s.pwr.mode == .test)
    [(kind == 0 && s.tooSoon (s.tickOf (par64 p 1)) || kind == 1 && s.mem.tokens < 1048576 * jByte, codeWear),
     (kind != 2 && (s.mem.run.isSome || s.nearActivation (par64 p 1)), codeBusy)]
    (fun s =>
      if kind = 2 then (if s.ckptBusy then s else { s with mem := { s.mem with run := none } }, codeOk, [])
      else ({ s with mem := { s.mem with run := some ⟨kind == 1, par64 p 1, none, false⟩ } }, codeDeferred, [])) s)

/-- CHECKPOINT_INSTANT (R365, R368): the state goes to staging, or the checkpoint is skipped. -/
def execCheckpointInstant (kib : Nat) (s : State) : Out :=
  match s.mem.run with
  | none => .next s
  | some r =>
    if r.kib.isSome || !s.reached r.due then .next s
    else if r.incr then
      if s.mem.tokens < kib * 1024 * jByte then .next (s.ckptFails 2)
      else
        let s := { s with mem := { s.mem with tokens := s.mem.tokens - kib * 1024 * jByte, run := some { r with kib := some kib } } }
        .next ({ s with store := { s.store with staged := some s.cfg } }.wear 1 kib)
    else if s.tooSoon s.time.ticks then .next (s.ckptFails 3)
    else
      let s := { s with mem := { s.mem with lastFull := some s.time.ticks, run := some { r with kib := some kib } } }
      .next ({ s with store := { s.store with staged := some s.cfg } }.wear 0 kib)

/-- The checkpoints after one more has become valid (R369). -/
def keepCkpts (incr : Bool) (img : Setup) : List Ckpt → List Ckpt
  | c :: r => if incr then { c with incrs := img :: c.incrs } :: r else ⟨img, []⟩ :: [c]
  | [] => [⟨img, []⟩]

/-- CHECKPOINT_COMPLETE (R367 to R369): `fail` is 0 for a store failure and 1 for a staging error. -/
def execCheckpointComplete (fail : Option (Fin 2)) (s : State) : Out :=
  match s.mem.run, s.store.staged with
  | some r, some img =>
    if r.kib.isNone then .next s
    else match fail with
      | some f => .next (s.ckptFails f)
      | none =>
        let (slot, s) := s.draw
        let s := { s with
          mem := { s.mem with run := none }
          store := { s.store with staged := none, ckpts := keepCkpts r.incr img s.store.ckpts } }
        .next (s.post 0x1CE [d16 (b01 r.incr), d16 slot.toNat])
  | _, _ => .next s

/-- A reset during a checkpoint leaves the previous valid one in use (R369). -/
def State.cutCkpt (s : State) : State :=
  { s with mem := { s.mem with run := none }, store := { s.store with staged := none } }

/-- MEM_STORE_CKPT (R378). -/
def State.ckptStat (s : State) : Word :=
  let incr := match s.mem.run with | some r => r.incr | none => false
  mkWord [(1, b01 s.ckptBusy), (1, b01 (s.mem.run.isSome && !s.ckptBusy)), (1, b01 incr),
    (1, b01 (1 ≤ s.store.ckpts.length)), (1, b01 (2 ≤ s.store.ckpts.length)), (18, 0),
    (9, s.mem.tokens / jByte / 1048576)]

/-! ## Spares and the life log -/

/-- LIFE_LOG_WRITE (R374): the oldest record not yet written reaches both copies. -/
def execLifeLogWrite (s : State) : Out :=
  match (if s.domain 2 = 0 then s.spares.unwritten else []) with
  | r :: rest => .next { s with spares := { s.spares with log := s.spares.log ++ [r], unwritten := rest } }
  | [] => .next s

/-- A life log record's bytes (R374). -/
def LifeRec.bytes (r : LifeRec) (n : Nat) : List Byte :=
  let b := beBytes 8 r.time.toNat ++ beBytes 4 r.poh ++ beBytes 4 n ++ beBytes 1 r.kind ++ beBytes 1 r.cause ++ [0, 0]
    ++ beBytes 8 r.loc ++ beBytes 8 r.old ++ beBytes 8 r.new ++ beBytes 4 r.left ++ List.replicate 12 0
  b ++ beBytes 4 (crc32c b).toNat

/-- LIFE_READ (R375). -/
def execLifeRead (h : Hdr) (p : List Word) (s : State) : Out :=
  let n := pf p 1 4 0
  .next (runCommand 0xC03 h p (p.length != 2 || n == 0 || 16 < n || pf p 1 31 5 != 0) false false []
    (fun s => (s, codeOk, BitVec.ofNat 32 s.spares.log.length :: (List.range n).flatMap (fun i =>
      match s.spares.log[(par p 0).toNat + i]? with
      | some r => bytesWords (LifeRec.bytes r ((par p 0).toNat + i))
      | none => List.replicate 16 0))) s)

/-- Offset and size of each region of R353, in table order, as its offsets. -/
def regionOffsets : List Nat :=
  [0, 0x1E00000000, 0x2000000000, 0x2100000000, 0x2180000000, 0x21F8000000, 0x2234000000, 0x2244000000,
   0x2264000000, 0x2264100000]

/-- MEM_HEALTH (R377). -/
def execMemHealth (h : Hdr) (p : List Word) (s : State) : Out :=
  .next (runCommand 0xC00 h p (p.length != 1 || pf p 0 29 0 != 0) false (s.pwr.mode == .slipway) []
    (fun s => (s, codeOk, match pf p 0 31 30 with
      | 0 => (List.range 12).map (fun i => mkWord [(4, i + 1), (14, provided (i + 1)), (14, s.spareLeft (i + 1))])
      | 1 => (List.range 4).map s.stackStat
      | 2 => [s.ckptStat, s.storeWear, BitVec.ofNat 32 (s.mem.tokens / jByte / 1024), BitVec.ofNat 32 s.mem.passHour]
      | _ => regionOffsets.flatMap (fun o => [BitVec.ofNat 32 (o / 2 ^ 32), BitVec.ofNat 32 o]))) s)

/-- MEM_SPARES_LIFE (R376, R378). -/
def State.sparesLife (s : State) : Word :=
  let set (f : Nat → Bool) : Nat := ((List.range 12).map (fun i => if f (i + 1) then 2 ^ i else 0)).sum
  mkWord [(12, set (fun k => aheadOf k (s.spareUsed k) s.spares.poh)), (12, set (fun k => s.spareLeft k == 0)), (8, 0)]

/-- What a SPARE_APPLY finds (R372, R373): its unit is replaced already, no spare is left, another substitution runs,
or it does its effect. -/
def State.spareApply (s : State) (kind slice unit row : Nat) : (Bool × Bool × Bool) × (State → State × Byte × List Word) :=
  let k := s.stack slice
  match kind with
  | 1 => ((s.physOf slice != slice, !s.spareSlice, s.rollStep), fun s => (s.sliceSwap slice 1, codeOk, []))
  | 3 => ((s.bankPhys unit != unit, s.asc.spares.isEmpty, s.asc.swap.isSome && s.asc.swap != some unit),
      fun s => (s.bankSwap unit (if s.asc.swap == some unit then 0 else 1), codeOk, []))
  | 5 =>
    let c := k.pc unit
    let on := c.copying.contains row
    ((!k.serves unit || c.redirects.contains row, !on && 64 ≤ c.redirects.length + c.copying.length,
      !on && k.pcs.any (fun q => !q.2.copying.isEmpty)),
      fun s => (s.redirect slice unit row (if on then 0 else 1), codeOk, []))
  | 7 =>
    let on := match k.swap with | some (q, _) => q == unit | none => false
    ((!k.serves unit, !k.spare, !on && k.swap.isSome), fun s => (s.pcFails slice unit 1, codeDeferred, []))
  | _ =>
    let on := s.mem.retiring.any (·.1 == unit)
    ((s.mem.defects.any (·.1 == unit), !on && s.spareLeft 10 ≤ s.mem.retiring.length, false),
      fun s => (if on then s else { s with mem := { s.mem with retiring := s.mem.retiring ++ [(unit, 1)] } }, codeDeferred, []))

/-- The units of SPARE_APPLY (R372). -/
def spareUnitOk (kind die slice unit row : Nat) : Bool :=
  match kind with
  | 1 => die == 1 && slice < 16 && unit == 0 && row == 0
  | 3 => die == 1 && slice == 0x3F && unit < 64 && row == 0
  | 5 => die == 3 && slice < 4 && unit < 64 && row < 589824
  | 7 => die == 3 && slice < 4 && unit < 64 && row == 0
  | 10 => die == 3 && slice == 4 && unit < 61440 && row == 0
  | _ => false

/-- SPARE_APPLY (R372, R373). -/
def execSpareApply (h : Hdr) (p : List Word) (s : State) : Out :=
  let kind := pf p 0 31 28
  let slice := pf p 1 29 24
  let unit := pf p 1 23 0
  let f := s.spareApply kind slice unit (par p 2).toNat
  .next (runCommand 0xC02 h p
    (p.length != 3 || pf p 0 27 0 != 0 || !spareUnitOk kind (pf p 1 31 30) slice unit (par p 2).toNat) (hdrUser h)
    s.slipOrQuiet [(!f.1.1 && f.1.2.1, codeEmpty), (!f.1.1 && f.1.2.2, codeBusy)]
    (fun s => if f.1.1 then (s, codeOk, []) else f.2 s) s)

end Sys2Proof.Machine
end

