-- ==== Sys2Proof/Machine/Fw.lean ====
section
/-! DEFINITION. Firmware images: staging, verification, floors, activation, the control restart, patches, and the
slipway port (R498 to R522). -/

namespace Sys2Proof.Machine

/-- Puts the firmware side. -/
def State.setFw (s : State) (f : Fw) : State := { s with fw := f }
/-- An image, by the key of `Fw.images`. -/
def State.image (s : State) (k : Nat) : Image := tget dflt s.fw.images k
def State.putImage (s : State) (k : Nat) (i : Image) : State := s.setFw { s.fw with images := tset dflt s.fw.images k i }
/-- An object's staging session. -/
def State.session (s : State) (o : Nat) : Option Session := tget none0 s.fw.sessions o
def State.putSession (s : State) (o : Nat) (x : Option Session) : State :=
  s.setFw { s.fw with sessions := tset none0 s.fw.sessions o x }

/-- The object of an image key: 0 a bank, 1 a slot. -/
def imageObj (k : Nat) : Nat := k / 2

/-- An image that its last verification passed. -/
def Image.valid (i : Image) : Bool := i.state == 3 || 5 ≤ i.state

/-- The image that a staging of an object goes to (R505, R517). -/
def State.stageTo (s : State) (o : Nat) : Nat :=
  if s.pwr.mode == .slipway then 2 * o + b01 ((s.image (2 * o)).valid && !(s.image (2 * o + 1)).valid)
  else if o = 0 then 1 - s.fw.runBank
  else 3 - s.fw.mcSlot

/-! ## Verification (R500 to R502, R509) -/

/-- A number in an image's first 0x200 bytes. -/
def headNum (hd : List Byte) (o n : Nat) : Nat := beNat (bytesAt hd o n)

/-- The ASCII of "JLKIMAGE". -/
def magic : Nat := 0x4A4C4B494D414745

/-- The largest payload of a TYPE (R500). -/
def maxPayload : Nat → Nat
  | 2 => 50331648
  | 3 => 1048576
  | _ => 67108864

/-- The floor of an object (R509). -/
def State.floor (s : State) (o : Nat) : Nat := if o = 0 then s.fw.fwFloor else s.fw.mcFloor

/-- The first check of R501 that an image for an object fails, in order; `fails` holds the causes whose cryptographic or
store check fails. -/
def State.imageCause (s : State) (o len : Nat) (hd : List Byte) (fails : List (BitVec 4)) : Nat :=
  let f := headNum hd
  let bad (k : Nat) : Bool := fails.contains (BitVec.ofNat 4 k)
  let type := f 0x00A 1
  let pay := f 0x028 8
  let svn := f 0x010 2
  let zero (o n : Nat) : Bool := f o n == 0
  let checks : List (Bool × Nat) := [
    (f 0 8 != magic || f 8 2 != 1 || !(zero 0x00B 1 && zero 0x012 2 && zero 0x019 7 && zero 0x03C 4 && zero 0x07C 4
      && zero 0x08E 2 && zero 0x1B0 80) || pay % 64 != 0 || maxPayload type < pay || len != 624 + pay, 1),
    (f 0x014 4 != 0xB256 || f 0x018 1 / 2 % 2 == 0, 2),
    (f 0x020 8 != 0 && f 0x020 8 != Config.uid.toNat, 3),
    (!(if o = 0 then type == 1 else type == 2 || type == 3) || f 0x089 1 / 2 ^ type % 2 == 0, 4),
    (bad 5 || 3 < f 0x088 1 || s.fw.revoked.getLsbD (f 0x088 1), 5),
    (bad 6, 6),
    (svn < f 0x08A 2 || f 0x08C 2 < svn, 7),
    (svn < s.floor o, 8)] ++ [9, 10, 11, 12, 13].map (fun k => (bad k, k))
  ((checks.find? (·.1)).map Prod.snd).getD 0

/-- Two records of a bundle name one SLOT or one ADDR (R502). -/
def patchesClash : List PatchRec → Bool
  | [] => false
  | p :: r => r.any (fun q => q.slot == p.slot || q.addr == p.addr) || patchesClash r

/-- The cause with which the verification of an image ends (R501, R502). -/
def State.verifyCause (s : State) (k : Nat) (fails : List (BitVec 4)) (patches : List PatchRec) : Nat :=
  let i := s.image k
  if i.had < i.length then 14
  else
    let c := s.imageCause (imageObj k) i.length i.head fails
    if c = 0 && headNum i.head 0x00A 1 = 3 && (patches.isEmpty || 64 < patches.length || patchesClash patches) then 1 else c

/-- An image as its verification leaves it. -/
def Image.judged (i : Image) (cause : Nat) (patches : List PatchRec) : Image :=
  let f := headNum i.head
  let i := { i with
    cause, type := f 0x00A 1 % 4, svn := f 0x010 2, version := BitVec.ofNat 32 (f 0x00C 4), keyid := BitVec.ofNat 32 (f 0x084 4)
    payloadLen := f 0x028 8, rootSlot := f 0x088 1
    state := if i.state = 5 || i.state = 6 then i.state else if cause ≠ 0 then 4 else if i.state = 7 then 7 else 3 }
  let was (k : Nat) : Bool := i.patches.any (fun p => p.1.slot == k && p.2)
  { i with
    baseSvn := if i.type = 3 then i.baseSvn else i.svn, baseHead := if i.type = 3 then i.baseHead else i.head
    patches := if cause ≠ 0 then i.patches
      else sortBy (fun a : PatchRec × Bool => a.1.slot) (patches.map (fun p => (p, was p.slot))) }

/-- A message of the slipway port (R520). -/
def State.slipSend (s : State) (type : Nat) (sess : BitVec 16) (ofs value : Nat) : State :=
  s.setFw { s.fw with sent := s.fw.sent ++ [⟨type, sess, ofs, value⟩] }

/-- Reports a cause over the slipway port: 6 RESULT, 7 REFUSE (R520, R521). -/
def State.slipAnswer (s : State) (type : Nat) (sess : BitVec 16) (cause : Nat) : State :=
  let s := s.setFw { s.fw with lastCause := cause }
  s.slipSend type sess 0 cause

/-- FW_VERIFY_COMPLETE (R501, R507, R513, R518, R521): a verification ends, of a session or of FW_VERIFY OP 0. -/
def execFwVerifyComplete (img : Fin 4) (fails : List (BitVec 4)) (patches : List PatchRec) (s : State) : Out :=
  let o := imageObj img
  let sess := (s.session o).filter (fun x => x.verifying && s.stageTo o == img.val)
  if !(sess.isSome || s.fw.verifying.contains img.val) then .next s
  else
    let cause := s.verifyCause img fails patches
    let i := (s.image img).judged cause patches
    let i := if i.type = 3 && sess.isSome && s.pwr.mode != .slipway then
        { i with baseSvn := (s.image (2 + s.fw.mcSlot)).baseSvn, baseHead := (s.image (2 + s.fw.mcSlot)).baseHead } else i
    let s := s.putImage img i
    let s := s.setFw { s.fw with verifying := s.fw.verifying.filter (· != img.val) }
    let s := if cause = 0 then s.post 0x1EC [d16 o, d16 (img % 2)] else s.post 0x1ED [d16 o, d16 (img % 2), d16 cause]
    .next (match sess with
      | none => s
      | some x =>
        let s := s.putSession o none
        let s := if x.slip then (s.slipAnswer 6 x.sess cause).post 0x1F6 [d16 1, d16 cause] else s
        if cause = 0 && o = 0 && s.pwr.mode == .slipway then s.setFw { s.fw with bootBank := img } else s)

/-! ## Staging (R505, R506) -/

/-- The object's image becomes empty, or is being staged. -/
def State.emptyImage (s : State) (k st : Nat) : State := s.putImage k { (default : Image) with seen := true, state := st }

/-- A session that still takes bytes. -/
def State.openSession (s : State) (o : Nat) : Option Session := (s.session o).filter (fun x => !x.verifying)

/-- The bytes of a session have grown. -/
def State.growImage (s : State) (k : Nat) (x : Session) : State :=
  s.putImage k { (default : Image) with seen := true, state := 1, head := x.bytes.take 0x200, length := x.length, had := x.bytes.length }

/-- Whether FW_STAGE's parameters are in range (R505, R506). -/
def State.stageBad (s : State) (h : Hdr) (p : List Word) : Bool :=
  let op := pf p 0 31 30
  let o := pf p 0 29 29
  let src := bit (par p 0) 28
  !devWide h || pf p 0 27 0 != 0 || (match op with
    | 0 => p.length != 2 || pf p 1 31 0 < 624 || 624 + maxPayload (if o = 0 then 1 else 2) < pf p 1 31 0
    | 1 =>
      let ofs := pf p 1 31 0
      let n := pf p 2 31 0
      p.length != 5 || src || n < 64 || 4194304 < n || pf p 3 5 0 != 0 || (match s.openSession o with
        | some x => x.slip || ofs != x.bytes.length || x.length < ofs + n || (n % 64 != 0 && ofs + n != x.length)
        | none => true)
    | 2 => p.length != 1 || (match s.openSession o with | some x => x.slip | none => true)
    | _ => p.length != 1 || (s.session o).isNone)

/-- A microcode activation is pending or a rollout runs (R506). -/
def State.mcBusy (s : State) : Bool :=
  s.fd.eng.roll.isSome || (match s.fw.activation with | some a => a.obj == 1 | none => false)
/-- A trial runs or a control activation is pending (R506); in SLIPWAY no control firmware runs, a trial neither (R517). -/
def State.ctlBusy (s : State) : Bool :=
  (s.fw.trial && s.pwr.mode != .slipway) || (match s.fw.activation with | some a => a.obj == 0 | none => false)

/-- The slipway port is armed, which stops its pattern run (R505, R521, R551). -/
def State.armPort (s : State) : State := s.stopRuns 5 (fun _ => true)

/-- FW_STAGE (R505, R506): `data` is what a WRITE reads from host memory. -/
def execFwStage (h : Hdr) (p : List Word) (data : List Byte) (s : State) : Out :=
  let op := pf p 0 31 30
  let o := pf p 0 29 29
  let src := bit (par p 0) 28
  let k := s.stageTo o
  let busy := (op == 0 && (s.session o).isSome) || (if o = 0 then s.ctlBusy else s.mcBusy)
  .next (runCommand 0x700 h p (s.stageBad h p) (hdrUser h) (s.pwr.mode == .quiescent) [(busy, codeBusy)]
    (fun s => match op with
      | 0 =>
        let s := (s.emptyImage k 1).putSession o (some ⟨src, 0, pf p 1 31 0, [], 0, s.mono, s.mono, false⟩)
        if src then (s.armPort, codeDeferred, []) else (s, codeOk, [])
      | 1 =>
        match s.session o with
        | some x =>
          let x := { x with bytes := x.bytes ++ data.take (pf p 2 31 0), last := s.mono }
          ((s.putSession o (some x)).growImage k x, codeOk, [])
        | none => (s, codeOk, [])
      | 2 =>
        match s.session o with
        | some x => ((s.putSession o (some { x with verifying := true })).putImage k { s.image k with state := 2 }, codeDeferred, [])
        | none => (s, codeDeferred, [])
      | _ => ((s.putSession o none).emptyImage k 0, codeOk, [])) s)

/-- FW_STAGE_TIMEOUT (R505, R506, R521): 1 s without a WRITE or DATA, or 10 s without an OFFER. -/
def execFwStageTimeout (obj : Fin 2) (s : State) : Out :=
  match s.openSession obj with
  | none => .next s
  | some x =>
    let wait := if x.slip && x.sess = 0 then ms 10000 else ms 1000
    if s.mono < x.last + wait then .next s
    else
      let s := ((s.putSession obj none).emptyImage (s.stageTo obj) 0).post 0x1EE [d16 obj]
      .next (if x.slip && x.sess ≠ 0 then s.post 0x1F6 [d16 1, d16 14] else s)

/-! ## FW_VERIFY (R507 to R513) -/

/-- Two results of four words for a bank or slot (R508). -/
def Image.report (i : Image) : List Word :=
  [mkWord [(3, i.state), (4, i.cause), (2, i.type), (7, i.svn), (16, 0)], i.version, i.keyid, BitVec.ofNat 32 i.payloadLen]

/-- The SVN that the running image of an object stands for (R511). -/
def State.runSvn (s : State) (o : Nat) : Nat :=
  if o = 0 then (s.image s.fw.runBank).svn
  else
    let i := s.image (2 + s.fw.mcSlot)
    min i.svn i.baseSvn

/-- OP 3 is refused (R511). -/
def State.floorsBad (s : State) (p : List Word) : Bool :=
  let nf := pf p 1 31 25
  let nm := pf p 1 24 18
  let rv : BitVec 4 := BitVec.ofNat 4 (pf p 1 17 14)
  nf < s.fw.fwFloor || nm < s.fw.mcFloor || s.runSvn 0 < nf || s.runSvn 1 < nm || s.fw.trial
    || rv.getLsbD (s.image s.fw.runBank).rootSlot || rv.getLsbD (s.image (2 + s.fw.mcSlot)).rootSlot || (rv ||| s.fw.revoked) == 15#4

/-- An image below its floor becomes invalid (R511). -/
def State.judgeFloor (s : State) (k : Nat) : State :=
  let i := s.image k
  if i.valid && i.state ≠ 5 && i.state ≠ 6 && i.svn < s.floor (imageObj k) then s.putImage k { i with state := 4, cause := 8 } else s

/-- FW_VERIFY (R507, R508, R510, R511, R513). -/
def execFwVerify (h : Hdr) (p : List Word) (s : State) : Out :=
  let op := pf p 0 31 30
  let k := 2 * pf p 0 29 29 + pf p 0 28 28
  let bad := !devWide h || pf p 0 27 0 != 0 || p.length != (if op = 3 then 2 else 1)
    || (op == 2 && !s.fw.trial) || (op == 3 && (pf p 1 13 0 != 0 || s.floorsBad p))
  .next (runCommand 0x701 h p bad (op != 1 && hdrUser h) (2 ≤ op && s.pwr.mode == .slipway) [(op == 3 && s.alarm, codeBusy)]
    (fun s => match op with
      | 0 => (s.setFw { s.fw with verifying := s.fw.verifying.filter (· != k) ++ [k] }, codeDeferred, [])
      | 1 => (s, codeOk, [0, 1, 2, 3].flatMap (fun k => (s.image k).report)
          ++ [mkWord [(7, s.fw.fwFloor), (7, s.fw.mcFloor), (4, s.fw.revoked.toNat), (14, 0)]])
      | 2 =>
        let b := s.fw.runBank
        let s := s.putImage b { s.image b with state := 5 }
        let s := s.putImage (1 - b) { s.image (1 - b) with state := 3 }
        ((s.setFw { s.fw with bootBank := b, trial := false }).post 0x1F1 [d16 b], codeOk, [])
      | _ =>
        let s := s.setFw { s.fw with
          fwFloor := pf p 1 31 25, mcFloor := pf p 1 24 18, revoked := s.fw.revoked ||| BitVec.ofNat 4 (pf p 1 17 14) }
        let s := [0, 1, 2, 3].foldl (fun s k => s.judgeFloor k) s
        (s.post 0x1F4 [d16 s.fw.fwFloor, d16 s.fw.mcFloor, d16 s.fw.revoked.toNat], codeOk, [])) s)

/-! ## Activation (R512 to R515) -/

/-- Instants already scheduled for CLS_COMMIT, STORE_CHECKPOINT and CNT_SNAPSHOT (R512). -/
def State.instants (s : State) : List Word64 :=
  s.fd.rules.sched.toList ++ (match s.mem.run with | some r => if r.kib.isNone then [r.due] else [] | none => [])
    ++ s.cnt.snaps.filterMap (fun x => match x.2 with | some q => if q.cut then none else some q.due | none => none)

/-- Such an instant lies within 300 ms after T. -/
def State.instantNear (s : State) (t : Word64) : Bool :=
  s.instants.any (fun x => t.toNat ≤ x.toNat && x.toNat ≤ t.toNat + ms 300)

/-- The microcode set of an image's slot with a sequence: its vendor region and those of its patches that `ok` takes (R212, R503). -/
def Image.microSet (i : Image) (seq : Nat) (ok : PatchRec → Bool) : MicroSet := ⟨seq, i.baseHead, (i.patches.map Prod.fst).filter ok⟩

/-- An activation of an image at T is accepted (R217, R512): a new microcode set gets its golden copy and goes into the spare slice. -/
def State.activateAt (s : State) (o k : Nat) (t : Word64) : State :=
  let s := s.setFw { s.fw with activation := some ⟨o, k, t⟩ }
  let s := if o = 1 then
      let s := s.setEng { s.fd.eng with golden := s.fd.eng.golden.take 1 ++ [(s.image k).microSet s.nextSeq (fun _ => true)] }
      if s.spareSlice then (s.abortBist true 0).loadSet s.fd.gang.spare s.nextSeq else s
    else s
  s.post 0x1EF [d16 o, (32, bits t 31 0)]

/-- The codes that FW_ACTIVATE_AT and FW_ROLLBACK share after MODE_WRONG (R512, R515, R580). -/
def State.activateBars (s : State) (o : Nat) (t : Word64) (roll : Bool) : List (Bool × Byte) :=
  [(o == 0 && s.pair.act && s.pair.formed, codeNotActing),
   (s.fw.activation.isSome || s.fd.eng.roll.isSome || (o == 0 && !roll && s.fw.trial) || (o == 0 && s.instantNear t), codeBusy)]

/-- Modes without activation (R512). -/
def State.noActivation (s : State) : Bool := s.slipOrQuiet || s.pwr.mode == .test

/-- Cancels a pending activation of an object (R512). -/
def State.cancelActivation (s : State) (o : Nat) : State :=
  match s.fw.activation with
  | some a =>
    if a.obj = o && s.fw.restarting = 0 then
      (s.setFw { s.fw with activation := none }).setEng { s.fd.eng with golden := s.fd.eng.golden.take 1 }
    else s
  | none => s

/-- T asks for a cancellation. -/
def allOnes : Word64 := 0xFFFFFFFFFFFFFFFF#64

/-- FW_ACTIVATE_AT (R512). -/
def execFwActivateAt (h : Hdr) (p : List Word) (s : State) : Out :=
  let o := pf p 0 31 31
  let t := par64 p 1
  let off := t == allOnes
  let k := if o = 0 then 1 - s.fw.runBank else 3 - s.fw.mcSlot
  let bad := !devWide h || p.length != 3 || pf p 0 30 0 != 0
    || (!off && (t.toNat < s.now.toNat + ms 1 || (s.image k).state != 3))
  .next (runCommand 0x702 h p bad (hdrUser h) s.noActivation (if off then [] else s.activateBars o t false)
    (fun s => if off then (s.cancelActivation o, codeOk, []) else (s.activateAt o k t, codeDeferred, [])) s)

/-- The TD control complex is reset or powered down: an acting member drops the role (R324). -/
def State.ctrlReset (s : State) : State :=
  if s.cfg.pair.en && s.pair.act then (s.dropRole 7).enterMode .standby else s

/-- A trial is undone: the previous bank runs again (R513, R515). -/
def State.revertTrial (s : State) (st why : Nat) : State :=
  let b := s.fw.runBank
  let s := s.putImage b { s.image b with state := st }
  let s := s.putImage (1 - b) { s.image (1 - b) with state := 5 }
  (s.setFw { s.fw with runBank := 1 - b, trial := false }).post 0x1F2 [d16 why]

/-- FW_ROLLBACK (R515, R218). -/
def execFwRollback (h : Hdr) (p : List Word) (s : State) : Out :=
  let o := pf p 0 31 31
  let t := par64 p 1
  let k := if o = 0 then 1 - s.fw.runBank else 3 - s.fw.mcSlot
  let st := (s.image k).state
  let back := o == 0 && s.fw.trial
  let off := t == allOnes && !back
  let bad := !devWide h || p.length != 3 || pf p 0 30 0 != 0
    || (!off && ((!back && t.toNat < s.now.toNat + ms 1) || !(st == 3 || st == 7)))
  .next (runCommand 0x703 h p bad (hdrUser h) s.noActivation (if off then [] else s.activateBars o t true)
    (fun s =>
      if back then (s.ctrlReset.revertTrial 3 2, codeDeferred, [])
      else if off then (s.cancelActivation o, codeOk, [])
      else (s.activateAt o k t, codeDeferred, [])) s)

/-- ROLLOUT_START (R217, R512): T0 has come. -/
def execRolloutStart (s : State) : Out :=
  match s.fw.activation with
  | some a =>
    if a.obj ≠ 1 || !s.reached a.due then .next s
    else
      let s := s.setFw { s.fw with activation := none }
      .next (s.setRoll (some ⟨a.due, 0, 0, 0, s.nextSeq, []⟩))
  | none => .next s

/-- Every started command has been replied to and no checkpoint runs (R514). -/
def State.quiet (s : State) : Bool :=
  (List.range 8).all (fun n => (s.ring n).running.isNone && (s.ring n).orphans.isEmpty)
    && s.pair.inbox.isEmpty && (match s.mem.run with | some r => r.kib.isNone | none => true)

/-- The quiesced control complex is reset, and the ROM sequencer serves the rings (R514). -/
def State.restartLoads (s : State) : State :=
  if s.fw.restarting = 1 && s.quiet then
    let s := s.ctrlReset
    let s := s.setFw { s.fw with restarting := 2 }
    { s with host := { s.host with rom := true }, pwr := { s.pwr with fwRuns := false } }
  else s

/-- CONTROL_RESTART (R514, R385): T has come. A scheduled instant that a step brought into the span abandons it. -/
def execControlRestart (s : State) : Out :=
  match s.fw.activation with
  | some a =>
    if a.obj ≠ 0 || s.fw.restarting ≠ 0 || !s.reached a.due then .next s
    else if s.instantNear a.due then .next ((s.setFw { s.fw with activation := none }).post 0x1F3 [d16 1])
    else
      let s := (List.range 8).foldl (fun s n =>
        match (s.ring n).held with
        | some (c, _) => s.endWait n c false
        | none => s) s
      .next (s.setFw { s.fw with restarting := 1, restartAt := s.mono }).restartLoads
  | none => .next s

/-- CONTROL_RESTART_QUIESCE_TIMEOUT (R514): 100 ms after T started commands or a checkpoint still run. -/
def execControlRestartQuiesceTimeout (s : State) : Out :=
  .next (if s.fw.restarting = 1 && !s.quiet && s.fw.restartAt + ms 100 ≤ s.mono then
      (s.setFw { s.fw with restarting := 0, activation := none }).post 0x1F3 [d16 0]
    else s.restartLoads)

/-- The firmware serves the rings again after a control restart. -/
def State.takeRings (s : State) : State :=
  let s := s.setFw { s.fw with restarting := 0, activation := none }
  { s with host := { s.host with rom := false }, pwr := { s.pwr with fwRuns := true, watchdog := s.mono } }

/-- CONTROL_RESTART_COMPLETE (R513, R514): by T + 250 ms the new firmware, from a valid image, runs on trial. -/
def execControlRestartComplete (s : State) : Out :=
  let s := s.restartLoads
  match s.fw.activation with
  | some a =>
    if s.fw.restarting ≠ 2 || !(s.image a.target).valid || s.fw.restartAt + ms 250 < s.mono then .next s
    else
      let s := s.putImage s.fw.runBank { s.image s.fw.runBank with state := 7 }
      let s := s.putImage a.target { s.image a.target with state := 6 }
      let s := (s.setFw { s.fw with runBank := a.target, trial := true }).takeRings
      .next (s.post 0x1F0 [d32 (s.image a.target).version.toNat])
  | none => .next s

/-- CONTROL_RESTART_FALLBACK (R514): from T + 250 ms on, or at once where the image is invalid, the previous bank is loaded. -/
def execControlRestartFallback (s : State) : Out :=
  let s := s.restartLoads
  match s.fw.activation with
  | some a =>
    if s.fw.restarting ≠ 2 || ((s.image a.target).valid && s.mono < s.fw.restartAt + ms 250) then .next s
    else .next ((s.putImage a.target { s.image a.target with state := 4 }).takeRings.post 0x1F2 [d16 0])
  | none => .next s

/-- A patch is active in every powered physical slice (R213, R516). -/
def State.patchActive (s : State) (p : PatchRec) : Bool :=
  let l := (List.range 34).filterMap (fun k => s.storeSet (14 + k))
  !l.isEmpty && l.all (fun m => m.patches.contains p)

/-- PATCH_LIST (R516). -/
def execPatchList (h : Hdr) (p : List Word) (s : State) : Out :=
  .next (runCommand 0x704 h p (p.length != 1 || pf p 0 30 0 != 0) false (s.pwr.mode == .slipway) []
    (fun s =>
      let k := if bit (par p 0) 31 then 1 - s.fw.mcSlot else s.fw.mcSlot
      let l := (s.image (2 + k)).patches
      (s, codeOk, mkWord [(23, 0), (1, k), (8, l.length)] :: l.flatMap (fun q =>
        [mkWord [(1, b01 (s.patchActive q.1)), (1, 0), (6, q.1.slot), (10, 0), (14, q.1.addr)], q.1.id,
          mkWord [(16, q.1.pver), (16, 0)]]))) s)

/-! ## The slipway port (R519 to R521) -/

/-- A message without its CRC, where the CRC holds and it has a header (R520). -/
def slipBody (msg : List Byte) : Option (List Byte) :=
  let n := msg.length - 4
  if msg.length < 20 || BitVec.ofNat 32 (beNat (msg.drop n)) ≠ crcRing (msg.take n) then none else some (msg.take n)

/-- The session that a transfer has opened: its object. -/
def State.slipObj (s : State) : Option (Nat × Session) :=
  [0, 1].findSome? (fun o => (s.session o).bind (fun x => if x.slip && x.sess != 0 then some (o, x) else none))

/-- The object that an OFFER would go to: the armed one, or in SLIPWAY the one its TYPE suits (R505, R521). -/
def State.slipArmed (s : State) (type : Nat) : Option Nat :=
  if s.pwr.mode == .slipway then (let o := if type = 2 || type = 3 then 1 else 0; if (s.session o).isNone then some o else none)
  else [0, 1].find? (fun o => match s.session o with | some x => x.slip && x.sess == 0 | none => false)

/-- The link of the port is up when a message arrives. -/
def State.slipLink (s : State) : State := s.setFw { s.fw with link := true }

/-- SLIPWAY_OFFER (R520, R521). -/
def execSlipwayOffer (msg : List Byte) (fails : List (BitVec 4)) (s : State) : Out :=
  let s := s.slipLink
  match slipBody msg with
  | none => .next s
  | some b =>
    let sess : BitVec 16 := BitVec.ofNat 16 (headNum b 2 2)
    let len := headNum b 8 4
    let hd := b.drop 16
    if headNum b 0 1 ≠ 1 then .next s
    else if sess = 0 then .next (s.slipAnswer 7 sess 1)
    else if s.slipObj.isSome then .next (s.slipAnswer 7 sess 15)
    else match s.slipArmed (headNum hd 0x00A 1) with
      | none => .next (s.slipAnswer 7 sess 15)
      | some o =>
        let c := if hd.length ≠ 0x200 then 1 else s.imageCause o len hd (fails.filter (· == 5))
        if c ≠ 0 then .next (s.slipAnswer 7 sess c)
        else
          let s := (s.emptyImage (s.stageTo o) 1).putSession o (some ⟨true, sess, len, [], 0, s.mono, s.mono, false⟩)
          let s := s.setFw { s.fw with rxKib := 0 }
          .next ((s.slipSend 2 sess 0 4194304).post 0x1F6 [d16 0, d16 0])

/-- An ACK of what has come without a gap (R521). -/
def State.slipAck (s : State) (o : Nat) (x : Session) : State :=
  (s.putSession o (some { x with since := 0, acked := s.mono })).slipSend 4 x.sess x.bytes.length 0

/-- SLIPWAY_DATA (R520, R521). -/
def execSlipwayData (msg : List Byte) (s : State) : Out :=
  let s := s.slipLink
  match slipBody msg, s.slipObj with
  | some b, some (o, x) =>
    let ofs := headNum b 4 4
    let n := headNum b 8 4
    let data := b.drop 16
    if headNum b 0 1 ≠ 3 || headNum b 2 2 ≠ x.sess.toNat || x.verifying || data.length ≠ n || x.length < ofs + n
        || (n ≠ 1024 && ofs + n ≠ x.length) then .next s
    else
      let x := { x with since := x.since + 1, acked := if x.since = 0 then s.mono else x.acked, last := s.mono }
      if x.bytes.length < ofs then .next (s.slipAck o x)
      else
        let x := if ofs = x.bytes.length then { x with bytes := x.bytes ++ data } else x
        let s := (s.putSession o (some x)).growImage (s.stageTo o) x
        let s := s.setFw { s.fw with rxKib := x.bytes.length / 1024 }
        .next (if 64 ≤ x.since then s.slipAck o x else s)
  | _, _ => .next s

/-- SLIPWAY_DONE (R521): with every byte received the image is verified; with a gap an ACK tells where. -/
def execSlipwayDone (msg : List Byte) (s : State) : Out :=
  let s := s.slipLink
  match slipBody msg, s.slipObj with
  | some b, some (o, x) =>
    if headNum b 0 1 ≠ 5 || headNum b 2 2 ≠ x.sess.toNat || x.verifying then .next s
    else if x.bytes.length < x.length then .next (s.slipAck o x)
    else .next ((s.putSession o (some { x with verifying := true })).putImage (s.stageTo o) { s.image (s.stageTo o) with state := 2 })
  | _, _ => .next s

/-- SLIPWAY_ACK_TIMER (R521): 1 ms after the last ACK, or after the first DATA that follows it. -/
def execSlipwayAckTimer (s : State) : Out :=
  match s.slipObj with
  | some (o, x) => .next (if 0 < x.since && !x.verifying && x.acked + ms 1 ≤ s.mono then s.slipAck o x else s)
  | none => .next s

/-- The port's MAC address (R519). -/
def portMac : Nat := 0x02 * 2 ^ 40 + bits Config.uid 39 0

/-- The port's IPv4 address (R519). -/
def State.portIp (s : State) : Nat :=
  let a := (s.cfgReg 0x3F060000).toNat
  if a ≠ 0 then a else 0xA9FE0000 + (1 + bits Config.uid 15 8 % 254) * 256 + bits Config.uid 7 0

/-- SLIPWAY_ARP (R519): the answer to the asker, laid out as RFC 826 has it. -/
def execSlipwayArp (mac : BitVec 48) (senderIp targetIp : Word) (s : State) : Out :=
  let s := s.slipLink
  if targetIp.toNat ≠ s.portIp then .next s
  else
    let b := [0x00, 0x01, 0x08, 0x00, 0x06, 0x04, 0x00, 0x02] ++ beBytes 6 portMac ++ beBytes 4 s.portIp ++ beBytes 6 mac.toNat
      ++ beBytes 4 senderIp.toNat
    .next (s.setFw { s.fw with answers := s.fw.answers ++ [(mac.toNat, b)] })

/-- SLIPWAY_ICMP_ECHO (R519): `data` is what follows the request's checksum. -/
def execSlipwayIcmpEcho (mac : BitVec 48) (sourceIp destIp : Word) (data : List Byte) (s : State) : Out :=
  let s := s.slipLink
  if destIp.toNat ≠ s.portIp then .next s
  else
    let sum := 65535 - onesSum ([0, 0, 0, 0] ++ data)
    let b := beBytes 4 s.portIp ++ beBytes 4 sourceIp.toNat ++ [0, 0] ++ beBytes 2 sum ++ data
    .next (s.setFw { s.fw with answers := s.fw.answers ++ [(mac.toNat, b)] })

/-- DEV_SERVICE_PORT_SLIPSTAT (R521). -/
def State.slipStat (s : State) : Word :=
  let l := [0, 1].filterMap (fun o => (s.session o).filter (·.slip))
  let st := if l.any (·.verifying) then 3 else if l.any (fun x => x.sess != 0) then 2
    else if s.pwr.mode == .slipway || !l.isEmpty then 1 else 0
  mkWord [(2, st), (1, b01 s.fw.link), (1, 0), (4, s.fw.lastCause), (24, min (2 ^ 24 - 1) s.fw.rxKib)]

/-- DEV_TOLLHOUSE_BOOTSTAT (R503); zero until step 3 of a start. -/
def State.bootStat (s : State) : Word :=
  let f := s.fw
  let v (k : Nat) : Nat := b01 (s.image k).valid
  if s.pwr.phase = 0 then 0
  else mkWord [(1, f.bootBank), (1, f.runBank), (1, b01 f.trial), (1, v 0), (1, v 1), (1, f.mcSlot), (2, v 2 + 2 * v 3), (7, f.fwFloor),
    (7, f.mcFloor), (2, f.slipCause), (8, 0)]

end Sys2Proof.Machine
end

