-- ==== Sys2Proof/Machine/Line.lean ====
section
/-! DEFINITION. Line ports: codeword lock, the lane machine, Span instances as received, defects and the degraded-signal
rule, ports and their configuration, frames received (R45 to R76, R85 to R88, R96). -/

namespace Sys2Proof.Machine

/-! ## Lanes and ports -/

/-- A lane, and the table of lanes with it changed. -/
def State.lane (s : State) (l : Nat) : Lane := tget (fun _ => default) s.line.lanes l
def State.putLane (s : State) (l : Nat) (x : Lane) : State :=
  s.setLine { s.line with lanes := tset (fun _ => default) s.line.lanes l x }

/-- The committed port on a lane (R45). -/
def State.portAt (s : State) (lane : Nat) : Option (Nat × PortCfg) :=
  s.portList.find? (fun x => x.1 ≤ lane && lane < x.1 + x.2.lanes)

/-- The group and carrier number of a Span port (R77). -/
def State.carrierOf (s : State) (p : Nat) : Option (Nat × Nat × SpanCfg × Carrier) :=
  s.spanList.findSome? (fun x =>
    match x.2.carriers.findIdx? (·.port == p) with
    | some i => (x.2.carriers[i]?).map (fun c => (x.1, i, x.2, c))
    | none => none)

/-- Instances of a port in service in the receive direction (R77). -/
def State.rxCount (s : State) (p : Nat) : Nat := ((s.carrierOf p).map (fun x => x.2.2.2.rx)).getD 0

/-- PORTSTAT's address. -/
def portStatAddr (p : Nat) : Nat := 0x7F021000 + 4 * p

/-- A defect of bit `n` of PORTSTAT enters: its event and its STICKY bit (R72, R76). -/
def State.defectIn (s : State) (p n ev : Nat) : State := (s.post ev []).hwBit (portStatAddr p) (n - 8)

/-- A receive defect that stops a Span port's payload makes the second bad (R74). -/
def State.spanStops (s : State) (p : Nat) (c : PortCfg) : Bool :=
  (List.range c.lanes).any (fun i => (s.lane (p + i)).locw)
    || (List.range (s.rxCount p)).any (fun i => (s.inst p i).lof || (s.inst p i).lom)

/-- A defect of a port that stops its payload holds (R74). -/
def State.portStops (s : State) (p : Nat) (c : PortCfg) : Bool :=
  let std := (s.portRun p).std
  match c.type with
  | 1 => std.any (fun d => d.isLock || d == .localFault)
  | 2 => std.any (fun d => d.isLock || d == .localFault) || (s.flexe c.group).any (fun x => (s.portRun x.1).std.any (·.isGroupLoss))
  | 3 => std.any (fun d => d == .otnSignal || d == .otnFrame || d == .otnMultiframe)
  | 4 => s.spanStops p c
  | _ => false

/-- A payload-stopping defect has held in the running second. -/
def State.markStop (s : State) (p : Nat) : State := s.putPortRun p { s.portRun p with stopped := true }

/-- The running second of every port whose payload a defect stops now is bad (R74). -/
def State.markStops (s : State) (l : List (Nat × PortCfg)) : State :=
  l.foldl (fun s x => if s.portStops x.1 x.2 then s.markStop x.1 else s) s

/-! ## Instances (R69 to R73) -/

/-- An instance in service is lost (R96). -/
def State.instLost (s : State) (g ci p i : Nat) : Bool :=
  let x := s.inst p i
  x.lof || x.lom || x.iid || (s.spanRun g).gcal.getLsbD ci || (s.lane (p + i % ((s.port p).map PortCfg.lanes).getD 1)).locw

/-- The receive calendar of a group: carrier number, port and instance of each entry (R80). -/
def SpanCfg.rxCal (c : SpanCfg) : List (Nat × Nat × Nat) :=
  ((List.range c.carriers.length).zip c.carriers).flatMap (fun x => (List.range x.2.rx).map (fun i => (x.1, x.2.port, i)))

/-- FD_SPAN_SKEWg's address. -/
def skewAddr (g : Nat) : Nat := 0x7F030280 + 4 * g

/-- Blocks of a group are lost: dGPART (R97). -/
def State.gpartIn (s : State) (g : Nat) : State :=
  let r := s.spanRun g
  let s := s.putSpanRun g { r with lastLoss := s.mono, gpart := true }
  if r.gpart then s else (s.post 0x061 []).hwBit (skewAddr g) 1

/-- dGLOS enters (R97). -/
def State.glosIn (s : State) (g : Nat) : State :=
  let r := s.spanRun g
  if r.glos then s else ((s.putSpanRun g { r with glos := true }).post 0x060 []).hwBit (skewAddr g) 0

/-- Every instance of a group is lost: what the reader has not taken is lost, and it seeks its place again (R96, R97). -/
def State.stopReading (s : State) (g : Nat) : State :=
  let s := s.glosIn g
  let r := s.spanRun g
  s.putSpanRun g { r with
    reading := false, words := if r.reading then r.words ++ List.replicate 4 none else r.words, skewOf := none, skewSeen := [] }

/-- What lost instances make of a group (R97). -/
def State.groupJudge (s : State) (g : Nat) : State :=
  match s.span g with
  | none => s
  | some c =>
    let l := c.rxCal
    let lost := (l.filter (fun e => s.instLost g e.1 e.2.1 e.2.2)).length
    let r := s.spanRun g
    if lost = 0 then (if r.anyLost then s.putSpanRun g { r with anyLost := false, clearAt := s.mono } else s)
    else
      let s := s.putSpanRun g { r with anyLost := true }
      if !c.up then s else if lost = l.length then s.stopReading g else s.gpartIn g

/-- What a port's change makes of the group whose carrier it is. -/
def State.portJudge (s : State) (p : Nat) : State :=
  match s.carrierOf p with
  | some x => s.groupJudge x.1
  | none => s

/-- dLOF enters on an instance in service. -/
def State.lofIn (s : State) (p i : Nat) : State :=
  let x := s.inst p i
  let s := s.putInst p i { x with clean := 0 }
  match s.carrierOf p with
  | some (g, _, _, k) =>
    if x.lof || k.rx ≤ i then s
    else (((s.putInst p i { x with lof := true, clean := 0 }).defectIn p 9 0x041).markStop p).groupJudge g
  | none => s

/-- An instance leaves alignment: its check restarts (R69). -/
def Inst.restart (x : Inst) : Inst :=
  { x with acc := false, fas := 0, run := 0, fasBad := 0, mfBad := 0, mfGood := 0, bip := none, bei := 0, jnext1 := none, jnext2 := none,
           jcnt1 := none, jcnt2 := none, ptr := none, ptrBad := 0, part := [], inBlock := false, nextG := none, firstG := none, gposBad := 0,
           fcmd := [], rcmd := [] }

/-- Loss of frame on a lane: the lane machine returns to HUNT, and every instance on the lane leaves alignment (R68). -/
def State.laneLost (s : State) (p lane : Nat) (c : PortCfg) : State :=
  let s := s.putLane lane { s.lane lane with fsm := .hunt, cands := [], track := [], errs := 0 }
  (List.range 8).foldl (fun s k =>
    let i := k * c.lanes + (lane - p)
    let s := s.putInst p i (s.inst p i).restart
    s.lofIn p i) s

/-- Holdover of a carrier's transmit lanes begins, and ends (R59, R88). -/
def State.holdIn (s : State) (p : Nat) : State :=
  let r := s.portRun p
  if r.hold then s else (s.putPortRun p { r with hold := true }).defectIn p 14 0x049
def State.holdOut (s : State) (p : Nat) : State :=
  let r := s.portRun p
  if r.hold then (s.putPortRun p { r with hold := false }).post 0x059 [] else s

/-! ## Codeword lock (R65) and the blocks of a codeword (R57) -/

/-- The 257 bits of a block, before the blocks after it: header 1 and 256 data bits, or all zero in an idle block (R57, R58). -/
def blockBits : LaneBlock → Nat
  | some b => 2 ^ 256 + beNat b
  | none => 0

/-- The message bits of a codeword: 20 blocks, the first one's header bit first (R57). -/
def packBlocks (l : List LaneBlock) : BitVec 5140 := BitVec.ofNat 5140 (l.foldl (fun n b => n * 2 ^ 257 + blockBits b) 0)

/-- The 20 blocks of a codeword's message bits (R57). -/
def readBlocks (m : BitVec 5140) : List LaneBlock :=
  (List.range 20).map (fun i =>
    let v := m.toNat / 2 ^ (257 * (19 - i)) % 2 ^ 257
    if v < 2 ^ 256 then none else some (beBytes 32 (v - 2 ^ 256)))

/-- One codeword in a lane's lock: the lock after it. -/
def CwLock.take (c : CwLock) (ok : Bool) (mono : Nat) : CwLock :=
  if c.lock then
    if ok then { c with bad := 0 }
    else if c.bad + 1 < 8 then { c with bad := c.bad + 1 }
    else ⟨false, 0, 0, mono⟩
  else if !ok then { c with good := 0 }
  else if c.good + 1 < 4 then { c with good := c.good + 1 }
  else ⟨true, 0, 0, mono⟩

/-- CODEWORD_RECEIVE (R57, R65, R74, R333): a codeword with its decoder's result and, on a Span lane, its message bits. -/
def execCodewordReceive (tether : Bool) (lane : Fin 128) (ok : Bool) (corrected : Nat) (message : BitVec 5140) (s : State) : Out :=
  if tether then
    if 8 ≤ lane.val || s.domain 9 ≠ 0 then .next s
    else
      let c := tget dflt s.pair.locks lane
      let c' := c.take ok s.mono
      let s := { s with pair := { s.pair with locks := tset dflt s.pair.locks lane c' } }
      .next (if c.lock && !c'.lock then s.tetherLane lane false else s)
  else
    match s.portAt lane with
    | none => .next s
    | some (p, c) =>
      if !s.lineOn || !c.up then .next s
      else
        let r := s.portRun p
        let err := (c.type == 1 || c.type == 2) && (!ok || 7 < corrected)
        let s := s.putPortRun p { r with fec := r.fec + corrected, errs := r.errs + b01 err }
        let x := s.lane lane
        let cw := x.cw.take ok s.mono
        let s := s.putLane lane (if c.type = 4 && cw.lock then
            { x with cw, got := if ok then readBlocks message else [], blocks := if x.cw.lock then (x.blocks + 20) % 4096 else 20 }
          else { x with cw, got := [], blocks := 0 })
        if c.type ≠ 4 || !x.cw.lock || cw.lock then .next s
        else
          let s := s.laneLost p lane c
          let s := if x.locw then s
            else ((s.putLane lane { s.lane lane with locw := true }).defectIn p 8 0x040).markStop p
          .next (if lane.val = p then s.holdIn p else s)

/-- DLOCW_EXIT_TIMER (R72). -/
def execDlocwExitTimer (lane : Fin 128) (s : State) : Out :=
  let x := s.lane lane
  .next (if s.lineOn && x.locw && x.cw.lock && x.cw.since + ms 1 ≤ s.mono then (match s.portAt lane with
      | some y => ((s.putLane lane { x with locw := false }).post 0x050 []).portJudge y.1
      | none => (s.putLane lane { x with locw := false }).post 0x050 [])
    else s)

/-- DLOCW_LOCK_TIMEOUT (R72): no lock within 200 µs of ADMIN_UP. -/
def execDlocwLockTimeout (lane : Fin 128) (s : State) : Out :=
  match s.portAt lane with
  | some (p, c) =>
    let x := s.lane lane
    .next (if s.lineOn && c.type = 4 && c.up && !x.cw.lock && !x.locw && x.cw.since + 200000 ≤ s.mono then
        ((s.putLane lane { x with locw := true }).defectIn p 8 0x040).markStop p
      else s)
  | none => .next s

/-- HOLDOVER_EXIT (R59). -/
def execHoldoverExit (port : Fin 128) (s : State) : Out :=
  .next (if s.lineOn && (s.lane port).cw.lock && !(s.portRun port).justHeld then s.holdOut port else s)

/-- JUST_HOLDOVER_RELEASE (R88). -/
def execJustHoldoverRelease (port : Fin 128) (s : State) : Out :=
  let r := s.portRun port
  if !s.lineOn || !r.justHeld then .next s
  else
    let s := s.putPortRun port { r with justHeld := false, justRun := 0 }
    .next (if (s.lane port).cw.lock then s.holdOut port else s)

/-! ## The Span frame (R60 to R64) -/

/-- FAS. -/
def fasPattern : BitVec 48 := 0xE4B12D7C968A#48

/-- Bits in which two patterns differ. -/
def diffBits {n : Nat} (a b : BitVec n) : Nat := ((List.range n).filter (fun i => (a ^^^ b).getLsbD i)).length

/-- Eight bits of the additive sequence of x^31 + x^28 + 1, first bit first. DESIGN CHOICE (log 60): the Fibonacci form, whose
register shifts toward its most significant bit, puts that bit out and takes in the sum of bits 30 and 27; the spec gives the
polynomial and the seed only. -/
def scrByte (c : BitVec 31) : Nat → Nat → Nat × BitVec 31
  | 0, v => (v, c)
  | n + 1, v =>
    let o := c.msb
    scrByte ((c <<< 1) ||| BitVec.ofNat 31 (b01 (o ^^ c.getLsbD 27))) n (v * 2 + b01 o)

/-- Bytes XOR the sequence from a generator state. -/
def scrFrom : BitVec 31 → List Byte → List Byte
  | _, [] => []
  | c, b :: r => let x := scrByte c 8 0; (b ^^^ BitVec.ofNat 8 x.1) :: scrFrom x.2 r

/-- The scrambling of bytes 9 onward of a frame (R62). -/
def spanScramble (mf sf : Nat) (l : List Byte) : List Byte :=
  scrFrom (BitVec.ofNat 31 (0x3B9D0000 ||| (sf % 256 * 256) ||| mf)) l

/-- The CRC-16 of R63. -/
def crc16 (l : List Byte) : BitVec 16 := crcMsb 0x1021#16 0xFFFF#16 l

/-- XOR of 16-bit words (R64). -/
def xorWords : List Byte → BitVec 16
  | a :: b :: r => (a ++ b) ^^^ xorWords r
  | _ => 0

/-- A frame's number and its overhead after descrambling. -/
def unscramble (mf sf : Nat) (f : List Byte) : List Byte := f.take 9 ++ spanScramble mf sf (f.drop 9)

/-- OHCRC of a descrambled frame holds (R63). -/
def ohOk (f : List Byte) : Bool := crc16 ((f.drop 6).take 54) == BitVec.ofNat 16 (beNat ((f.drop 60).take 2))

/-! ## The lane machine (R66 to R68) -/

/-- SPAN_BLOCK_RECEIVE (R66): a data block in HUNT or CONFIRM, with the overhead of the frame that it may begin. -/
def execSpanBlockReceive (lane : Fin 128) (pos : Fin 4096) (oh : List Byte) (s : State) : Out :=
  match s.portAt lane with
  | none => .next s
  | some (_, c) =>
    let x := s.lane lane
    let scans := s.lineOn && c.type == 4 && c.up && x.cw.lock && (x.fsm == .hunt || x.fsm == .confirm)
    let mf := beNat ((oh.drop 6).take 1)
    let sf := beNat ((oh.drop 7).take 2)
    let f := unscramble mf sf oh
    let hit := BitVec.ofNat 48 (beNat (oh.take 6)) == fasPattern && oh.length == 64 && ohOk f
    if !scans || !hit then .next s
    else
      let slot := beNat ((f.drop 10).take 1) / 32
      let start (k : Cand) : Nat := (k.pos + 4096 - k.slot) % 4096
      let k : Cand := ⟨pos, slot, 0, 1, 1, mf, sf⟩
      let cands := if x.cands.any (fun y => start y == start k) || 8 ≤ x.cands.length then x.cands else x.cands ++ [k]
      .next (s.putLane lane { x with cands, fsm := .confirm })

/-- FAS, MFAS and SFC of a data slot's 72 bits. -/
def seenFas (v : BitVec 72) : BitVec 48 := v.extractLsb' 24 48
def seenMf (v : BitVec 72) : Nat := bits v 23 16
def seenSf (v : BitVec 72) : Nat := bits v 15 0

/-- MFAS and SFC follow those of the frame before (R67). -/
def follows (mf sf mf' sf' : Nat) : Bool :=
  mf' == (mf + 1) % 256 && sf' == (if mf = 255 then (sf + 1) % 65536 else sf)

/-- A candidate after a further frame; none when it is dropped (R67). The first period to end after the hit holds the
creating frame itself. -/
def Cand.next (k : Cand) (seen : List (Nat × BitVec 72)) : Option Cand :=
  if k.age = 0 then some { k with age := 1 }
  else
    match seen.find? (·.1 == k.pos) with
    | none => none
    | some (_, v) =>
      if seenFas v ≠ fasPattern || 16 ≤ k.age then none
      else some { k with
        age := k.age + 1, fas := k.fas + 1, mf := seenMf v, sf := seenSf v
        run := if follows k.mf k.sf (seenMf v) (seenSf v) then k.run + 1 else 1 }

/-- The trackers of a lane's positions after a frame period. -/
def trackNext (t : Tab Trk) (seen : List (Nat × BitVec 72)) : Tab Trk :=
  seen.foldl (fun n x =>
    if seenFas x.2 ≠ fasPattern then n
    else
      let y := tget (fun _ => (default : Trk)) t x.1
      let run := if y.run ≠ 0 && follows y.mf y.sf (seenMf x.2) (seenSf x.2) then y.run + 1 else 1
      tins n x.1 ⟨y.fas + 1, run, seenMf x.2, seenSf x.2⟩) []

/-- An instance after its check over `n` frames of a tracked slot (R69). -/
def Inst.checked (x : Inst) (t : Trk) (n : Nat) : Inst :=
  let mf := (t.mf + 1) % 256
  { x.restart with fas := min n t.fas, run := min n t.run, mf, sf := if mf = 0 then (t.sf + 1) % 65536 else t.sf,
                   acc := 3 ≤ min n t.fas && 4 ≤ min n t.run, clean := 0 }

/-- A candidate is accepted: the lane enters IN_FRAME and its slots' instances take up their checks (R67, R69). -/
def State.acceptCand (s : State) (p lane : Nat) (c : PortCfg) (k : Cand) (t : Tab Trk) : State :=
  let start := (k.pos + 4096 - k.slot) % 4096
  let s := s.putLane lane { s.lane lane with fsm := .inFrame, cands := [], track := [], start, errs := 0 }
  (List.range 8).foldl (fun s n =>
    match tfind t ((start + n) % 4096) with
    | some y => let i := n * c.lanes + (lane - p); s.putInst p i ((s.inst p i).checked y k.age)
    | none => s) s

/-- A frame period without error, or with one, counts toward the exit of dLOF (R72). -/
def State.cleanCount (s : State) (p lane : Nat) (c : PortCfg) (err : Bool) : State :=
  (List.range 8).foldl (fun s n =>
    let i := n * c.lanes + (lane - p)
    let x := s.inst p i
    if !x.acc then s
    else if err then s.putInst p i { x with clean := 0 }
    else if x.lof && 16 ≤ x.clean + 1 then ((s.putInst p i { x with clean := 0, lof := false }).post 0x051 []).portJudge p
    else s.putInst p i { x with clean := if x.lof then x.clean + 1 else 0 }) s

/-- SPAN_FRAME_PERIOD_END (R67, R68): `seen` gives, by position on the lane, the first 72 bits of the data blocks that
a candidate, a tracked position or the accepted round names. -/
def execSpanFramePeriodEnd (lane : Fin 128) (seen : List (Nat × BitVec 72)) (s : State) : Out :=
  match s.portAt lane with
  | none => .next s
  | some (p, c) =>
    let x := s.lane lane
    if !s.lineOn || c.type ≠ 4 || !c.up || !x.cw.lock then .next s
    else
      match x.fsm with
      | .hunt => .next s
      | .confirm =>
        let cands := x.cands.filterMap (·.next seen)
        let t := trackNext x.track seen
        match cands.find? (fun k => 3 ≤ k.fas && 4 ≤ k.run) with
        | some k => .next (s.acceptCand p lane c k t)
        | none =>
          if cands.isEmpty then .next (s.putLane lane { x with fsm := .hunt, cands := [], track := [] })
          else .next (s.putLane lane { x with cands, track := t })
      | _ =>
        let good := seen.any (fun v => (v.1 + 4096 - x.start) % 4096 < 8 && diffBits (seenFas v.2) fasPattern ≤ 2)
        if good then .next ((s.putLane lane { x with fsm := .inFrame, errs := 0 }).cleanCount p lane c false)
        else
          let s := s.cleanCount p lane c true
          if x.errs < 4 then .next (s.putLane lane { x with fsm := .flywheel, errs := x.errs + 1 })
          else .next (s.laneLost p lane c)

/-! ## Degraded signal and standard defects (R50, R73 to R75) -/

/-- Channels whose lock a standard defect takes away (R56). -/
def State.lockChans (s : State) (c : PortCfg) (d : PortDefect) : List Nat :=
  match c.type with
  | 1 | 3 => if d.isLock then c.channels else []
  | 2 => if d.isLock || d.isGroupLoss then (s.flexe c.group).flatMap (fun x => x.2.channels) else []
  | _ => []

/-- A client's lock on one channel of a port is lost or comes back (R56, log 103). -/
def State.clientLock (s : State) (port : Nat) (d : PortDefect) (chan : Nat) (enter : Bool) : State :=
  let r := s.portRun port
  if enter = r.seek.contains d then s
  else if enter then (s.putPortRun port { r with seek := r.seek ++ [d] }).chanLost chan
  else s.putPortRun port { r with seek := r.seek.erase d }

/-- PORT_STANDARD_DEFECT (R50, R73, R74): a lock that is found, whether or not its loss had entered as a defect, is no longer
sought (R56). DESIGN CHOICE (log 103): defects enter and leave whatever ADMIN_UP is. -/
def execPortStandardDefect (port : Fin 128) (defect : PortDefect) (enter : Bool) (s : State) : Out :=
  match s.port port with
  | none => .next s
  | some c =>
    let r := s.portRun port
    if !s.lineOn || !defect.fits c.type c.lanes then .next s
    else
      match defect with
      | .otnBip8 => .next (if enter then s.putPortRun port { r with errs := r.errs + 1 } else s)
      | .clientLock ch => .next (if c.channels.contains ch.val then s.clientLock port defect ch enter else s)
      | _ =>
        if enter then
          if r.std.contains defect then .next s
          else
            let s := (s.putPortRun port { r with std := r.std ++ [defect], seek := r.seek.erase defect }).defectIn port 15
              (defect.event c.type)
            let s := (s.lockChans c defect).foldl (fun s ch => s.chanLost ch) s
            .next (s.markStops (if c.type = 2 then s.flexe c.group else [(port.val, c)]))
        else if r.std.contains defect then
          .next ((s.putPortRun port { r with std := r.std.erase defect }).post (defect.event c.type + 0x010) [])
        else .next (s.putPortRun port { r with seek := r.seek.erase defect })

/-- DEG_SECOND_END (R74, R75). -/
def execDegSecondEnd (port : Fin 128) (s : State) : Out :=
  match (if s.lineOn then s.port port else none) with
  | none => .next s
  | some c =>
    let r := s.portRun port
    let thr := max 1 (s.rf (0x7F021400 + 4 * port) 31 8)
    let m := max 2 (min 10 (s.rf (0x7F021400 + 4 * port) 7 4))
    let bad := thr ≤ r.errs || r.stopped || s.portStops port c
    let r := { r with
      badRun := if bad then r.badRun + 1 else 0, goodRun := if bad then 0 else r.goodRun + 1
      lastErrs := r.errs, lastFec := r.fec, errs := 0, fec := 0, stopped := s.portStops port c }
    if !r.deg && m ≤ r.badRun then .next ((s.putPortRun port { r with deg := true }).defectIn port 13 0x045)
    else if r.deg && m ≤ r.goodRun then .next ((s.putPortRun port { r with deg := false }).post 0x055 [])
    else .next (s.putPortRun port r)

/-- Puts a committed port. -/
def State.setPort (s : State) (p : Nat) (c : Option PortCfg) : State :=
  { s with cfg := { s.cfg with ports := tset (fun _ => none) s.cfg.ports p c } }

/-- The shadow of a port waits for nothing but its entries: its geometry is the committed one (R52, R53). -/
def State.shadowDone (s : State) (p : Nat) (c : PortCfg) : Bool :=
  match tget (fun _ => none) s.cfg.portShadow p with
  | some w => w.type == c.type && w.width == c.width && w.rxInv == c.rxInv && w.txInv == c.txInv && w.group == c.group && w.phy == c.phy
  | none => false

/-- Entries that await their boundary come into effect on a port of a type, and PENDING ends with them unless a geometry waits too
(R53). A channel whose entry goes or changes loses its lock (R56). -/
def State.commitEntries (s : State) (p type : Nat) : State :=
  let r := s.portRun p
  match s.port p, r.entries with
  | some c, some es =>
    if c.type ≠ type then s
    else
      let gone := c.entries.filter (fun w => !es.contains w)
      let lost := gone.map (fun w => bits w 31 20)
      let s := (s.putPortRun p { r with
        entries := none
        seek := r.seek.filter (fun d => !lost.any (fun n => d == .clientLock (Fin.ofNat 4096 n))) }).setPort p (some { c with entries := es })
      let s := if s.shadowDone p c then
          { s with cfg := { s.cfg with portShadow := tset (fun _ => none) s.cfg.portShadow p none } } else s
      lost.foldl (fun s n => s.chanLost n) s
  | _, _ => s

/-- FLEXE_CALENDAR_SWITCH (R53). -/
def execFlexeCalendarSwitch (port : Fin 128) (s : State) : Out := .next (if s.lineOn then s.commitEntries port 2 else s)
/-- OTN_ENTRY_COMMIT (R53). -/
def execOtnEntryCommit (port : Fin 128) (s : State) : Out := .next (if s.lineOn then s.commitEntries port 3 else s)

end Sys2Proof.Machine
end

