-- ==== Sys2Proof/Machine/OamEng.lean ====
section
/-! DEFINITION. The OAM engine: sessions, the BFD and CCM frames they send and take, and their changes (R391 to R397).
The frames' own layouts are those of RFC 5880 and ITU-T Y.1731, which R391 names (log 70). -/

namespace Sys2Proof.Machine

/-- A session's configuration and its run. -/
def State.oamCfg (s : State) (k : Nat) : Option OamCfg := tget none0 s.cfg.oam k
def State.oamRun (s : State) (k : Nat) : OamRun := tget dflt s.oam.runs k
def State.putOam (s : State) (k : Nat) (r : OamRun) : State :=
  { s with oam := { s.oam with runs := tset dflt s.oam.runs k r } }

/-- EN of TD_OAM_CFG: the engine runs. -/
def State.oamOn (s : State) : Bool := s.rf 0xBF2A0000 31 31 == 1

/-- The member answers and originates OAM frames (R317): a forwarding mode other than STANDBY. -/
def State.oamSends (s : State) : Bool := s.oamOn && modeForwards s.pwr.mode && !s.silent

/-! ## Intervals -/

/-- Nanoseconds of a CCM interval code (R391). -/
def ccmNs (code : Nat) : Nat :=
  match code with | 1 => 3333333 | 2 => 10000000 | 3 => 100000000 | 4 => 1000000000 | _ => 10000000000

/-- A BFD session's transmit interval in ns (RFC 5880): at least 1 s until it is Up; none where the remote asks for
no frames. -/
def bfdTxNs (c : OamCfg) (r : OamRun) : Option Nat :=
  if r.rRx = 0 then none
  else
    let want := if r.state = 3 then c.txInt else max c.txInt 1000000
    some (max want r.rRx.toNat * 1000)

/-- The detection time in ns (R394). -/
def detectNs (c : OamCfg) (r : OamRun) : Nat :=
  if c.ccm then ccmNs c.txInt * 7 / 2 else r.rMult * max c.rxInt r.rTx.toNat * 1000

/-- The next transmit instant. BFD's jitter is drawn: up to 25 %, or between 10 % and 25 % where the multiplier is 1. -/
def State.nextTx (s : State) (c : OamCfg) (r : OamRun) (base : Nat) : Option Nat × State :=
  if c.ccm then (some (base + ccmNs c.txInt), s)
  else match bfdTxNs c r with
    | none => (none, s)
    | some i =>
      let (v, s) := s.draw
      let cut := if c.mult = 1 then i / 10 + v.toNat % (i * 15 / 100 + 1) else v.toNat % (i / 4 + 1)
      (some (base + (i - cut)), s)

/-! ## Changes (R396, R397) -/

/-- DEVTIME at an instant of the monotonic count, as far as no step moves it (R380). -/
def State.devAt (s : State) (mono : Nat) : Word64 := s.now + BitVec.ofInt 64 ((mono : Int) - s.mono)

/-- A session's record for the tether (R335). -/
def State.oamRecord (s : State) (k : Nat) (r : OamRun) : List Byte :=
  beBytes 2 k ++ beBytes 1 (r.state * 64 + r.defects.toNat * 2 + b01 r.poll) ++ beBytes 1 r.diag.toNat
    ++ beBytes 4 r.remote.toNat ++ beBytes 4 r.rTx.toNat ++ beBytes 4 r.rRx.toNat ++ beBytes 8 ((r.nextTx.map (fun t => (s.devAt t).toNat)).getD (2 ^ 64 - 1))
    ++ beBytes 8 (s.devAt r.rxAt).toNat ++ beBytes 4 r.txSeq.toNat ++ beBytes 4 r.sent.toNat ++ beBytes 4 r.rcvd.toNat
    ++ List.replicate 4 0

/-- Puts a session's run, which the acting member mirrors over the tether (R337, R397). -/
def State.setOam (s : State) (k : Nat) (r : OamRun) : State :=
  let s := s.putOam k r
  if s.pair.formed && s.pair.act && s.pair.tetherUp then s.tetherPut 3 (s.oamRecord k r) else s

/-- Sets a session's bit in the change map, and logs an event at most once in 10 ms for it (R396). -/
def State.oamChanged (s : State) (k : Nat) (ev : Option (Nat × List (Nat × Nat))) : State :=
  let w := tget z s.oam.changes (k / 32)
  let s := { s with oam := { s.oam with changes := tset z s.oam.changes (k / 32) (putBits w (k % 32) (k % 32) 1) } }
  match ev with
  | none => s
  | some (src, items) =>
    let r := s.oamRun k
    if r.said ≠ 0 && s.mono + 1 < r.said + ms 10 then s
    else (s.putOam k { r with said := s.mono + 1 }).post src items

/-- A BFD session's state changes (R396): event 0x078 for Up and 0x079 for Down from Init or Up. -/
def State.bfdTo (s : State) (k st diag : Nat) : State :=
  let r := s.oamRun k
  if r.state = st then s
  else
    let s := s.setOam k { r with state := st, diag := BitVec.ofNat 5 diag, poll := r.poll && st == 3 }
    s.oamChanged k (if st = 3 then some (0x078, [d16 k])
      else if st = 1 && 2 ≤ r.state then some (0x079, [d16 k, d16 diag]) else none)

/-- A CCM session's defects change (R396): event 0x07A on a new one and 0x078 when all are cleared. -/
def State.ccmTo (s : State) (k : Nat) (d : BitVec 5) : State :=
  let r := s.oamRun k
  if r.defects = d then s
  else
    let s := s.setOam k { r with defects := d, state := if d = 0 then 3 else 1 }
    s.oamChanged k (if d &&& ~~~r.defects ≠ 0 then some (0x07A, [d16 k, d16 d.toNat])
      else if d = 0 then some (0x078, [d16 k]) else none)

/-! ## Frames -/

/-- The control packet of a BFD session (RFC 5880). The C bit is free: the spec gives none. -/
def bfdPacket (c : OamCfg) (r : OamRun) (cBit final : Bool) : List Byte :=
  beBytes 1 (32 + r.diag.toNat)
    ++ beBytes 1 (r.state * 64 + b01 (r.poll && !final) * 32 + b01 final * 16 + b01 cBit * 8)
    ++ beBytes 1 c.mult ++ [24] ++ beBytes 4 c.disc.toNat ++ beBytes 4 r.remote.toNat ++ beBytes 4 (c.txInt % 2 ^ 32)
    ++ beBytes 4 (c.rxInt % 2 ^ 32) ++ List.replicate 4 0

/-- A UDP checksum: 0 is sent as all ones. -/
def bfdUdpSum (l : List Byte) : List Byte :=
  let v := 65535 - onesSum l
  beBytes 2 (if v = 0 then 65535 else v)

/-- A frame with the lengths and checksums of its IP header at `o` and of the UDP header after it (R392). -/
def fixUdp (f : List Byte) (o : Nat) : List Byte :=
  let v6 := byteAt f o / 16 == 6
  let u := if v6 then o + 40 else o + max 20 (byteAt f o % 16 * 4)
  let ulen := f.length - u
  let f := splice (splice f (u + 4) 2 (beBytes 2 ulen)) (u + 6) 2 [0, 0]
  let f := if v6 then splice f (o + 4) 2 (beBytes 2 ulen) else fixV4 (splice f (o + 2) 2 (beBytes 2 (f.length - o))) o
  let addrs := if v6 then bytesAt f (o + 8) 32 else bytesAt f (o + 12) 8
  splice f (u + 6) 2 (bfdUdpSum (addrs ++ beBytes 4 ulen ++ [0, 0, 0, 17] ++ f.drop u))

/-- The frame that a session sends: its template and what the engine writes into it (R392). -/
def oamFrame (c : OamCfg) (r : OamRun) (cBit final : Bool) : List Byte :=
  if c.ccm then
    let flags := byteAt c.tpl (c.pduOff + 2) % 128 + b01 (r.defects &&& 0b10111#5 != 0) * 128
    splice (splice c.tpl (c.pduOff + 2) 1 [BitVec.ofNat 8 flags]) (c.pduOff + 4) 4 (beBytes 4 r.txSeq.toNat)
  else fixUdp (c.tpl ++ bfdPacket c r cBit final) c.pduOff

/-- A frame enters its queue (R392, R394): the framer's FCS counts in its length, and what the spec does not give of
its descriptor is free (log 2). -/
def State.inject (s : State) (q : Nat) (f : List Byte) : State :=
  let (v, s) := s.draw
  let p : TdPkt :=
    { queue := q, manifest := 0, ruleVer := s.curVer, colour := v.toNat % 3, ct := false, mc := false, chan := bits v 50 39,
      port := bits v 38 32, bucket := bits v 62 51, stamp := s.now.extractLsb' 0 32, emeta := v.extractLsb' 0 32, ssid := 0,
      osrc := 0, ov := false, dc := false, dest := 0, bytes := f ++ leBytes (crcFcs f), tail := some false, pid := 0,
      landed := false, part := false }
  s.admitUni p 0

/-- A session sends one frame. -/
def State.oamSend (s : State) (k : Nat) (c : OamCfg) (final : Bool) : State :=
  let (v, s) := s.draw
  let r := s.oamRun k
  let s := s.inject c.txq (oamFrame c r (v.toNat % 2 == 1) final)
  s.setOam k { r with sent := r.sent + 1, txSeq := if c.ccm then r.txSeq + 1 else r.txSeq }

/-- A session is freed (R393). -/
def State.freeOam (s : State) (k : Nat) : State :=
  { s with cfg := { s.cfg with oam := tset none0 s.cfg.oam k none }, oam := { s.oam with runs := tdel s.oam.runs k } }

/-- OAM_TX_TIMER (R393, R394, R397). -/
def execOamTxTimer (k : Fin 16384) (s : State) : Out :=
  match s.oamCfg k with
  | none => .next s
  | some c =>
    let r := s.oamRun k
    let may := s.oamSends && (r.nextTx.any (fun t => Decidable.decide (t ≤ s.mono))) && (c.en || 0 < r.leaving || !c.ccm)
    if !may then .next s
    else
      let s := s.oamSend k c false
      let r := s.oamRun k
      if r.leaving = 1 then .next (s.freeOam k)
      else
        let (t, s) := s.nextTx c r (r.nextTx.getD s.mono)
        .next (s.setOam k { s.oamRun k with nextTx := t, leaving := r.leaving - 1 })

/-- Whether LOC clears: three valid frames within 3.5 intervals. -/
def locClears (c : OamCfg) (good : List Nat) (mono : Nat) : Bool :=
  match good[2]? with
  | some t => mono ≤ t + ccmNs c.txInt * 7 / 2
  | none => false

/-- The defects of a session whose time has passed clear. -/
def OamRun.lapse (r : OamRun) (mono : Nat) : BitVec 5 :=
  r.clearAt.foldl (fun d x => if x.2 ≤ mono then putBits d x.1 x.1 0 else d) r.defects

/-- OAM_DETECT_EXPIRE (R391, R394): a detection time or LOC interval has passed since the last valid frame. -/
def execOamDetectExpire (k : Fin 16384) (s : State) : Out :=
  match s.oamCfg k with
  | none => .next s
  | some c =>
    let r := s.oamRun k
    if !s.oamSends then .next s
    else
      let late := r.rxAt + detectNs c r ≤ s.mono
      if c.ccm then
        let d := r.lapse s.mono
        let s := if late then s.putOam k { r with good := [] } else s
        .next (s.ccmTo k (if late then putBits d 4 4 1 else d))
      else if late && 2 ≤ r.state then .next ((s.putOam k { r with remote := 0 }).bfdTo k 1 1)
      else .next s

/-- A frame goes to the host on the punt path, at most 100,000 in a second (R395). -/
def State.oamPunt (s : State) (chan : Nat) (e : Option QEnt) (frame : List Byte) : State :=
  let n := if s.oam.second = s.time.secNo then s.oam.toHost else 0
  if 100000 ≤ n then (s.bump 4 0 9 1).postOnce 0x07B 0 []
  else
    let s := { s with oam := { s.oam with toHost := n + 1, second := s.time.secNo } }
    let x := (e.map (·.pkt)).getD default
    s.punt { ring := 0, reason := max 4 (s.rf 0xBF2A0000 12 7), copy := false, eg := false, port := x.port, chan,
             slice := 0xF, ruleVer := x.ruleVer, time := s.now, emeta := x.emeta, bucket := x.bucket,
             node := 0, bytes := frame }

/-- Where a frame's BFD control packet starts: after an IP header of UDP at one of BFD's ports. -/
def bfdAt (frame : List Byte) : Option Nat :=
  match (walk frame).ip with
  | none => none
  | some (o, v6) =>
    let proto := byteAt frame (if v6 then o + 6 else o + 9)
    let u := if v6 then o + 40 else o + max 20 (byteAt frame o % 16 * 4)
    let port := be16 frame (u + 2)
    if proto = 17 && (port = 3784 || port = 4784) then some (u + 8) else none

/-- The session with a local discriminator. -/
def State.byDisc (s : State) (d : Nat) : Option Nat :=
  (s.cfg.oam.find? (fun x => match x.2 with | some c => !c.ccm && c.disc.toNat == d | none => false)).map (·.1)

/-- The checks of RFC 5880 on a control packet, and the functions that the engine does not support (R391). -/
def bfdOk (b : List Byte) : Bool :=
  let st := byteAt b 1 / 64
  24 ≤ b.length && byteAt b 0 / 32 == 1 && byteAt b 3 == 24 && byteAt b 2 != 0 && byteAt b 1 % 8 == 0
    && beNat (bytesAt b 4 4) != 0 && (beNat (bytesAt b 8 4) != 0 || st < 2)

/-- A valid control packet reaches its session (RFC 5880). -/
def State.bfdTake (s : State) (k : Nat) (c : OamCfg) (b : List Byte) : State :=
  let r := s.oamRun k
  let st := byteAt b 1 / 64
  let fin := bit (BitVec.ofNat 8 (byteAt b 1)) 4
  let pollIn := bit (BitVec.ofNat 8 (byteAt b 1)) 5
  let s := s.setOam k { r with
    remote := BitVec.ofNat 32 (beNat (bytesAt b 4 4)), rTx := BitVec.ofNat 32 (beNat (bytesAt b 12 4))
    rRx := BitVec.ofNat 32 (beNat (bytesAt b 16 4)), rMult := byteAt b 2, lastRx := s.now, rxAt := s.mono, rcvd := r.rcvd + 1
    poll := r.poll && !fin }
  let s := match r.state, st with
    | 0, _ => s
    | 1, 0 => s
    | _, 0 => s.bfdTo k 1 3
    | 1, 1 => s.bfdTo k 2 r.diag.toNat
    | 1, 2 => s.bfdTo k 3 r.diag.toNat
    | 2, 2 | 2, 3 => s.bfdTo k 3 r.diag.toNat
    | 3, 1 => s.bfdTo k 1 3
    | _, _ => s
  if pollIn && r.state ≠ 0 then s.oamSend k c true else s

/-- A CCM reaches its session (Y.1731): the frame's level and MEG, then its MEP and its period. -/
def State.ccmTake (s : State) (k : Nat) (c : OamCfg) (b : List Byte) : State :=
  let r := s.oamRun k
  let own := c.tpl.drop c.pduOff
  let code := byteAt b 2 % 8
  let clear := s.mono + ccmNs code * 7 / 2
  let flag (i : Nat) : State :=
    let s := s.putOam k { r with clearAt := tins r.clearAt i clear }
    s.ccmTo k (putBits (r.lapse s.mono) i i 1)
  if bytesAt b 10 48 != bytesAt own 10 48 then flag 2
  else if beNat (bytesAt b 8 2) % 8192 ≠ c.rxInt then flag 1
  else
    let good := (s.mono :: r.good).take 3
    let clearAt := if code = c.txInt then r.clearAt else tins r.clearAt 0 clear
    let d := { r with clearAt }.lapse s.mono
    let d := if code = c.txInt then d else putBits d 0 0 1
    let d := putBits d 3 3 (byteAt b 2 / 128)
    let d := if locClears c good s.mono then putBits d 4 4 0 else d
    let s := s.setOam k { r with
      good, clearAt, lastRx := s.now, rxAt := s.mono, rcvd := r.rcvd + 1, remote := BitVec.ofNat 32 c.rxInt }
    s.ccmTo k d

/-- Where a frame's CFM PDU starts. -/
def cfmAt (frame : List Byte) : Option Nat :=
  let w := walk frame
  if be16 frame w.ether = 0x8902 then some (w.ether + 2) else none

/-- A frame for a session, or none: the frame goes to the host (R395). -/
def State.oamTake (s : State) (session : Option Nat) (frame : List Byte) : Option State :=
  match bfdAt frame, cfmAt frame with
  | some o, _ =>
    let b := frame.drop o
    let your := beNat (bytesAt b 8 4)
    let k := if your ≠ 0 then s.byDisc your else session
    match k with
    | none => none
    | some k => match s.oamCfg k with
      | some c => if !c.ccm && bfdOk b then some (s.bfdTake k c b) else none
      | none => none
  | none, some o =>
    let b := frame.drop o
    match session with
    | none => none
    | some k => match s.oamCfg k with
      | some c =>
        if c.ccm && byteAt b 1 == 1 && byteAt b 0 / 32 == byteAt (c.tpl.drop c.pduOff) 0 / 32 && 1 ≤ byteAt b 2 % 8
        then some (s.ccmTake k c b) else none
      | none => none
  | none, none => none

/-- The session that a packet's EMETA names (R395). -/
def oamSession (p : TdPkt) : Option Nat := if bits p.emeta 13 0 = 0x3FFF then none else some (bits p.emeta 13 0)

/-- The engine takes a frame that has left SINK_Q (R394, R395, R397). A standby checks frames and takes no state from them. -/
def State.oamRecv (s : State) (e : QEnt) : State :=
  let n := if s.oam.gotSec = s.time.secNo then s.oam.got else 0
  if 8000000 ≤ n then (s.bump 4 0 8 1).post 0x07C []
  else
    let s := { s with oam := { s.oam with got := n + 1, gotSec := s.time.secNo } }
    match s.oamTake (oamSession e.pkt) e.pkt.bytes with
    | some t => if s.oamSends then t else s
    | none => s.oamPunt e.pkt.chan (some e) e.pkt.bytes

/-- OAM_FRAME_RECEIVE (R232, R395): the first packet of SINK_Q leaves it for the engine, once all of it has come and its first berth is
at hand; one that ends bad is dropped. -/
def execOamFrameReceive (s : State) : Out :=
  let q := s.rf 0xBF2A0000 30 13
  match (s.qrun q).ents with
  | [] => .next s
  | e :: _ =>
    .next (if !s.oamOn || !modeForwards s.pwr.mode || e.pkt.tail.isNone || !s.headReady e then s
      else if e.pkt.tail = some true then s.dropQ q 11 e
      else (s.leaveQ q e).oamRecv e)

/-! ## Commands -/

/-- The session that OAM_SESSION_SET gives (R392). -/
def oamOfWords (p : List Word) : OamCfg :=
  { ccm := pf p 0 17 15 == 1, en := bit (par p 0) 14, txq := pf p 1 31 14, txInt := (par p 2).toNat,
    rxInt := (par p 3).toNat, mult := pf p 4 31 24, pduOff := pf p 4 15 8, disc := par p 5,
    tpl := (p.drop 6).flatMap (fun w => beBytes 4 w.toNat) }

/-- The BAD_PARAM conditions of OAM_SESSION_SET (R392, R393). -/
def State.oamBad (s : State) (h : Hdr) (p : List Word) : Bool :=
  let c := oamOfWords p
  let len := pf p 4 23 16
  let k := pf p 0 31 18
  !tdWide h || p.length != 6 + len / 4 || len < 16 || 128 < len || len % 4 != 0 || 1 < pf p 0 17 15 || pf p 0 13 0 != 0
    || pf p 1 13 0 != 0 || pf p 4 7 0 != 0
    || (if c.ccm then c.txInt < 1 || 5 < c.txInt || 8191 < c.rxInt || c.mult != 0 || c.disc != 0
        else c.txInt < 3300 || c.mult == 0 || c.disc == 0 || (match s.byDisc c.disc.toNat with | some j => j != k | none => false))

/-- A session begins to run (RFC 5880, Y.1731). -/
def State.oamStart (s : State) (k : Nat) (c : OamCfg) : State :=
  let r : OamRun := { (default : OamRun) with state := if c.ccm then 3 else b01 c.en, rRx := 1, lastRx := s.now, rxAt := s.mono }
  let (t, s) := s.nextTx c r s.mono
  s.setOam k { r with nextTx := t }

/-- OAM_SESSION_SET (R392, R393). -/
def execOamSessionSet (h : Hdr) (p : List Word) (s : State) : Out :=
  let k := pf p 0 31 18
  let c := oamOfWords p
  .next (runSimple 0x900 h p (s.oamBad h p) (h.priv == 2) s.slipOrQuiet []
    (fun s =>
      let old := s.oamCfg k
      let s := { s with cfg := { s.cfg with oam := tset none0 s.cfg.oam k (some c) } }
      match old with
      | none => s.oamStart k c
      | some o =>
        if o.ccm != c.ccm then s.oamStart k c
        else
          let r := s.oamRun k
          let poll := r.poll || (!c.ccm && r.state == 3 && (o.txInt != c.txInt || o.rxInt != c.rxInt))
          let s := s.setOam k { r with poll, leaving := 0 }
          if c.ccm then s
          else if !c.en then s.bfdTo k 0 7
          else if r.state = 0 then s.bfdTo k 1 0 else s) s)

/-- OAM_SESSION_DEL (R393). -/
def execOamSessionDel (h : Hdr) (p : List Word) (s : State) : Out :=
  let k := pf p 0 31 18
  .next (runSimple 0x901 h p (!tdWide h || p.length != 1 || pf p 0 17 0 != 0) (h.priv == 2) s.slipOrQuiet []
    (fun s => match s.oamCfg k with
      | none => s
      | some c => if c.ccm then s.freeOam k
        else
          let s := s.bfdTo k 0 7
          s.setOam k { s.oamRun k with leaving := 3 }) s)

/-- OAM_SESSION_READ (R396). -/
def execOamSessionRead (h : Hdr) (p : List Word) (s : State) : Out :=
  .next (runCommand 0x902 h p (p.length != 1 || pf p 0 17 0 != 0) false false []
    (fun s =>
      let r := s.oamRun (pf p 0 31 18)
      (s, codeOk, [mkWord [(2, r.state), (5, r.defects.toNat), (5, r.diag.toNat), (20, 0)], r.remote, r.rTx, r.rRx,
        r.lastRx.extractLsb' 0 32, r.lastRx.extractLsb' 32 32, r.sent, r.rcvd])) s)

/-- OAM_CHANGES (R396). -/
def execOamChanges (h : Hdr) (p : List Word) (s : State) : Out :=
  let first := pf p 0 31 23
  let n := pf p 0 22 16
  .next (runCommand 0x903 h p (p.length != 1 || pf p 0 15 0 != 0 || n == 0 || 64 < n || 512 < first + n) false false []
    (fun s => ({ s with oam := { s.oam with
        changes := s.oam.changes.filter (fun x => x.1 < first || first + n ≤ x.1) } }, codeOk,
      (List.range n).map (fun i => tget z s.oam.changes (first + i)))) s)

/-- The instant of the monotonic count at which DEVTIME is a value. -/
def State.monoAt (s : State) (dev : Nat) : Nat := ((s.mono : Int) + dev - s.now.toNat).toNat

/-- An OAM session record of TTYPE 3 replaces a session's state on the standby (R335, R397). -/
def State.takeOam (s : State) (f : List Byte) : State :=
  let k := beNat (f.take 2) % 16384
  let b := byteAt f 2
  if (s.oamCfg k).isNone then s
  else
    let w (o : Nat) : Word := BitVec.ofNat 32 (beNat (bytesAt f o 4))
    s.putOam k { s.oamRun k with
      state := b / 64, defects := BitVec.ofNat 5 (b / 2 % 32), poll := b % 2 == 1, diag := BitVec.ofNat 5 (byteAt f 3)
      remote := w 4, rTx := w 8, rRx := w 12, nextTx := if beNat (bytesAt f 16 8) = 2 ^ 64 - 1 then none else some (s.monoAt (beNat (bytesAt f 16 8)))
      lastRx := BitVec.ofNat 64 (beNat (bytesAt f 24 8)), rxAt := s.monoAt (beNat (bytesAt f 24 8)), txSeq := w 32, sent := w 36, rcvd := w 40 }

end Sys2Proof.Machine
end

