-- ==== Sys2Proof/Machine/PortCmd.lean ====
section
/-! DEFINITION. Line ports by command, and frames in and out: LINE_PORT_CFG, LINE_STATUS, a received frame, a sent
frame with its time stamps (R48, R49, R51 to R55, R76, R81, R82, R273, R317, R386, R387, R409). -/

namespace Sys2Proof.Machine

/-! ## LINE_PORT_CFG (R51 to R53) -/

/-- The port that a command's words describe. -/
def portCfgOf (p : List Word) : PortCfg :=
  { up := bit (par p 0) 23, type := pf p 0 22 20, width := pf p 0 19 18, rxInv := (par p 0).extractLsb' 8 8,
    txInv := (par p 0).extractLsb' 0 8, base := pf p 1 31 20, maxFrame := pf p 1 19 6, group := pf p 2 31 28,
    phy := pf p 2 27 20, entries := p.drop 3 }

/-- Ranges of slots that overlap none of the others. -/
def rangesApart : List (Nat × Nat) → Bool
  | [] => true
  | (a, n) :: r => r.all (fun x => a + n ≤ x.1 || x.1 + x.2 ≤ a) && rangesApart r

/-- A list without repeats. -/
def noRepeats (l : List Nat) : Bool := l.eraseDups.length == l.length

/-- Ports whose lanes a geometry takes, other than port `n` (R52). -/
def State.takes (s : State) (n : Nat) (c : PortCfg) : List (Nat × PortCfg) :=
  if c.type = 0 then [] else s.portList.filter (fun x => x.1 != n && x.1 < n + c.lanes && n < x.1 + x.2.lanes)

/-- Ports that stay beside port `n`: all others, but for those that a commit of its geometry removes (R52). -/
def State.beside (s : State) (n : Nat) (c : PortCfg) (apply : Bool) : List (Nat × PortCfg) :=
  s.portList.filter (fun x => x.1 != n && !(apply && (s.takes n c).any (·.1 == x.1)))

/-- Members of the FlexE group of a port that stay beside it. -/
def State.flexeBeside (s : State) (n : Nat) (c : PortCfg) (apply : Bool) : List (Nat × PortCfg) :=
  (s.beside n c apply).filter (fun x => x.2.type == 2 && x.2.group == c.group)

/-- The entries of a port in effect and those that await their boundary (R51, R53). -/
def State.allEntries (s : State) (p : Nat) (c : PortCfg) : List Word := c.entries ++ (s.portRun p).entries.getD []

/-- Channels of a port, those of entries that await their boundary among them. -/
def State.allChans (s : State) (p : Nat) (c : PortCfg) : List Nat := { c with entries := s.allEntries p c }.channels

/-- Channels assigned on the device but to port `n` and to the ports that the commit removes (R51). -/
def State.chansElse (s : State) (n : Nat) (c : PortCfg) (apply : Bool) : List Nat :=
  ((s.beside n c apply).flatMap (fun x => s.allChans x.1 x.2)) ++ s.spanList.map (·.2.chan)

/-- Entries of an ODUflex or FlexE port that its table does not allow (R48, R49, R51). -/
def State.entriesBad (s : State) (n : Nat) (c : PortCfg) (apply : Bool) : Bool :=
  match c.type with
  | 3 =>
    let ts := 40 * c.lanes
    c.entries.any (fun w =>
      let m := bits w 19 18
      let k := bits w 8 0
      m == 3 || k == 0 || ts < bits w 17 9 + k || (m == 1 && k != 40) || (m == 2 && k != 80))
      || !rangesApart (c.entries.map (fun w => (bits w 17 9, bits w 8 0)))
  | 2 =>
    let all := s.flexeBeside n c apply
    let theirs := all.flatMap (fun x => (s.allEntries x.1 x.2).map (fun w => (bits w 19 10, bits w 9 0)))
    let slots := 40 * c.lanes * (all.length + 1)
    (!c.entries.isEmpty && all.any (·.1 < n))
      || c.entries.any (fun w =>
        let k := bits w 9 0
        !(k == 2 || k == 8 || (k % 5 == 0 && k != 0)) || slots < bits w 19 10 + k)
      || !rangesApart (c.entries.map (fun w => (bits w 19 10, bits w 9 0)))
      || c.entries.any (fun w => theirs.any (fun y => !rangesApart [(bits w 19 10, bits w 9 0), y]))
      || c.phy == 0 || c.phy == 255 || all.any (fun x => x.2.width != c.width)
  | _ => !c.entries.isEmpty

/-- The conditions for BAD_PARAM (R51). -/
def State.portCfgBad (s : State) (h : Hdr) (p : List Word) : Bool :=
  let n := pf p 0 31 25
  let c := portCfgOf p
  let apply := bit (par p 0) 24
  !targetIs h 1 0x3F || p.length < 3 || pf p 0 17 16 != 0 || pf p 1 5 0 != 0 || pf p 2 9 0 != 0 || 512 < pf p 2 19 10
    || p.length != 3 + pf p 2 19 10 || 5 ≤ c.type || n % c.lanes != 0 || (c.type == 2 && 2 ≤ c.width)
    || (c.type == 3 && c.width == 0) || c.maxFrame < 64
    || !noRepeats c.channels || c.channels.any (s.chansElse n c apply).contains || s.entriesBad n c apply

/-- A limit of R48 or R49 would be exceeded; a port counts by the larger of its entries in effect and of those that wait. -/
def State.portLimit (s : State) (n : Nat) (c : PortCfg) (apply : Bool) : Bool :=
  let others (t : Nat) : Nat :=
    (((s.beside n c apply).filter (fun x => x.2.type == t)).map
      (fun x => max x.2.entries.length (((s.portRun x.1).entries.map List.length).getD 0))).sum
  match c.type with
  | 2 => 8 < (s.flexeBeside n c apply).length + 1 || 1024 < others 2 + c.entries.length
  | 3 => 1024 < others 3 + c.entries.length
  | _ => false

/-- Counters of one unit of a scope restart (R409). -/
def State.clearCounts (s : State) (scope unit : Nat) : State :=
  let k := scope * 65536 + unit * 32
  { s with cnt := { s.cnt with ports := s.cnt.ports.filter (fun x => x.1 < k || k + 32 ≤ x.1) } }

/-- A port's channels lose lock (R56, R343). -/
def State.portChansLost (s : State) (p : Nat) : State :=
  (((s.port p).map PortCfg.channels).getD []).foldl (fun s c => s.chanLost c) s

/-- A port leaves: its lanes power down, and what ran on it is gone (R45, R52). -/
def State.dropPort (s : State) (p : Nat) : State :=
  let s := s.portChansLost p
  let lanes := ((s.port p).map PortCfg.lanes).getD 1
  let l := s.line
  let s := s.setLine { l with
    lanes := l.lanes.filter (fun x => x.1 < p || p + lanes ≤ x.1)
    insts := l.insts.filter (fun x => x.1 / 64 != p)
    txs := l.txs.filter (fun x => x.1 / 64 != p)
    ports := tdel l.ports p
    laneTx := l.laneTx.filter (fun x => x.1 < p || p + lanes ≤ x.1)
    pos := l.pos.filter (fun x => !(((s.port p).map PortCfg.channels).getD []).contains x.1) }
  (s.setPort p none).setHw (portStatAddr p) 0

/-- Lanes start toward codeword lock at ADMIN_UP, and their instances in service stand in dLOF (R65, R72); a port of a
standard type seeks its lock (R50, R56). -/
def State.portUp (s : State) (p : Nat) : State :=
  match s.port p with
  | none => s
  | some c =>
    let s := s.putPortRun p { s.portRun p with seek := c.locks }
    let s := (List.range c.lanes).foldl (fun s i => s.putLane (p + i) { (default : Lane) with cw := ⟨false, 0, 0, s.mono⟩ }) s
    (List.range (s.rxCount p)).foldl (fun s i => s.lofIn p i) s

/-- A port goes administratively down: its lanes stop. DESIGN CHOICE (log 103): dLOCW goes with its lane and logs no exit; the other
defects that hold stay. -/
def State.portDown (s : State) (p : Nat) : State :=
  match s.port p with
  | none => s
  | some c =>
    let s := s.portChansLost p
    let s := (List.range 64).foldl (fun s i => s.putInst p i (s.inst p i).restart) s
    ((List.range c.lanes).foldl (fun s i => s.putLane (p + i) default) s).portJudge p

/-- ADMIN_UP comes into effect (R53). -/
def State.setAdmin (s : State) (p : Nat) (up : Bool) : State :=
  match s.port p with
  | none => s
  | some c =>
    if c.up = up then s
    else
      let s := s.setPort p (some { c with up })
      if up then s.portUp p else s.portDown p

/-- A port node is unshaped at its commit (R273). -/
def State.unshape (s : State) (node : Nat) : State :=
  (s.setTdCfg { s.cfg.td with shapers := tset restShaper s.cfg.td.shapers (nodeKey 3 node) (restShaper 0) }).timetable
    (nodeKey 3 node)

/-- A port's geometry is committed (R52, R273); the first commit wakes the LINE domain (R486). -/
def State.commitPort (s : State) (n : Nat) (c : PortCfg) : State :=
  let gone := (s.takes n c).map (·.1)
  let s := (gone ++ [n]).foldl (fun s q => s.dropPort q) s
  let s := { s with cfg := { s.cfg with portShadow := tset (fun _ => none) s.cfg.portShadow n none } }
  let s := s.post 0x04A [d16 n]
  if c.type = 0 then s
  else
    let s := (s.setPort n (some { c with up := false })).setDomain 6 0
    let s := s.stopRuns 0 (fun u => n ≤ u && u < n + c.lanes)
    let s := ((s.clearCounts 0 n).clearCounts 1 (PortCfg.node n c))
    let s := s.putPortRun n default
    let s := if c.type = 1 then
        let k := nodeKey 3 n
        ((s.setTdCfg { s.cfg.td with
          shapers := tset restShaper s.cfg.td.shapers k ⟨25000000 * c.lanes, 16384, 20⟩ }).putBucket k ⟨16384, 0⟩).timetable k
      else if c.type = 2 && (s.flexe c.group).any (·.1 != n) then s
      else s.unshape (PortCfg.node n c)
    s.setAdmin n c.up

/-- A command without a commit: the live fields of a committed port change now, its entries wait for their boundary, and
the rest waits in the shadow (R52, R53). -/
def State.shadowPort (s : State) (n : Nat) (c : PortCfg) : State :=
  let s := { s with cfg := { s.cfg with portShadow := tset (fun _ => none) s.cfg.portShadow n (some c) } }
  match s.port n with
  | none => s
  | some o =>
    let s := s.setPort n (some { o with maxFrame := c.maxFrame, base := if c.type = 1 then c.base else o.base })
    let s := if o.type = c.type && (c.type = 2 || c.type = 3) then
        s.putPortRun n { s.portRun n with entries := if c.entries = o.entries then none else some c.entries }
      else s
    s.setAdmin n c.up

/-- LINE_PORT_CFG (R51 to R53). -/
def execLinePortCfg (h : Hdr) (p : List Word) (s : State) : Out :=
  let n := pf p 0 31 25
  let c := portCfgOf p
  let apply := bit (par p 0) 24
  let upNow := ((s.port n).map (·.up)).getD false
  let blocked := apply && ((upNow && c.up) || (s.takes n c).any (fun x => x.2.up))
  .next (runSimple 0x500 h p (s.portCfgBad h p) (h.priv == 2) s.slipOrQuiet
    [(s.portLimit n c apply, codeFull), (blocked, codeRunning)]
    (fun s => if apply then s.commitPort n c else s.shadowPort n c) s)

/-! ## Port status (R76) -/

/-- DEFECT of PORTSTAT. -/
def State.portDefects (s : State) (p : Nat) (c : PortCfg) : Nat :=
  let r := s.portRun p
  let any (f : Inst → Bool) : Bool := (List.range 64).any (fun i => f (s.inst p i))
  packNat [(1, b01 (!r.std.isEmpty)), (1, b01 r.hold), (1, b01 r.deg), (1, b01 r.bdi), (1, b01 (any (·.iid))),
    (1, b01 (any (·.lom))), (1, b01 (any (·.lof))), (1, b01 ((List.range c.lanes).any (fun i => (s.lane (p + i)).locw)))] 0

/-- PENDING of PORTSTAT (R52, R53). -/
def State.portPending (s : State) (p : Nat) : Bool :=
  (tget (fun _ => none) s.cfg.portShadow p).isSome || (s.portRun p).entries.isSome

/-- FD_FRAMER_PORTSTATp. -/
def State.portStat (s : State) (p : Nat) : Word :=
  match s.port p with
  | none => 0
  | some c => mkWord [(1, b01 c.up), (3, c.type), (2, c.width), (1, b01 (s.portPending p)), (1, b01 (s.linkUp p)), (8, 0),
      (8, s.portDefects p c), (8, bits (s.hwReg (portStatAddr p)) 7 0)]

/-- A number from the bits of `n` places. -/
def bitsOf (n : Nat) (f : Nat → Bool) : Nat := ((List.range n).map (fun i => b01 (f i) * 2 ^ i)).sum

/-- The results of LINE_STATUS (R76). -/
def State.lineStatus (s : State) (p : Nat) (c : PortCfg) : List Word :=
  let r := s.portRun p
  let span := c.type == 4
  let inst (i : Nat) : Bool := span && (s.inst p i).acc
  let lock (i : Nat) : Bool := i < c.lanes && (if span then (s.lane (p + i)).cw.lock else c.up && !(r.seek ++ r.std).contains (.laneLock (Fin.ofNat 8 i)))
  let frame (i : Nat) : Bool := span && i < c.lanes && ((s.lane (p + i)).fsm == .inFrame || (s.lane (p + i)).fsm == .flywheel)
  let src : Nat := match (List.range 64).find? inst with
    | some i => beNat (((s.inst p i).oh.drop 27).take 8)
    | none => 0
  [s.portStat p, mkWord [(8, bitsOf 8 lock), (8, bitsOf 8 frame), (16, 0)],
    BitVec.ofNat 32 (bitsOf 32 inst), BitVec.ofNat 32 (bitsOf 32 (fun i => inst (32 + i))),
    BitVec.ofNat 32 src, BitVec.ofNat 32 (src / 2 ^ 32), BitVec.ofNat 32 r.lastErrs,
    BitVec.ofNat 32 (min (2 ^ 32 - 1) r.lastFec)]

/-- LINE_STATUS (R76). -/
def execLineStatus (h : Hdr) (p : List Word) (s : State) : Out :=
  let n := pf p 0 31 25
  let bad := !targetIs h 1 0x3F || p.length != 1 || pf p 0 24 0 != 0 || (s.port n).isNone
  .next (runCommand 0x503 h p bad false (s.pwr.mode == .slipway) [] (fun s =>
    (s, codeOk, match s.port n with
      | some c => if s.lineOn then s.lineStatus n c else List.replicate 8 0
      | none => List.replicate 8 0)) s)

/-! ## Frames received (R47, R54, R55) -/

/-- FRAME_RECEIVE (R47, R54, R55): `units` have passed on the channel since the last position. -/
def execFrameReceive (chan : Fin 4096) (units : Nat) (frame : List Byte) (s : State) : Out :=
  match s.portList.find? (fun x => x.2.channels.contains chan.val) with
  | none => .next s
  | some (p, c) =>
    if !s.lineOn || !c.up || s.portStops p c || (s.portRun p).seek.contains (.clientLock chan) then .next s
    else
      let pos := s.chanPos chan + units
      let s := s.putPos chan pos
      if frame.length < 64 then .next (s.bump 0 p 2 1)
      else if c.maxFrame < frame.length then .next (s.bump 0 p 3 1)
      else if be16 frame 12 = 0x8808 then .next (s.bump 0 p 4 1)
      else .next (s.handIn
        { port := p, chan, manifest := BitVec.ofNat 48 pos, time := s.now,
          bad := frame != withFcs (frame.take (frame.length - 4)) false, origin := none, bytes := frame })

/-! ## Frames sent (R81, R82, R317, R387) -/

/-- The transmitters of a port node are driven (R99, R317, R322). -/
def State.drives (s : State) (node : Nat) : Bool :=
  !s.silent || (144 ≤ node && ((s.span (node - 144)).map (·.prot)).getD false)

/-- The line port that a capture names: the node's own, a FlexE group's lowest, a Span group's carrier 0. -/
def State.nodePort (s : State) (node : Nat) : Nat :=
  if node < 128 then node
  else if node < 144 then ((s.flexe (node - 128)).head?.map (·.1)).getD 0
  else (((s.span (node - 144)).bind (fun c => c.carriers.head?)).map (·.port)).getD 0

/-- Offset of the UDP checksum of a frame, if it carries UDP in an unfragmented IPv4 or an IPv6 header, and whether
it is IPv6. -/
def udpSum (f : List Byte) : Option (Nat × Bool) :=
  match (walk f).ip with
  | some (o, true) => if byteAt f (o + 6) = 17 then some (o + 46, true) else none
  | some (o, false) =>
    if byteAt f (o + 9) = 17 && be16 f (o + 6) % 8192 = 0 then some (o + byteAt f o % 16 * 4 + 6, false) else none
  | none => none

/-- The frame with `new` at offset `o` and the UDP checksum updated by the difference (R387). -/
def stampAt (f : List Byte) (o : Nat) (new : List Byte) : List Byte :=
  let g := splice f o new.length new
  match udpSum f with
  | none => g
  | some (c, v6) =>
    let old := be16 f c
    if old = 0 && !v6 then g
    else
      let even (l : List Byte) : List Byte := if o % 2 = 1 then 0 :: l else l
      let sum := (65535 - old) + (65535 - onesSum (even (bytesAt f o new.length))) + onesSum (even new)
      let fold := (sum % 65536 + sum / 65536) % 65536 + (sum % 65536 + sum / 65536) / 65536
      let v := 65535 - fold
      splice g c 2 (beBytes 2 (if v = 0 then 65535 else v))

/-- The time-stamp action of a frame (R387): its bytes without the FCS, and the state. -/
def State.tsAction (s : State) (node : Nat) (e : EgInfo) (f : List Byte) : List Byte × State :=
  let o := bits e.emeta 29 22
  if s.rf 0x3F020000 30 30 = 0 then (f, s)
  else
    match bits e.emeta 31 30 with
    | 1 =>
      if 1024 ≤ s.time.fifo.length then (f, (s.bump 4 0 7 1).postOnce 0x01C 0 [d16 (s.nodePort node)])
      else (f, { s with time := { s.time with fifo := s.time.fifo ++ [⟨s.nodePort node, bits e.emeta 29 14, s.now⟩] } })
    | 2 =>
      let d := ((s.now.setWidth 32 : Word) - e.stamp).toNat
      (if f.length < o + 8 then f else stampAt f o (beBytes 8 ((beNat (bytesAt f o 8) + d * 65536) % 2 ^ 64)), s)
    | 3 =>
      let t := s.now.toNat
      (if f.length < o + 10 then f else stampAt f o (beBytes 6 (t / 10 ^ 9) ++ beBytes 4 (t % 10 ^ 9)), s)
    | _ => (f, s)

/-- The header word of a packet in a Span group's stream (R82). -/
def spanHeader (len kind : Nat) (bad : Bool) (tagCrc : BitVec 16) : Word64 :=
  let top := beBytes 6 (packNat [(14, len), (2, kind), (1, b01 bad), (15, 0)] 0 * 2 ^ 16 + tagCrc.toNat)
  BitVec.ofNat 64 (beNat top * 65536 + (crc16 top).toNat)

/-- A packet as the words of a group's stream (R81, R82). -/
def spanWords (bytes : List Byte) (bad : Bool) (tag : Option Word64) : List Word64 :=
  let n := (bytes.length + 7) / 8
  let data := (List.range n).map (fun i =>
    let c := (bytes.drop (8 * i)).take 8
    BitVec.ofNat 64 (beNat (c ++ List.replicate (8 - c.length) 0)))
  match tag with
  | some t => spanHeader bytes.length 2 bad (crc16 (beBytes 8 t.toNat)) :: t :: data
  | none => spanHeader bytes.length 1 bad 0 :: data

/-- What the framer has sent of a frame body at its end: all of it where its tail status has come; otherwise the queue slice does not
hold the rest, and the frame ends after the bytes that have been sent (R234), whose number is free (log 27). -/
def State.sentPart (s : State) (node : Nat) (e : EgInfo) (body : List Byte) : List Byte × Bool × State :=
  if e.tailIn then (body, e.stomp, s)
  else
    let (v, s) := s.draw
    (body.take (v.toNat % body.length), true, (s.bump 1 node 13 1).postOnce 0x110 0 [d16 node])

/-- The framer begins a frame whose tail status has not come: a status that arrives now finds its first byte sent (R232). -/
def State.beginFrame (s : State) (node : Nat) (e : EgInfo) (f : List Byte) (r : List (List Byte × EgInfo)) : State :=
  let (body, s) := s.tsAction node e (f.take (f.length - 4))
  s.setEng { s.fd.eng with tx := tset nil0 s.fd.eng.tx node ((withFcs body false, { e with begun := true }) :: r) }

/-- EGRESS_FRAME_TRANSMIT (R81, R232 to R234, R387): the framer sends the frame at the head of a port node. One whose tail status has
not come begins, and ends at the next row: whole, or cut where the rest is not held. -/
def execEgressFrameTransmit (node : Fin 176) (s : State) : Out :=
  match tget nil0 s.fd.eng.tx node with
  | [] => .next s
  | (f, e) :: r =>
    if !e.tailIn && !e.begun then .next (s.beginFrame node e f r)
    else
    let s := (s.setEng { s.fd.eng with tx := tset nil0 s.fd.eng.tx node r }).unsend node f.length
    let body := f.take (f.length - 4)
    let (body, s) := if e.begun then (body, s) else s.tsAction node e body
    let (body, stomp, s) := s.sentPart node e body
    let f := withFcs body stomp
    let s := if s.drives node then s.setEng { s.fd.eng with sent := tset nil0 s.fd.eng.sent node f } else s
    if node.val < 144 then .next s
    else
      let g := node.val - 144
      match s.span g with
      | none => .next s
      | some c =>
        let tag : Option Word64 := if c.prot then some (BitVec.ofNat 64 (e.orgSrc * 2 ^ 48 + e.orgMan.toNat)) else none
        let run := s.spanRun g
        .next ((s.putSpanRun g { run with txWords := run.txWords ++ spanWords f (stomp && !e.begun) tag }).bump 3 g 5 1)

end Sys2Proof.Machine
end

