-- ==== Sys2Proof/Machine/Span.lean ====
section
/-! DEFINITION. Span groups: instances as received and sent, justification, deskew, delineation, the capacity handshake
and the group's configuration (R69 to R71, R77 to R101). -/

namespace Sys2Proof.Machine

/-! ## Group and instances -/

/-- An instance as sent. -/
def State.tx (s : State) (p i : Nat) : TxInst := tget (fun _ => default) s.line.txs (p * 64 + i)
def State.putTx (s : State) (p i : Nat) (x : TxInst) : State :=
  s.setLine { s.line with txs := tset (fun _ => default) s.line.txs (p * 64 + i) x }

/-- Puts a committed group. -/
def State.setSpan (s : State) (g : Nat) (c : Option SpanCfg) : State :=
  { s with cfg := { s.cfg with spans := tset (fun _ => none) s.cfg.spans g c } }

/-- The transmit calendar: port and instance of each entry (R80). -/
def SpanCfg.txCal (c : SpanCfg) : List (Nat × Nat) :=
  c.carriers.flatMap (fun x => (List.range x.tx).map (fun i => (x.port, i)))

/-- Counts of a group by carrier. -/
def SpanCfg.txCounts (c : SpanCfg) : List Nat := c.carriers.map (·.tx)
def SpanCfg.rxCounts (c : SpanCfg) : List Nat := c.carriers.map (·.rx)

/-- Carriers with new counts in one direction. -/
def SpanCfg.withTx (c : SpanCfg) (l : List Nat) : SpanCfg :=
  { c with carriers := (c.carriers.zip l).map (fun x => { x.1 with tx := x.2 }) }
def SpanCfg.withRx (c : SpanCfg) (l : List Nat) : SpanCfg :=
  { c with carriers := (c.carriers.zip l).map (fun x => { x.1 with rx := x.2 }) }

/-! ## The capacity handshake (R92 to R95, R99) -/

/-- The payload of a TTYPE 9 frame with one record (R335). -/
def shakeRecord (g step seq : Nat) (new : List Nat) (sfc : Nat) (t : Word64) : List Byte :=
  [BitVec.ofNat 8 g, BitVec.ofNat 8 step, BitVec.ofNat 8 seq, 0]
    ++ (List.range 16).map (fun i => BitVec.ofNat 8 (new.getD i 0)) ++ beBytes 2 sfc ++ [0, 0] ++ beBytes 8 t.toNat

/-- A step of a transmit handshake goes to the standby, for a group with PROT = 0 (R337). -/
def State.shakeStep (s : State) (g step : Nat) : State :=
  match s.span g with
  | some c =>
    let k := (s.spanRun g).txShake
    if c.prot || !s.pair.formed || !s.pair.act then s
    else s.tetherPut 9 (shakeRecord g step k.seq (if k.new.isEmpty then c.txCounts else k.new)
      (if step = 3 || step = 4 then k.sfc else 0) s.now)
  | none => s

/-- Instances of a group that its transmit calendar does not hold send idle (R58, R94, R95). -/
def State.idleRest (s : State) (g : Nat) : State :=
  match s.span g with
  | some c => c.carriers.foldl (fun s k => (List.range 64).foldl (fun s i => if k.tx ≤ i then s.putTx k.port i default else s) s) s
  | none => s

/-- A transmit handshake ends without its switch (R95). -/
def State.shakeDrop (s : State) (g : Nat) : State :=
  let r := s.spanRun g
  (s.putSpanRun g { r with txShake := { r.txShake with ph := 0, new := [], old := [] } }).idleRest g

/-- A transmit request ends without its switch (R95). -/
def State.shakeFail (s : State) (g why : Nat) : State := ((s.shakeStep g 5).shakeDrop g).post 0x065 [d16 why]

/-- The standby follows a group's handshakes instead of running them (R99). -/
def State.spanFollows (s : State) (c : SpanCfg) : Bool := s.pwr.mode == .standby && !c.prot

/-- The first multiframe that begins at least 8 frames after the next frame of carrier 0 (R94). -/
def TxInst.switchAt (t : TxInst) : Nat := (t.sf + (if 8 ≤ 256 - t.mf then 1 else 2)) % 65536

/-- The transmitting side sees the answers of the far end (R94, R95). -/
def State.shakeTx (s : State) (g : Nat) (c : SpanCfg) : State :=
  let r := s.spanRun g
  let k := r.txShake
  let insts := c.rxCal.map (fun e => s.inst e.2.1 e.2.2)
  if k.ph ≠ 1 || s.spanFollows c then s
  else
    match insts.find? (fun x => x.rcmd.getD 0 0 == 2 && x.rcmd.getD 1 99 == k.seq && 3 ≤ x.rcmd.getD 3 0) with
    | some x => s.shakeFail g (beNat ((x.oh.drop 16).take 1))
    | none =>
      if insts.all (fun x => x.rcmd.getD 0 0 == 1 && x.rcmd.getD 1 99 == k.seq && x.rcmd.getD 2 0 == k.new.sum
          && 3 ≤ x.rcmd.getD 3 0) then
        let s := s.shakeStep g 2
        let t := s.tx ((c.carriers.head?.map (·.port)).getD 0) 0
        (s.putSpanRun g { r with txShake := { k with ph := 2, sfc := t.switchAt } }).shakeStep g 3
      else s

/-- A request that every instance in service carries: its sequence and its new counts, or the reason to refuse it
(R92, R94). -/
def State.requestOf (s : State) (c : SpanCfg) (seq : Nat) : Option (List Nat × Nat) :=
  let ready := c.rxCal.all (fun e =>
    let f := (s.inst e.2.1 e.2.2).fcmd
    f.getD 0 0 == 1 && f.getD 1 99 == seq && 3 ≤ f.getD 3 0)
  if !ready then none
  else
    let new := c.carriers.map (fun k => (s.inst k.port 0).fcmd.getD 2 0)
    let differs := c.rxCal.any (fun e => (s.inst e.2.1 e.2.2).fcmd.getD 2 0 != new.getD e.1 0)
    let tooMany := (c.carriers.zip new).any (fun x => x.1.maxInst < x.2)
    let missing := (c.carriers.zip new).any (fun x =>
      (List.range x.2).any (fun i => x.1.rx ≤ i && !(s.inst x.1.port i).acc))
    let old := c.rxCal.any (fun e => 64 ≤ (s.inst e.2.1 e.2.2).fcmd.getD 3 0)
    if !c.up then some (new, 4)
    else if differs then some (new, 3)
    else if tooMany then some (new, 1)
    else if !missing then some (new, 0)
    else if old then some (new, 2)
    else none

/-- The receiving side sees the fields of one good frame of an instance in service (R94, R95). -/
def State.shakeRx (s : State) (g : Nat) (c : SpanCfg) (f : List Nat) (sfc : Nat) : State :=
  let r := s.spanRun g
  let k := r.rxShake
  let cmd := f.getD 0 0
  let seq := f.getD 1 0
  let put (k : Shake) (why : Nat) : State := s.putSpanRun g { r with rxShake := k, nakWhy := why }
  if cmd = 2 && (k.ph = 1 || k.ph = 2) && seq = k.seq then put { k with ph := 3, sfc } 0
  else if cmd = 0 && 3 ≤ f.getD 3 0 && (k.ph = 1 || k.ph = 2 || r.nakWhy ≠ 0) then put { k with ph := 0, new := [], old := [] } 0
  else if cmd = 1 && ((k.ph ≠ 0 && k.ph ≠ 3) || r.nakWhy ≠ 0) && seq ≠ k.seq then put { k with ph := 0, new := [], old := [] } 0
  else if cmd = 1 && k.ph = 0 && r.nakWhy = 0 then
    match s.requestOf c seq with
    | some (new, 0) => put { k with ph := 1, seq, new, old := c.rxCounts } 0
    | some (_, why) => put { k with seq } why
    | none => s
  else s

/-! ## One instance frame (R69 to R71, R85 to R90, R97) -/

/-- The run of a field's values in good frames: its values and how often in a row. DEDUCED (log 104): a good frame whose FCMD or
RCMD is the reserved value carries no command, so it ends a run of consecutive frames that carry one (`instOverhead`). -/
def runOf (old : List Nat) (v : List Nat) : List Nat := v ++ [if old.take v.length == v then old.getD v.length 0 + 1 else 1]

/-- The action of a justification code (R85); none for the reserved one. -/
def justOf : Nat → Option Int
  | 0 => some 0 | 1 => some 1 | 2 => some (-1) | _ => none

/-- The action of the frame at hand (R87): from JNEXT of the frame before, else from the two counts. -/
def Inst.action (x : Inst) (jcnt : Option Nat) : Option Int :=
  match x.jnext1 with
  | some k => justOf k
  | none =>
    match jcnt, x.jcnt2, x.jnext2.bind justOf with
    | some a, some b, some j =>
      let d : Int := (((a + 512 - b) % 256 : Nat) : Int)
      let d := (if 128 ≤ d then d - 256 else d) - j
      if -1 ≤ d && d ≤ 1 then some d else none
    | _, _, _ => none

/-- The payload bytes of a descrambled frame with an action (R85). -/
def payloadOf (f : List Byte) (j : Int) : List Byte :=
  if j = 1 then (f.drop 19).take 1 ++ f.drop 64 else if j = -1 then f.drop 65 else f.drop 64

/-- Whole blocks of a byte stream with their numbers, and what is left: its number, its bytes and the number after it; `step` gives
the number after one. -/
def cutBlocks (step : Nat → Nat) : Nat → Nat → Nat → List Byte → List (Nat × List Byte) → List (Nat × List Byte) × Nat × List Byte × Nat
  | 0, cur, next, b, l => (l, cur, b, next)
  | n + 1, cur, next, b, l =>
    if b.length < 32 then (l, cur, b, next)
    else cutBlocks step n next (step next) (b.drop 32) (l ++ [(cur, b.take 32)])

/-- The place of an instance in the receive calendar (R80). -/
def SpanCfg.entry (c : SpanCfg) (p i : Nat) : Option Nat := c.rxCal.findIdx? (fun y => y.2.1 == p && y.2.2 == i)

/-- The number of no block: block numbers run modulo 2^64 (R80). -/
def noBlock : Nat := 2 ^ 64

/-- The number of the block that follows block `n` on an instance: one calendar cycle on, over the border of two epochs by its
place in either; none follows on an instance that the new calendar leaves out (R80, R94). -/
def State.blockStep (s : State) (g : Nat) (c : SpanCfg) (p i n : Nat) : Nat :=
  let r := s.spanRun g
  let here := match c.entry p i with
    | some _ => n + c.krx
    | none => if r.rxShake.new.isEmpty then n + c.krx else n + r.rxShake.new.sum
  match r.rxOld with
  | none => here
  | some (_, l) =>
    if r.rxEpoch ≤ n || ((c.withRx l).entry p i).isNone then here
    else if n + (c.withRx l).krx < r.rxEpoch then n + (c.withRx l).krx
    else match c.entry p i with
      | some e => r.rxEpoch + e
      | none => noBlock

/-- An instance's payload belongs to the group's stream: it stands in the receive calendar or in the one about to begin, or
it has still blocks of the one before (R94). -/
def State.inStream (s : State) (g ci : Nat) (c : SpanCfg) (p i : Nat) : Bool :=
  let r := s.spanRun g
  let x := s.inst p i
  (c.entry p i).isSome || Decidable.decide (i < r.rxShake.new.getD ci 0)
    || (match r.rxOld with
      | some (_, l) => i < l.getD ci 0 && ((x.inBlock && Decidable.decide (x.curG < r.rxEpoch)) || (x.nextG.map (Decidable.decide <| · < r.rxEpoch)).getD false)
      | none => false)

/-- The skew's measurement ends: the spread of the delivery times, with the carriers of the latest and of the earliest (R90). -/
def State.skewClose (s : State) (g : Nat) : State :=
  let r := s.spanRun g
  match r.skewSeen.map (·.2.2) with
  | [] => s.putSpanRun g { r with skewOf := none, skewSeen := [] }
  | t :: ts =>
    let lo := ts.foldl min t
    let hi := ts.foldl max t
    let ci (t : Nat) : Nat := ((r.skewSeen.find? (·.2.2 == t)).map (·.2.1)).getD 0
    s.putSpanRun g { r with skew := hi - lo, latest := ci hi, earliest := ci lo, skewOf := none, skewSeen := [] }

/-- Blocks that an instance delivers take part in the skew's measurement, which ends when every instance in service that is not lost
has delivered (R90). -/
def State.skewTake (s : State) (g ci : Nat) (bs : List (Nat × List Byte)) : State :=
  match s.span g, (s.spanRun g).skewOf with
  | some c, some m =>
    let r := s.spanRun g
    let new := (bs.filter (fun b => m ≤ b.1 && b.1 < m + c.krx)).map (fun b => (b.1 - m, ci, s.mono))
    if new.isEmpty then s
    else
      let seen := r.skewSeen ++ new
      let s := s.putSpanRun g { r with skewSeen := seen }
      if ((List.range c.krx).zip c.rxCal).all (fun (e : Nat × Nat × Nat × Nat) => seen.any (fun y => y.1 == e.1) || s.instLost g e.2.1 e.2.2.1 e.2.2.2) then s.skewClose g
      else s
  | _, _ => s

/-- The first frame of a multiframe on entry 0 begins the multiframe's measurement of the skew (R90): DESIGN CHOICE (log 105), over
the first calendar cycle of which no instance has delivered a block; one that lasts beyond what SKEW can show ends there. -/
def State.skewBegin (s : State) (g : Nat) (c : SpanCfg) : State :=
  let r := s.spanRun g
  let s := match r.skewSeen.head? with
    | some x => if x.2.2 + 6553500 ≤ s.mono then
        (s.putSpanRun g { r with skewSeen := r.skewSeen ++
          ((((List.range c.krx).zip c.rxCal).filter (fun (e : Nat × Nat × Nat × Nat) => !r.skewSeen.any (fun y => y.1 == e.1))).map (fun (e : Nat × Nat × Nat × Nat) => (e.1, e.2.1, s.mono))) }).skewClose g
      else s
    | none => s.putSpanRun g { r with skewOf := none }
  let r := s.spanRun g
  if r.skewOf.isSome then s
  else
    let top := (c.rxCal.filterMap (fun (e : Nat × Nat × Nat) => (s.inst e.2.1 e.2.2).nextG)).foldl max r.rxEpoch
    s.putSpanRun g { r with skewOf := some (r.rxEpoch + roundUp (top - r.rxEpoch) c.krx), skewSeen := [] }

/-- The delivery of an instance's whole blocks to its deskew FIFO; one behind the reader is late: dGSKW (R89, R97). -/
def State.deskew (s : State) (g ci p i : Nat) (bs : List (Nat × List Byte)) : State :=
  let bs := bs.filter (·.1 < noBlock)
  let s := s.skewTake g ci bs
  let r := s.spanRun g
  let late := r.reading && bs.any (·.1 < r.rdG)
  let x := s.inst p i
  let s := s.putInst p i { x with
    fifo := x.fifo ++ (bs.filter (fun b => !r.reading || r.rdG ≤ b.1)).map (fun b => ⟨b.1, b.2, s.mono⟩) }
  if !late then s
  else
    let s := s.putSpanRun g { r with gskw := true, skewRun := 0 }
    let s := if r.gskw then s else (s.post 0x062 []).hwBit (skewAddr g) 2
    s.gpartIn g

/-- An instance stops reading blocks until a good frame gives their place. -/
def Inst.unplaced (x : Inst) : Inst :=
  { x with part := [], inBlock := false, nextG := none, firstG := none, ptr := none, ptrBad := 0, gposBad := 0 }

/-- An instance whose last block has come has no place in the stream (R94). -/
def Inst.leaves (x : Inst) : Inst :=
  if (x.inBlock && noBlock ≤ x.curG) || (!x.inBlock && Decidable.decide (x.nextG = some noBlock)) then x.unplaced else x

/-- The payload of an accepted instance's frame: `f` descrambled, `ok` its OHCRC, `j` its action (R81, R87, R96). -/
def State.instPayload (s : State) (g ci p i : Nat) (c : SpanCfg) (f : List Byte) (ok : Bool) (j : Option Int) : State :=
  let x := s.inst p i
  let step := s.blockStep g c p i
  let gpos := beNat ((f.drop 28).take 8)
  let ptr := beNat ((f.drop 18).take 1) % 32
  let place (x : Inst) (pay : List Byte) (s : State) : State :=
    let (bs, cur, rest, next) := cutBlocks step 520 gpos (step gpos) (pay.drop ptr) []
    let s := s.putInst p i { x with part := rest, inBlock := !rest.isEmpty, curG := cur, nextG := some (if rest.isEmpty then cur else next),
                                    firstG := some gpos, gposBad := 0, ptrBad := 0 }.leaves
    s.deskew g ci p i bs
  if s.instLost g ci p i then s.putInst p i x.unplaced
  else
    match j, x.nextG with
    | none, none => s
    | none, some _ => (s.putInst p i x.unplaced).post 0x067 []
    | some j, none => if ok && gpos ≠ 2 ^ 64 - 1 then place x (payloadOf f j) s else s
    | some j, some ng =>
      let pay := payloadOf f j
      let want := (32 - x.part.length) % 32
      let ptrBad := if ok then (if ptr = want then 0 else x.ptrBad + 1) else x.ptrBad
      let gposBad := if ok then (if gpos = ng then 0 else x.gposBad + 1) else x.gposBad
      if 3 ≤ ptrBad then (s.putInst p i x.unplaced).post 0x067 []
      else if 3 ≤ gposBad then place x pay (s.post 0x068 [])
      else
        let (bs, cur, rest, next) := if x.inBlock then cutBlocks step 520 x.curG ng (x.part ++ pay) []
          else cutBlocks step 520 ng (step ng) (x.part ++ pay) []
        let s := s.putInst p i { x with part := rest, inBlock := !rest.isEmpty, curG := cur,
                                        nextG := some (if rest.isEmpty then cur else next), firstG := some ng, ptrBad, gposBad }.leaves
        s.deskew g ci p i bs

/-- dBDI of a carrier (R72): entry on 5 frames of any instance, exit on 5 frames of every one. -/
def State.bdiJudge (s : State) (p : Nat) (n : Nat) : State :=
  let r := s.portRun p
  let l := (List.range n).map (fun i => s.inst p i)
  if !r.bdi && l.any (fun x => 5 ≤ x.bdiOn) then (s.putPortRun p { r with bdi := true }).defectIn p 12 0x044
  else if r.bdi && l.all (fun x => 5 ≤ x.bdiOff) then (s.putPortRun p { r with bdi := false }).post 0x054 []
  else s

/-- dIID of an instance (R71). -/
def State.iidJudge (s : State) (p i : Nat) (same : Bool) : State :=
  let x := s.inst p i
  let x := if same then { x with idGood := x.idGood + 1, idBad := 0 } else { x with idBad := x.idBad + 1, idGood := 0 }
  if !x.iid && 3 ≤ x.idBad then (s.putInst p i { x with iid := true }).defectIn p 11 0x043
  else if x.iid && 3 ≤ x.idGood then (s.putInst p i { x with iid := false }).post 0x053 []
  else s.putInst p i x

/-- dGCAL of a carrier (R97): ICOUNT against the receive calendar, outside a running handshake. -/
def State.gcalJudge (s : State) (g ci p i : Nat) (same : Bool) : State :=
  let r := s.spanRun g
  if r.rxShake.ph ≠ 0 then s
  else
    let x := s.inst p i
    let x := if same then { x with calGood := x.calGood + 1, calBad := 0 } else { x with calBad := x.calBad + 1, calGood := 0 }
    let s := s.putInst p i x
    let on := r.gcal.getLsbD ci
    let put (b : Bool) (s : State) : State := s.putSpanRun g { r with gcal := putBits r.gcal ci ci (b01 b) }
    if !on && 3 ≤ x.calBad then ((put true s).post 0x063 []).hwBit (skewAddr g) 3
    else if on && 3 ≤ x.calGood then (put false s).post 0x073 []
    else s

/-- The overhead of a good frame of an accepted instance: BIP, identity, BACK, ICOUNT and RESIZE (R64, R71 to R73, R92,
R97). -/
def State.instOverhead (s : State) (g ci p i w : Nat) (c : SpanCfg) (k : Carrier) (f : List Byte) : State :=
  let at_ (n m : Nat) : Nat := beNat ((f.drop n).take m)
  let x := s.inst p i
  let cnt := match x.bip with | some b => diffBits b (BitVec.ofNat 16 (at_ 13 2)) | none => 0
  let r := s.portRun p
  let s := if i < k.rx then s.putPortRun p { r with errs := r.errs + b01 (0 < cnt) } else s
  let bdi := at_ 15 1 / 4 % 2 == 1
  let fcmd := if at_ 20 1 / 64 = 3 then [] else runOf x.fcmd [at_ 20 1 / 64, at_ 20 1 % 16, at_ 21 1 % 128]
  let rcmd := if at_ 24 1 / 64 = 3 then [] else runOf x.rcmd [at_ 24 1 / 64, at_ 24 1 % 16, at_ 26 2 % 2048]
  let s := s.putInst p i { x with
    bei := cnt, oh := (f.drop 9).take 51, fcmd, rcmd
    bdiOn := if bdi then x.bdiOn + 1 else 0, bdiOff := if bdi then 0 else x.bdiOff + 1 }
  let same := at_ 9 1 % 32 == c.rxGid && at_ 10 1 % 16 == ci && at_ 10 1 / 32 == i / w && at_ 11 1 % 64 == i
  let s := s.iidJudge p i same
  if k.rx ≤ i then s
  else
    let s := s.bdiJudge p k.rx
    let s := s.gcalJudge g ci p i (at_ 12 1 % 128 == k.rx)
    (s.shakeRx g c fcmd (at_ 22 2)).shakeTx g c

/-- An instance whose check runs (R67, R69). -/
def Inst.check (x : Inst) (exact : Bool) (mf sf : Nat) : Inst :=
  if !exact then { x with fas := 0, run := 0 }
  else
    let run := if x.run ≠ 0 && mf = x.mf && sf = x.sf then x.run + 1 else 1
    let n := (mf + 1) % 256
    { x with fas := x.fas + 1, run, mf := n, sf := if n = 0 then (sf + 1) % 65536 else sf, acc := 3 ≤ x.fas + 1 && 4 ≤ run,
             clean := 0 }

/-- Loss of multiframe of an accepted instance (R70): the instance with its next expected numbers, whether the defect
enters (1) or clears (2), and the numbers by which the frame is descrambled: its own MFAS, and its SFC, or the expected one
where MFAS is consistent (R62, R70). DESIGN CHOICE (log 102): the frame that enters the defect counts as the first of the
4 consistent frames that clear it. -/
def Inst.multi (x : Inst) (mf sf : Nat) : Inst × Nat × Nat × Nat :=
  let next (x : Inst) (m f : Nat) : Inst :=
    let n := (m + 1) % 256
    { x with mf := n, sf := if n = 0 then (f + 1) % 65536 else f }
  if x.lom then
    let good := if mf = x.mf then x.mfGood + 1 else 1
    if 4 ≤ good then (next { x with lom := false, mfBad := 0, mfGood := 0 } mf sf, 2, mf, sf)
    else (next { x with mfGood := good } mf sf, 0, mf, sf)
  else if mf = x.mf then (next { x with mfBad := 0 } x.mf x.sf, 0, x.mf, x.sf)
  else if x.mfBad + 1 < 5 then (next { x with mfBad := x.mfBad + 1 } x.mf x.sf, 0, mf, sf)
  else (next { x with lom := true, mfBad := 0, mfGood := 1 } mf sf, 1, mf, sf)

/-- A group's frame clock: the run toward the exit of dGSKW (R97). -/
def State.skewFrame (s : State) (g : Nat) (c : SpanCfg) : State :=
  let r := s.spanRun g
  let n := if r.skew ≤ c.maxSkew * 100 then r.skewRun + 1 else 0
  if r.gskw && 256 ≤ n then (s.putSpanRun g { r with gskw := false, skewRun := n }).post 0x072 []
  else s.putSpanRun g { r with skewRun := min 256 n }

/-- SPAN_INSTANCE_FRAME_RECEIVE (R69 to R71, R87): one frame of 16,384 bytes, as received, in the slot of an instance. -/
def execSpanInstanceFrameReceive (port : Fin 128) (inst : Fin 64) (frame : List Byte) (s : State) : Out :=
  match s.port port with
  | none => .next s
  | some pc =>
    let w := pc.lanes
    let p := port.val
    let i := inst.val
    let fsm := (s.lane (p + i % w)).fsm
    if !s.lineOn || pc.type ≠ 4 || !pc.up || 8 * w ≤ i || frame.length ≠ 16384 || !(fsm == .inFrame || fsm == .flywheel) then .next s
    else
      let x := s.inst p i
      let seen : BitVec 48 := BitVec.ofNat 48 (beNat (frame.take 6))
      let mf := beNat ((frame.drop 6).take 1)
      let sf := beNat ((frame.drop 7).take 2)
      if !x.acc then .next (s.putInst p i (x.check (seen == fasPattern) mf sf))
      else
        let far := 2 < diffBits seen fasPattern
        if far && 5 ≤ x.fasBad + 1 then .next ((s.putInst p i x.restart).lofIn p i)
        else
          let x := { x with fasBad := if far then x.fasBad + 1 else 0 }
          let sfcErr := !x.lom && mf == x.mf && sf != x.sf
          let (x, ev, um, us) := x.multi mf sf
          let s := s.putInst p i x
          let s := if sfcErr then s.bump 0 p 5 1 else s
          let s := if ev = 1 then
              (if i < s.rxCount p then (s.defectIn p 10 0x042).markStop p else s.defectIn p 10 0x042)
            else if ev = 2 then s.post 0x052 [] else s
          let f := unscramble um us frame
          let ok := ohOk f
          let jcnt := if ok then some (beNat ((f.drop 17).take 1)) else none
          let j := x.action jcnt
          match s.carrierOf p with
          | none => .next (s.putInst p i { s.inst p i with bip := some (xorWords (frame.drop 6)) })
          | some (g, ci, c, k) =>
            let s := if ok then s.instOverhead g ci p i w c k f else s
            let s := (if s.inStream g ci c p i then s.instPayload g ci p i c f ok j else s).groupJudge g
            let x := s.inst p i
            let s := s.putInst p i { x with
              bip := some (xorWords (frame.drop 6)), jnext2 := x.jnext1, jcnt2 := x.jcnt1, jcnt1 := jcnt
              jnext1 := if ok then some (beNat ((f.drop 16).take 1) / 64) else none }
            .next (if ci = 0 && i = 0 then (if um = 0 then s.skewBegin g c else s).skewFrame g c else s)

/-! ## The deskew reader (R90) -/

/-- The delivery times of one calendar cycle: by entry, its carrier and the time, if its block has come. -/
def State.cycleTimes (s : State) (c : SpanCfg) (start : Nat) : List (Nat × Option Nat) :=
  let cal := c.rxCal
  ((List.range cal.length).zip cal).map (fun e =>
    (e.2.1, ((s.inst e.2.2.1 e.2.2.2).fifo.find? (·.g == start + e.1)).map (·.time)))

/-- The reader finds its place: a cycle that begins at or after the first block of every accepted instance. -/
def State.findPlace (s : State) (g : Nat) (c : SpanCfg) : State :=
  let cal := c.rxCal
  let k := cal.length
  let firsts := ((List.range k).zip cal).filterMap (fun e =>
    ((s.inst e.2.2.1 e.2.2.2).fifo.head?).map (fun b => (e.1, b.g)))
  match firsts with
  | [] => s
  | (e, b) :: _ =>
    let phase := (b + k - e) % k
    let top := (firsts.map (·.2)).foldl max 0
    let start := top + (phase + k - top % k) % k
    s.putSpanRun g { s.spanRun g with
      reading := true, rxEpoch := start, rxOld := none, rdG := start, words := [], wordPos := 4 * start, delin := .hunt, pkt := none
      back := [], skip := 0, valids := 0, delinAt := s.mono }

/-- The block that a group reads from entry `e` of its calendar at the read time (R90): none where it has not come by then. -/
def State.blockAt (s : State) (g : Nat) (c : SpanCfg) (e at_ : Nat) : Option FifoBlock :=
  match c.rxCal[e]? with
  | some x => ((s.inst x.2.1 x.2.2).fifo.find? (·.g == (s.spanRun g).rdG)).filter (fun b => b.time ≤ at_)
  | none => none

/-- The four words of a block join the group's stream, lost ones where the block is lost (R90, R97). -/
def State.takeBlock (s : State) (g : Nat) (blk : Option FifoBlock) : State :=
  let r := s.spanRun g
  let ws : List (Option Word64) := match blk with
    | some b => (List.range 4).map (fun u => some (BitVec.ofNat 64 (beNat ((b.bytes.drop (8 * u)).take 8))))
    | none => List.replicate 4 none
  let s := s.putSpanRun g { r with rdG := r.rdG + 1, words := r.words ++ ws }
  if blk.isNone then s.gpartIn g else s

/-- The calendar and the first block of the epoch from which a group reads its next block (R80, R94). -/
def State.readCal (s : State) (g : Nat) (c : SpanCfg) : SpanCfg × Nat :=
  let r := s.spanRun g
  match r.rxOld with
  | some (b, l) => if r.rdG < r.rxEpoch then (c.withRx l, b) else (c, r.rxEpoch)
  | none => (c, r.rxEpoch)

/-- The earliest delivery among the blocks of later cycles than the one that ends before block `n`. -/
def State.laterTime (s : State) (c : SpanCfg) (n : Nat) : Option Nat :=
  (c.rxCal.flatMap (fun e => ((s.inst e.2.1 e.2.2).fifo.filter (n ≤ ·.g)).map (·.time))).foldl
    (fun a t => some (match a with | some b => min b t | none => t)) none

/-- The end of a calendar cycle: the blocks read go. -/
def State.endCycle (s : State) (g : Nat) (c : SpanCfg) : State :=
  c.rxCal.foldl (fun s x =>
    let y := s.inst x.2.1 x.2.2
    s.putInst x.2.1 x.2.2 { y with fifo := y.fifo.filter (fun b => (s.spanRun g).rdG ≤ b.g) }) s

/-- When a group reads (R90): 9.24 µs after the last block of the cycle where all came within the allowed skew, and else that skew
after the first. -/
def readTime (c : SpanCfg) (got : List Nat) (lo hi : Nat) : Nat :=
  (if got.length = c.krx then min hi (lo + c.maxSkew * 100) else lo + c.maxSkew * 100) + 9240

/-- SPAN_BLOCK_READ (R90): the next block at its read time, or its loss. DESIGN CHOICE (log 105): of a cycle of which no block has
come, every block is lost 9.24 µs after the first delivery of a later cycle. -/
def execSpanBlockRead (g : Fin 32) (s : State) : Out :=
  match s.span g with
  | none => .next s
  | some c =>
    let s := if (s.spanRun g).reading then s else s.findPlace g c
    let r := s.spanRun g
    let (c', first) := s.readCal g c
    let e := (r.rdG - first) % c'.krx
    match (s.cycleTimes c' (r.rdG - e)).filterMap (·.2) with
    | [] =>
      match s.laterTime c (r.rdG - e + c'.krx) with
      | some t => .next (if r.reading && t + 9240 ≤ s.mono then s.takeBlock g none else s)
      | none => .next s
    | t :: ts =>
      let at_ := readTime c' (t :: ts) (ts.foldl min t) (ts.foldl max t)
      if !r.reading || s.mono < at_ then .next s
      else
        let s := s.takeBlock g (s.blockAt g c' e at_)
        .next (if e + 1 < c'.krx then s else s.endCycle g c')

/-- A valid header word (R83). -/
def headerOk (w : Word64) : Bool :=
  crc16 (beBytes 6 (w.toNat / 65536)) == w.extractLsb' 0 16 && bits w 49 48 != 3 && (bits w 63 50 == 0) == (bits w 49 48 == 0)

/-- Words that follow a header (R81). -/
def headerExtra (w : Word64) : Nat := (bits w 63 50 + 7) / 8 + (if bits w 49 48 = 2 then 1 else 0)

/-- The two groups that name each other form a couple (R100). -/
def State.coupled (s : State) (g : Nat) (c : SpanCfg) : Bool :=
  c.couple && (match s.span c.partner with | some d => d.couple && d.partner == g | none => false)

/-- A whole packet of a group (R54, R83, R84, R100). DESIGN CHOICE (log 106): a couple's packet that carries no origin tag
takes its stream position for its manifest number. -/
def State.spanDeliver (s : State) (g : Nat) (c : SpanCfg) (k : SpanPkt) : State :=
  let port := (c.carriers.head?.map (·.port)).getD 0
  let len := bits k.head 63 50
  let tagged := bits k.head 49 48 = 2
  let bytes := k.bytes.take len
  let low := min g c.partner
  let pair := s.coupled g c
  let quiet := pair && s.pwr.mode == .standalone && (if g = low then false else !(s.spanRun low).glos)
  if k.lost then s.bump 3 g 1 1
  else if tagged && crc16 (beBytes 8 k.tag.toNat) ≠ k.head.extractLsb' 16 16 then s.bump 3 g 2 1
  else if c.maxFrame < len then s.bump 3 g 4 1
  else if len < 64 then s.bump 0 port 2 1
  else if (s.spanRun g).glos || quiet then s
  else
    let couple := pair && tagged
    (s.bump 3 g 0 1).handIn
      { port, chan := if pair then ((s.span low).map (·.chan)).getD c.chan else c.chan,
        manifest := if couple then k.tag.extractLsb' 0 48 else BitVec.ofNat 48 k.pos, time := s.now,
        bad := bit k.head 47 || bytes != withFcs (bytes.take (len - 4)) false,
        origin := if couple then some (k.tag.extractLsb' 48 16) else none, bytes := bytes }

/-- A word of a packet under way. -/
def SpanPkt.take (k : SpanPkt) (w : Option Word64) (pos : Nat) : SpanPkt :=
  let k := { k with due := k.due - 1, lost := k.lost || w.isNone }
  if k.tagDue then { k with tagDue := false, tag := w.getD 0 }
  else { k with bytes := k.bytes ++ beBytes 8 (w.getD 0).toNat, pos := if k.bytes.isEmpty then pos else k.pos }

/-- SPAN_WORD_RECEIVE (R83). -/
def execSpanWordReceive (g : Fin 32) (s : State) : Out :=
  match s.span g, (s.spanRun g).words with
  | some c, w :: ws =>
    let r := s.spanRun g
    let pos := r.wordPos
    let r1 := { r with words := ws, wordPos := pos + 1 }
    let ok := match w with | some v => headerOk v | none => false
    let extra := (w.map headerExtra).getD 0
    match r.delin with
    | .hunt =>
      .next (s.putSpanRun g (if ok then { r1 with delin := .presync, valids := 1, skip := extra, back := [] } else r1))
    | .presync =>
      if 0 < r.skip then .next (s.putSpanRun g { r1 with skip := r.skip - 1, back := r.back ++ [w] })
      else if !ok then
        .next (s.putSpanRun g { r with
          delin := .hunt, valids := 0, back := [], words := r.back ++ (w :: ws), wordPos := pos - r.back.length })
      else if r.valids + 1 < 3 then
        .next (s.putSpanRun g { r1 with valids := r.valids + 1, skip := extra, back := r.back ++ [w] })
      else .next (s.putSpanRun g { r1 with delin := .sync, valids := 0, skip := extra, back := [], pkt := none, delinAt := s.mono })
    | .sync =>
      if 0 < r.skip then .next (s.putSpanRun g { r1 with skip := r.skip - 1 })
      else
        match r.pkt with
        | some k =>
          let k := k.take w pos
          if 0 < k.due then .next (s.putSpanRun g { r1 with pkt := some k })
          else .next ((s.putSpanRun g { r1 with pkt := none }).spanDeliver g c k)
        | none =>
          if !ok then .next ((s.putSpanRun g { r1 with delin := .hunt, delinAt := s.mono }).bump 3 g 3 1)
          else
            match w with
            | some v => .next (s.putSpanRun g (if extra = 0 then r1 else
                { r1 with pkt := some ⟨v, extra, bits v 49 48 == 2, 0, [], false, 0⟩ }))
            | none => .next s
  | _, _ => .next s

/-! ## Group defects by time (R97) -/

/-- No instance in service of a group is lost. -/
def State.noneLost (s : State) (g : Nat) (c : SpanCfg) : Bool := !c.rxCal.any (fun e => s.instLost g e.1 e.2.1 e.2.2)

/-- DGLOS_ENTRY_TIMER (R97). -/
def execDglosEntryTimer (g : Fin 32) (s : State) : Out :=
  let r := s.spanRun g
  .next (match s.span g with
    | some c => if s.lineOn && c.up && r.delin != .sync && r.delinAt + ms 1 ≤ s.mono then s.glosIn g else s
    | none => s)

/-- DGLOS_EXIT_TIMER (R97). -/
def execDglosExitTimer (g : Fin 32) (s : State) : Out :=
  let r := s.spanRun g
  .next (match s.span g with
    | some c => if r.glos && r.delin == .sync && max r.delinAt r.clearAt + ms 10 ≤ s.mono && s.noneLost g c then
        (s.putSpanRun g { r with glos := false }).post 0x070 [] else s
    | none => s)

/-- DGPART_EXIT_TIMER (R97). -/
def execDgpartExitTimer (g : Fin 32) (s : State) : Out :=
  let r := s.spanRun g
  .next (match s.span g with
    | some c => if r.gpart && max r.lastLoss r.clearAt + ms 10 ≤ s.mono && s.noneLost g c then
        (s.putSpanRun g { r with gpart := false }).post 0x071 [] else s
    | none => s)

/-! ## Sending (R80, R81, R85, R86, R88, R99) -/

/-- The idle word of a group's stream (R82). -/
def idleWord : Word64 := spanHeader 0 0 false 0

/-- One block laid at its entry's instance. -/
def State.layAt (s : State) (c : SpanCfg) (entry g : Nat) (b : List Byte) : State :=
  match c.txCal[entry]? with
  | some (p, i) =>
    let t := s.tx p i
    s.putTx p i { t with bytes := t.bytes ++ b, starts := t.starts ++ [(g, t.bytes.length)] }
  | none => s

/-- Lays the next block of a group's stream (R80, R81). -/
def State.layBlock (s : State) (g : Nat) (c : SpanCfg) : State :=
  let r := s.spanRun g
  let ws := r.txWords.take 4
  let ws := ws ++ List.replicate (4 - ws.length) idleWord
  let s := s.putSpanRun g { r with txWords := r.txWords.drop 4, txG := r.txG + 1 }
  s.layAt c ((r.txG - r.txEpoch) % c.ktx) r.txG (ws.flatMap (fun w => beBytes 8 w.toNat))

/-- Lays blocks until an instance holds `n` bytes. -/
def State.layUntil (g : Nat) (c : SpanCfg) (p i n : Nat) : Nat → State → State
  | 0, s => s
  | k + 1, s => if n ≤ (s.tx p i).bytes.length then s else State.layUntil g c p i n k (s.layBlock g c)

/-- Lays the blocks that the calendar cycle under way lacks (R80). -/
def State.layCycle (s : State) (g : Nat) (c : SpanCfg) : State :=
  let r := s.spanRun g
  (List.range ((c.ktx - (r.txG - r.txEpoch) % c.ktx) % c.ktx)).foldl (fun s _ => s.layBlock g c) s

/-- A new calendar begins with the first block that starts in entry 0's next frame, the first of a cycle (R80, R94): blocks already laid
from it on are laid again. -/
def State.switchTx (s : State) (g : Nat) (c : SpanCfg) (new : List Nat) : State :=
  let s := s.layCycle g c
  let r := s.spanRun g
  let e0 := match c.txCal.head? with | some (p, i) => (s.tx p i).starts.head? | none => none
  let b := (e0.map (·.1)).getD r.txG
  let late := c.txCal.flatMap (fun e =>
    let t := s.tx e.1 e.2
    (t.starts.filter (fun x => b ≤ x.1)).map (fun x => (x.1, (t.bytes.drop x.2).take 32)))
  let s := c.txCal.foldl (fun s e =>
    let t := s.tx e.1 e.2
    match t.starts.find? (fun x => b ≤ x.1) with
    | some (_, o) => s.putTx e.1 e.2 { t with bytes := t.bytes.take o, starts := t.starts.filter (fun x => x.1 < b) }
    | none => s) s
  let c' := c.withTx new
  let s := s.setSpan g (some c')
  let s := s.putSpanRun g { r with txEpoch := b }
  (sortBy (·.1) late).foldl (fun s x => s.layAt c' ((x.1 - b) % c'.ktx) x.1 x.2) s

/-- BDI of a carrier (R73). -/
def State.sendsBdi (s : State) (p : Nat) (pc : PortCfg) (rx : Nat) : Bool :=
  (List.range pc.lanes).any (fun i => (s.lane (p + i)).locw)
    || (List.range rx).any (fun i => let x := s.inst p i; x.lof || x.lom || x.iid)

/-- RESIZE of a carrier's frames (R92). -/
def SpanRun.resize (r : SpanRun) (ci count : Nat) : List Byte :=
  let t := r.txShake
  let f := if t.ph = 1 then 1 else if t.ph = 2 && !t.new.isEmpty then 2 else 0
  let a := if r.nakWhy ≠ 0 then 2 else if r.rxShake.ph = 2 then 1 else 0
  [BitVec.ofNat 8 (f * 64 + t.seq), BitVec.ofNat 8 (if f = 0 then count else t.new.getD ci 0)] ++ beBytes 2 (if f = 2 then t.sfc else 0)
    ++ [BitVec.ofNat 8 (a * 64 + (if a = 0 then 0 else r.rxShake.seq)), BitVec.ofNat 8 r.nakWhy]
    ++ beBytes 2 (if a = 1 then r.rxShake.new.sum else 0)

/-- One frame of an instance: what stands in it besides its payload (R61). -/
structure FrameIn where
  g     : Nat
  ci    : Nat
  w     : Nat
  i     : Nat
  count : Nat
  bei   : Nat
  bdi   : Bool
  next  : Nat
  j     : Nat
  resize : List Byte
  inCal : Bool

/-- The frame of an instance, scrambled, and the instance after it (R61 to R64, R81, R85). -/
def TxInst.send (t : TxInst) (q : FrameIn) : TxInst :=
  let n := if q.j = 1 then 16321 else if q.j = 2 then 16319 else 16320
  let pay := t.bytes.take n
  let pay := pay ++ List.replicate (n - pay.length) 0
  let first := if q.inCal then (t.starts.head?).filter (fun x => x.2 < n) else none
  let jcnt := (t.jcnt + (if q.j = 1 then 1 else if q.j = 2 then 255 else 0)) % 256
  let head := [BitVec.ofNat 8 q.g, BitVec.ofNat 8 (q.i / q.w * 32 + q.ci), BitVec.ofNat 8 q.i, BitVec.ofNat 8 q.count]
    ++ beBytes 2 t.bip.toNat ++ [BitVec.ofNat 8 (q.bei * 8 + b01 q.bdi * 4), BitVec.ofNat 8 (q.next * 64), BitVec.ofNat 8 jcnt,
      BitVec.ofNat 8 ((first.map (·.2)).getD 0 % 32), if q.j = 1 then pay.headD 0 else 0] ++ q.resize
    ++ beBytes 8 ((first.map (·.1)).getD (2 ^ 64 - 1)) ++ beBytes 8 Config.uid.toNat ++ List.replicate 16 0
  let top := [BitVec.ofNat 8 t.mf] ++ beBytes 2 t.sf
  let body := if q.j = 1 then pay.drop 1 else if q.j = 2 then 0 :: pay else pay
  let rest := head ++ beBytes 2 (crc16 (top ++ head)).toNat ++ [0, 0] ++ body
  let sent := top ++ spanScramble t.mf t.sf rest
  let m := (t.mf + 1) % 256
  { bytes := t.bytes.drop n, starts := (t.starts.filter (fun x => n ≤ x.2)).map (fun x => (x.1, x.2 - n)), jnext := q.next, jcnt,
    mf := m, sf := if m = 0 then (t.sf + 1) % 65536 else t.sf, bip := xorWords sent, frame := beBytes 6 fasPattern.toNat ++ sent }

/-- The action that a carrier announces for its next frame (R86): `fill` bytes above or below the centre of its queue. -/
def justAction (fill : Int) : Nat := if 32 ≤ fill then 1 else if fill ≤ -32 then 2 else 0

/-- The 512 blocks of a frame (R60). -/
def frameBlocks : Nat → List Byte → List LaneBlock
  | 0, _ => []
  | n + 1, f => some (f.take 32) :: frameBlocks n (f.drop 32)

/-- Rounds of a lane: one block of each slot in turn, an idle one in a slot that has none (R58). -/
def laneRounds : Nat → List (List LaneBlock) → List LaneBlock
  | 0, _ => []
  | n + 1, l => l.map (fun x => x.headD none) ++ laneRounds n (l.map List.tail)

/-- Codewords of 20 blocks, and the blocks that remain (R57). -/
def packWords : Nat → List LaneBlock → List (BitVec 5140) × List LaneBlock
  | 0, l => ([], l)
  | n + 1, l =>
    if l.length < 20 then ([], l)
    else let r := packWords n (l.drop 20); (packBlocks (l.take 20) :: r.1, r.2)

/-- A lane sends the 4,096 blocks of one frame time: instance i of the carrier on lane i mod w, in slot i / w (R57, R58). -/
def State.sendLane (s : State) (p w lane count : Nat) : State :=
  let slots := (List.range 8).map (fun t =>
    let i := t * w + lane
    if i < count then frameBlocks 512 (s.tx p i).frame else [])
  let old := tget (fun _ => (default : LaneTx)) s.line.laneTx (p + lane)
  let (words, blocks) := packWords 205 (old.blocks ++ laneRounds 512 slots)
  s.setLine { s.line with laneTx := tset (fun _ => default) s.line.laneTx (p + lane) ⟨blocks, words⟩ }

/-- The lanes of a carrier send the frames of its instances, or are squelched (R58, R99). -/
def State.sendLanes (s : State) (p w count : Nat) (drive : Bool) : State :=
  (List.range w).foldl (fun s l =>
    if drive then s.sendLane p w l count
    else s.setLine { s.line with laneTx := tset (fun _ => default) s.line.laneTx (p + l) default }) s

/-- One frame of every instance of carrier `k`, place `ci` of group `g` (R57, R58, R64, R81, R85, R86, R93): blocks are laid into the
instances in service, and `next` is the action announced. DESIGN CHOICE (log 107): while the group is administratively down its
instances send as outside the calendar and keep what they hold. -/
def State.carrierFrames (s : State) (p g ci : Nat) (c : SpanCfg) (k : Carrier) (pc : PortCfg) (next : Nat) : State :=
  let r := s.spanRun g
  let sh := r.txShake
  let count := max k.tx (if sh.ph = 0 then 0 else max (sh.new.getD ci 0) (sh.old.getD ci 0))
  let first := s.tx p 0
  let j := first.jnext
  let need := if j = 1 then 16321 else if j = 2 then 16319 else 16320
  let bdi := s.sendsBdi p pc k.rx
  let drive := s.drives (144 + g)
  let s := (List.range count).foldl (fun s i =>
    let s := if c.up && i < k.tx then State.layUntil g c p i need (520 * (c.ktx + 1)) s else s
    let t0 := s.tx p i
    let t := { t0 with mf := first.mf, sf := first.sf, bytes := if c.up then t0.bytes else [], starts := if c.up then t0.starts else [] }
    let x := s.inst p i
    let t := t.send { g, ci, w := pc.lanes, i, count := k.tx, bei := x.bei, bdi, next, j, resize := r.resize ci k.tx,
                      inCal := c.up && (i < k.tx || !t.bytes.isEmpty) }
    let t := if c.up then t else { t with bytes := t0.bytes, starts := t0.starts }
    (s.putInst p i { x with bei := 0 }).putTx p i (if drive then t else { t with frame := [] })) s
  s.sendLanes p pc.lanes count drive

/-- A carrier's run of justifications in one direction grows, ends, or reaches 1,024 and holds the port over (R59, R88). -/
def State.countJust (s : State) (p j : Nat) : State :=
  let q := s.portRun p
  let run := if j = 0 then 0 else if j = q.justDir then q.justRun + 1 else 1
  let s := s.putPortRun p { q with justRun := run, justDir := j }
  if run = 1024 then
    let s := s.putPortRun p { s.portRun p with justHeld := true }
    (s.post 0x06A []).holdIn p
  else s

/-- SPAN_FRAME_TRANSMIT (R59, R85, R86, R88): one frame of every instance of a carrier; `fill` is how far its queue of
group bytes stands above its centre. -/
def execSpanFrameTransmit (port : Fin 128) (fill : Int) (s : State) : Out :=
  match s.port port, s.carrierOf port with
  | some pc, some (g, ci, c, k) =>
    if !s.lineOn || !pc.up then .next s
    else
      let r := s.spanRun g
      let s := if r.rxShake.ph = 1 then s.putSpanRun g { r with rxShake := { r.rxShake with ph := 2 } } else s
      .next ((s.carrierFrames port g ci c k pc (justAction fill)).countJust port (s.tx port 0).jnext)
  | _, _ => .next s

/-- Carrier 0's first instance as sent. -/
def State.lead (s : State) (c : SpanCfg) : TxInst := s.tx ((c.carriers.head?.map (·.port)).getD 0) 0
/-- And as received. -/
def State.leadIn (s : State) (c : SpanCfg) : Inst := s.inst ((c.carriers.head?.map (·.port)).getD 0) 0

/-- SPAN_SWITCH_MULTIFRAME (R94). -/
def execSpanSwitchMultiframe (g : Fin 32) (s : State) : Out :=
  match s.span g with
  | none => .next s
  | some c =>
    let k := (s.spanRun g).txShake
    let t := s.lead c
    if k.ph = 2 && !k.new.isEmpty && t.mf = 0 && t.sf = k.sfc && !s.spanFollows c then
      let s := s.switchTx g c k.new
      let s := s.putSpanRun g { s.spanRun g with txShake := { k with new := [] } }
      .next (s.shakeStep g 4)
    else .next s

/-- STANDBY_SPAN_APPLY (R99): mirrored counts at the start of the standby's own next multiframe. -/
def execStandbySpanApply (g : Fin 32) (s : State) : Out :=
  match s.span g, (s.spanRun g).mirror with
  | some c, some new =>
    if (s.lead c).mf ≠ 0 then .next s
    else
      let s := s.switchTx g c (new.take c.carriers.length)
      .next ((s.putSpanRun g { s.spanRun g with mirror := none }).shakeDrop g)
  | _, _ => .next s

/-- A TTYPE 9 record at the standby (R99, R335): it follows the handshake by its steps, and STEP 4's counts wait for its own next
multiframe. -/
def State.takeShake (s : State) (f : List Byte) : State :=
  let g := beNat (f.take 1) % 32
  let step := beNat ((f.drop 1).take 1)
  let seq := beNat ((f.drop 2).take 1) % 16
  let new := (f.drop 4).take 16 |>.map (·.toNat)
  match s.span g with
  | none => s
  | some c =>
    let r := s.spanRun g
    match step with
    | 1 => s.putSpanRun g { r with txShake := ⟨1, seq, c.txCounts, new.take c.carriers.length, 0⟩, reqAt := s.mono }
    | 3 => s.putSpanRun g { r with txShake := { r.txShake with ph := 2, seq, sfc := beNat ((f.drop 20).take 2) } }
    | 4 => s.putSpanRun g { r with mirror := some new }
    | 5 => (s.putSpanRun g { r with mirror := none }).shakeDrop g
    | _ => s

/-- The blocks from `b` on of an instance numbered anew (R94). -/
def Inst.renumber (x : Inst) (b eOld kOld eNew kNew : Nat) : Inst :=
  let f (g : Nat) : Nat := if g < b + eOld then g else b + eNew + (g - b - eOld) / kOld * kNew
  { x with fifo := x.fifo.map (fun y => { y with g := f y.g }), curG := f x.curG, nextG := x.nextG.map f }

/-- An instance that the new calendar leaves out keeps its blocks of the old one (R94). -/
def Inst.keepOld (x : Inst) (b : Nat) : Inst :=
  { x with fifo := x.fifo.filter (·.g < b), curG := if b ≤ x.curG then noBlock else x.curG,
           nextG := x.nextG.map (fun n => if b ≤ n then noBlock else n) }.leaves

/-- The blocks held in each instance are renumbered for the new calendar (R94, R95), block `b` the first of the new one. -/
def State.renumberAll (s : State) (c c' : SpanCfg) (b : Nat) : State :=
  ((List.range c.krx).zip c.rxCal).foldl (fun s e =>
    match c'.rxCal.findIdx? (fun y => y == e.2) with
    | some n => s.putInst e.2.2.1 e.2.2.2 ((s.inst e.2.2.1 e.2.2.2).renumber b e.1 c.krx n c'.krx)
    | none => s.putInst e.2.2.1 e.2.2.2 ((s.inst e.2.2.1 e.2.2.2).keepOld b)) s

/-- SPAN_RESIZE_APPLY_RX (R94, R95): the first frame of multiframe S has come on entry 0. -/
def execSpanResizeApplyRx (g : Fin 32) (s : State) : Out :=
  match s.span g with
  | none => .next s
  | some c =>
    let r := s.spanRun g
    let k := r.rxShake
    let x := s.leadIn c
    let icounts := c.carriers.map (fun q => beNat (((s.inst q.port 0).oh.drop 3).take 1) % 128)
    let due := x.acc && x.mf = 1 && !k.new.isEmpty && ((k.ph = 3 && x.sf = k.sfc) || (k.ph = 2 && icounts = k.new))
    match due, x.firstG with
    | true, some b =>
      let c' := c.withRx k.new
      let s := s.setSpan g (some c')
      let s := s.renumberAll c c' b
      .next (s.putSpanRun g { s.spanRun g with
        rxEpoch := b, rxOld := some (r.rxEpoch, c.rxCounts), skewOf := none, skewSeen := []
        rxShake := { k with ph := 3, new := [], sfc := x.sf } })
    | _, _ => .next s

/-- The sending end of a resize is done (R94): instances out of service go, and event 0x064. -/
def State.txDone (s : State) (g : Nat) : State :=
  let a := (s.spanRun g).txShake
  ((s.putSpanRun g { s.spanRun g with txShake := { a with ph := 0, old := [] } }).idleRest g).post 0x064 []

/-- The receiving end of a resize is done (R94): instances out of service go, but for blocks that wait to be read, and event 0x066. -/
def State.rxDone (s : State) (g : Nat) (c : SpanCfg) : State :=
  let b := (s.spanRun g).rxShake
  let s := (c.carriers.zip b.old).foldl (fun s x =>
    (List.range x.2).foldl (fun s i =>
      if x.1.rx ≤ i then s.putInst x.1.port i { (default : Inst) with fifo := (s.inst x.1.port i).fifo } else s) s) s
  (s.putSpanRun g { s.spanRun g with rxShake := { b with ph := 0, old := [] } }).post 0x066 []

/-- SPAN_RESIZE_DONE (R94): the start of S + 1 at either end. -/
def execSpanResizeDone (g : Fin 32) (s : State) : Out :=
  match s.span g with
  | none => .next s
  | some c =>
    let a := (s.spanRun g).txShake
    let b := (s.spanRun g).rxShake
    let tx := a.ph = 2 && a.new.isEmpty && (s.lead c).sf = (a.sfc + 1) % 65536
    let rx := b.ph = 3 && b.new.isEmpty && (s.leadIn c).sf = (b.sfc + 1) % 65536
    let s := if tx then s.txDone g else s
    .next (if rx then s.rxDone g c else s)

/-- SPAN_RESIZE_TIMEOUT (R95). -/
def execSpanResizeTimeout (g : Fin 32) (s : State) : Out :=
  match s.span g with
  | some c =>
    let r := s.spanRun g
    .next (if r.txShake.ph = 1 && r.reqAt + ms c.tmo ≤ s.mono && !s.spanFollows c then s.shakeFail g 0 else s)
  | none => .next s

/-- The counts of SPAN_RESIZE's words 1 to 4, one a carrier (R92). -/
def resizeCounts (p : List Word) : List Nat :=
  (p.drop 1).flatMap (fun w => [bits w 31 24, bits w 23 16, bits w 15 8, bits w 7 0])

/-- SPAN_RESIZE's counts are not those of a resize of the group: a count out of its carrier's range, one beyond the last carrier,
or no change (R92, R93). -/
def SpanCfg.resizeBad (c : SpanCfg) (all : List Nat) : Bool :=
  let n := c.carriers.length
  !c.up || (c.carriers.zip all).any (fun x => x.2 == 0 || x.1.maxInst < x.2) || (all.drop n).any (· != 0)
    || all.take n == c.txCounts

/-- SPAN_RESIZE (R92, R93). -/
def execSpanResize (h : Hdr) (p : List Word) (s : State) : Out :=
  let g := pf p 0 31 27
  let all := resizeCounts p
  let bad := p.length != 5 || pf p 0 26 0 != 0 || (match s.span g with | none => true | some c => c.resizeBad all)
  let prot := ((s.span g).map (·.prot)).getD false
  .next (runCommand 0x502 h p bad false (!modeForwards s.pwr.mode)
    [(s.pwr.mode == .standby && !prot, codeNotActing), ((s.spanRun g).txShake.ph != 0, codeBusy)]
    (fun s =>
      match s.span g with
      | none => (s, codeDeferred, [])
      | some c =>
        let r := s.spanRun g
        let seq := (r.txShake.seq + 1) % 16
        let s := s.putSpanRun g { r with
          txShake := ⟨1, seq, c.txCounts, all.take c.carriers.length, 0⟩, reqAt := s.mono }
        (s.shakeStep g 1, codeDeferred, [BitVec.ofNat 32 seq])) s)

/-! ## SPAN_GROUP_CFG (R77 to R79, R89) -/

/-- The group that a command's words describe. -/
def spanCfgOf (p : List Word) : SpanCfg :=
  { up := bit (par p 0) 25, rxGid := pf p 0 24 20, couple := bit (par p 0) 19, partner := pf p 0 18 14, prot := bit (par p 0) 13,
    chan := pf p 1 31 20, maxFrame := pf p 1 19 6, maxSkew := pf p 2 31 16, tmo := pf p 2 15 0,
    carriers := (p.drop 3).map (fun w => ⟨bits w 31 25, bits w 24 18, bits w 17 11, bits w 10 4⟩) }

/-- The deskew allocation of a group in bytes, and whether it is in DRAM (R89). -/
def SpanCfg.deskew (c : SpanCfg) : Nat × Bool :=
  let n := (c.carriers.map (·.maxInst)).sum * 3125
  if c.maxSkew ≤ 100 then (roundUp ((n * (c.maxSkew + 40) + 9) / 10) 65536, false)
  else (roundUp ((n * (c.maxSkew + 1000) + 9) / 10) 2097152, true)

/-- A group's allocation fits beside those of the other groups (R89). -/
def State.deskewFits (s : State) (g : Nat) (c : SpanCfg) : Bool :=
  let d := c.deskew
  let used := ((s.spanList.filter (fun x => x.1 != g && x.2.deskew.2 == d.2)).map (fun x => x.2.deskew.1)).sum
  used + d.1 ≤ (if d.2 then 8589934592 else 50331648)

/-- The conditions for BAD_PARAM (R78). -/
def State.spanCfgBad (s : State) (h : Hdr) (p : List Word) : Bool :=
  let g := pf p 0 31 27
  let c := spanCfgOf p
  !targetIs h 1 0x3F || p.length < 4 || p.length != 4 + pf p 0 7 4 || pf p 0 12 8 != 0 || pf p 0 3 0 != 0 || pf p 1 5 0 != 0
    || (p.drop 3).any (fun w => bits w 3 0 != 0)
    || c.carriers.any (fun k =>
      (match s.port k.port with
        | some pc => pc.type != 4 || k.maxInst == 0 || 8 * pc.lanes < k.maxInst
        | none => true)
      || k.tx == 0 || k.maxInst < k.tx || k.rx == 0 || k.maxInst < k.rx
      || s.spanList.any (fun x => x.1 != g && x.2.carriers.any (·.port == k.port)))
    || !noRepeats (c.carriers.map (·.port))
    || c.maxSkew == 0 || 20000 < c.maxSkew || c.tmo == 0 || 1000 < c.tmo
    || s.spanList.any (fun x => x.1 != g && x.2.chan == c.chan) || s.portList.any (fun x => (s.allChans x.1 x.2).contains c.chan)
    || c.maxFrame < 64 || (c.couple && c.partner == g)

/-- A group's ADMIN_UP comes into effect (R79). -/
def State.spanAdmin (s : State) (g : Nat) (up : Bool) : State :=
  match s.span g with
  | none => s
  | some c =>
    if c.up = up then s
    else
      let s := s.setSpan g (some { c with up })
      if up then
        let s := s.putSpanRun g { s.spanRun g with delinAt := s.mono }
        c.rxCal.foldl (fun s e => if (s.inst e.2.1 e.2.2).acc then s else s.lofIn e.2.1 e.2.2) s
      else
        let s := if (s.spanRun g).txShake.ph = 1 || (s.spanRun g).txShake.ph = 2 && !(s.spanRun g).txShake.new.isEmpty
          then s.shakeFail g 5 else s
        let r := s.spanRun g
        s.putSpanRun g { r with rxShake := { r.rxShake with ph := 0, new := [], old := [] }, nakWhy := 0 }

/-- A group leaves: what ran on it and on its carriers is gone. -/
def State.dropSpan (s : State) (g : Nat) : State :=
  let ps := ((s.span g).map (fun c => c.carriers.map (·.port))).getD []
  let l := s.line
  let s := s.setLine { l with
    insts := l.insts.filter (fun x => !ps.contains (x.1 / 64))
    txs := l.txs.filter (fun x => !ps.contains (x.1 / 64))
    spans := tdel l.spans g }
  (s.setSpan g none).setHw (skewAddr g) 0

/-- A group is committed, or removed (R77, R79, R273, R409): what runs on it ends as at ADMIN_UP 0 first. DESIGN CHOICE (log 103): no
event 0x04A, which chapter 18 gives to a port's geometry. -/
def State.commitSpan (s : State) (g : Nat) (c : SpanCfg) (remove : Bool) : State :=
  let s := (s.spanAdmin g false).dropSpan g
  let s := { s with cfg := { s.cfg with spanShadow := tset (fun _ => none) s.cfg.spanShadow g none } }
  if remove then s
  else
    let s := (s.setSpan g (some { c with up := false })).unshape (144 + g)
    ((s.clearCounts 3 g).clearCounts 1 (144 + g)).spanAdmin g c.up

/-- SPAN_GROUP_CFG (R78, R79). -/
def execSpanGroupCfg (h : Hdr) (p : List Word) (s : State) : Out :=
  let g := pf p 0 31 27
  let c := spanCfgOf p
  let apply := bit (par p 0) 26
  let upNow := ((s.span g).map (·.up)).getD false
  .next (runSimple 0x501 h p (s.spanCfgBad h p) (h.priv == 2) s.slipOrQuiet
    [(!s.deskewFits g c, codeFull), (apply && upNow && c.up, codeRunning)]
    (fun s =>
      if apply then s.commitSpan g c ((s.span g).isSome && pf p 0 7 4 == 0 && !c.up)
      else
        let s := { s with cfg := { s.cfg with spanShadow := tset (fun _ => none) s.cfg.spanShadow g (some c) } }
        match s.span g with
        | some o => (s.setSpan g (some { o with maxFrame := c.maxFrame, tmo := c.tmo })).spanAdmin g c.up
        | none => s) s)

/-- FD_SPAN_GRPSTATg (R101). -/
def State.grpStat (s : State) (g : Nat) : Word :=
  match s.span g with
  | none => 0
  | some c =>
    let r := s.spanRun g
    mkWord [(1, b01 (s.spanUp g)), (2, r.txShake.ph), (2, r.rxShake.ph), (4, r.txShake.seq), (1, b01 c.deskew.2), (11, c.ktx), (11, c.krx)]

/-- FD_SPAN_SKEWg (R101). -/
def State.skewStat (s : State) (g : Nat) : Word :=
  let r := s.spanRun g
  mkWord [(16, min 65535 (r.skew / 100)), (4, r.latest), (4, r.earliest), (1, b01 (r.gcal != 0)), (1, b01 r.gskw), (1, b01 r.gpart),
    (1, b01 r.glos), (4, bits (s.hwReg (skewAddr g)) 3 0)]

end Sys2Proof.Machine
end

