-- ==== Sys2Proof/Machine/Tether.lean ====
section
/-! DEFINITION. The tether: its link layer and what each frame does, the pair's formation, mirroring, the HEALTH frame,
and the PAIR family (R319, R320, R328, R330, R333 to R338, R349). -/

namespace Sys2Proof.Machine

/-! ## The health report (R330) -/

/-- The HEALTH frame as it stands now, with the next FSEQ. -/
def State.healthWord (s : State) : Word64 :=
  let p := s.pair
  let m := modeCode s.pwr.mode
  let ports := ((List.range 128).filter s.linkUp).length
  let loose := (p.chans.filter (fun x => x.2.enabled && !x.2.aligned)).length
  let w : Word64 := BitVec.ofNat 64 (packNat [(4, 1), (4, p.healthSeq.toNat), (1, b01 p.sideB), (1, b01 p.act), (3, m), (4, s.chk),
    (1, b01 (p.act ^^ p.ownFault)), (1, b01 p.peerIlk), (1, b01 p.formed), (1, b01 (s.allowsSide || !p.refOk)),
    (1, b01 s.claims), (1, b01 s.stfail), (1, b01 s.yieldCond), (1, bits (s.hwReg 0xBF270000) 21 21),
    (8, s.fabLinks), (8, ports), (7, min 127 loose), (3, s.attn), (13, 0)] 0)
  putBits w 7 0 (crc8From 0xFF#8 (beBytes 7 (bits w 63 8))).toNat

/-- REFEREE_HEALTH_SEND (R318, R330). -/
def execRefereeHealthSend (s : State) : Out :=
  .next (if s.refOn then s.setPair { s.pair with health := s.healthWord, healthSeq := s.pair.healthSeq + 1 } else s)

/-! ## Formation (R320, R336) -/

/-- Why the pair is not formed though the tether is up: 1 for the same side, 2 for node numbers; 0 otherwise. -/
def State.formBar (s : State) : Nat :=
  match s.pair.peer with
  | some p =>
    if !s.pair.tetherUp || !p.en then 0
    else if bit p.health 55 = s.pair.sideB then 1
    else if p.peerNode ≠ s.fabNode || p.node ≠ s.cfg.pair.peerNode then 2
    else 0
  | none => 0

/-- Judges whether the pair is formed; a refusal is logged when it begins. -/
def State.form (s : State) : State :=
  let bar := s.formBar
  let ok := s.pair.tetherUp && bar == 0 && (s.pair.peer.map (·.en)).getD false
  let was := s.pair.refused
  let s := s.setPair { s.pair with formed := ok, refused := bar }
  (if bar = 0 || bar = was then s else s.post 0x1A0 [d16 (bar - 1)]).judgeRole

/-- Good status frames have come for 1 ms, with no 100 µs between two frames (R336). -/
def State.statusLong (s : State) : Bool :=
  match s.pair.statusFrom with
  | some t => t + ms 1 ≤ s.mono && s.mono < s.pair.goodAt + 100000
  | none => false

/-- TETHER_UP (R336): 1 ms of good status frames. -/
def execTetherUp (s : State) : Out :=
  .next (if s.tetherOn && !s.pair.tetherUp && s.statusLong then
      ((s.setPair { s.pair with tetherUp := true }).post 0x198 []).form
    else s)

/-- TETHER_DOWN_TIMEOUT (R336): 100 µs without a good frame. -/
def execTetherDownTimeout (s : State) : Out :=
  .next (if s.pair.goodAt + 100000 ≤ s.mono then s.tetherDown else s)

/-- TETHER_LANE_SERVICE (R333): a lane enters after 1 ms of codeword lock. -/
def execTetherLaneService (lane : Fin 8) (enter : Bool) (s : State) : Out :=
  let c := tget dflt s.pair.locks lane
  if s.domain 9 ≠ 0 || (enter && !(c.lock && c.since + ms 1 ≤ s.mono)) then .next s
  else .next (s.tetherLane lane enter)

/-! ## What frames do (R335, R337) -/

/-- A status frame (R320, R348 item 6). -/
def State.takeStatus (s : State) (f : List Byte) : State :=
  let fl := BitVec.ofNat 8 (byteAt f 12)
  let p : PeerStatus := ⟨BitVec.ofNat 64 (beNat (bytesAt f 0 8)), beNat (bytesAt f 8 2) % 512, beNat (bytesAt f 10 2) % 512,
    bit fl 0, bit fl 1, bit fl 2⟩
  let off := if bit p.health 54 = s.pair.peerIlk then 0 else s.pair.disagree + 1
  let s := s.setPair { s.pair with
    peer := some p, peerAt := s.mono, disagree := if s.pair.tetherUp then off else 0
    statusFrom := some (s.pair.statusFrom.getD s.mono) }
  let s := if !s.pair.tetherUp then s
    else if 10 ≤ off then s.itemFails 6
    else if off = 0 then s.setPair { s.pair with failing := s.pair.failing.filter (· != 6) }
    else s
  s.form

/-- The node of a shaper record's index (R335). -/
def sweepNode (i : Nat) : Nat :=
  if i < 262144 then nodeKey 0 i
  else if i < 294912 then nodeKey 1 (i - 262144)
  else if i < 299008 then nodeKey 2 (i - 294912)
  else nodeKey 3 (i - 299008)

/-- Meter records for meters `i` onward (R335, R337). -/
def State.takeMeters : Nat → Nat → List Byte → State → State
  | 0, _, _, s => s
  | n + 1, i, f, s =>
    if f.length < 16 || 131072 ≤ i then s
    else State.takeMeters n (i + 1) (f.drop 16)
      (s.setMeter i { s.meterRun i with tc := beNat (bytesAt f 0 8), te := beNat (bytesAt f 8 8) })

/-- Shaper records for nodes `i` onward (R335, R337). -/
def State.takeShapers : Nat → Nat → List Byte → State → State
  | 0, _, _, s => s
  | n + 1, i, f, s =>
    if f.length < 8 || 299264 ≤ i then s
    else
      let w : Word64 := BitVec.ofNat 64 (beNat (bytesAt f 0 8))
      State.takeShapers n (i + 1) (f.drop 8)
        (s.putBucket (sweepNode i) ⟨(BitVec.ofNat 40 (bits w 63 24)).toInt, bits w 23 4⟩)

/-- The sweep period in ns (R337). -/
def State.sweepNs (s : State) : Nat :=
  let n := ((List.range 8).filter (fun l => s.pair.lanes.getLsbD l)).length
  if 4 ≤ n || n = 0 then 100000 else 400000 / n

/-- Two values in bytes differ by more than a sweep of a rate (R348). -/
def State.driftAt (s : State) (rate : Nat) (a b : Int) : Bool := rate * 1000 * s.sweepNs < (a - b).natAbs * 1000000000

/-- The sweep's record of one meter and of one shaper are compared with the member's own state (R348 item 9). DESIGN CHOICE (log 115):
the record is the one whose index is the sweep number. -/
def State.compareSweep (s : State) (kind no first : Nat) (f : List Byte) : State :=
  let size := if kind = 0 then 16 else 8
  let r := (f.drop ((no - first) * size)).take size
  if no < first || r.length < size then s
  else
    let off := if kind = 0 then
        let c := s.meterCfg no
        let m := s.meterRun no
        s.driftAt c.cir m.tc (beNat (r.take 8)) || s.driftAt c.pir m.te (beNat (r.drop 8))
      else
        let w : Word64 := BitVec.ofNat 64 (beNat r)
        s.driftAt (s.shaperCfg (sweepNode no)).rate (s.bucket (sweepNode no)).b (BitVec.ofNat 40 (bits w 63 24)).toInt
    if off then s.setPair { s.pair with mirrorOff := true } else s

/-- A sweep frame overwrites buckets of a member that does not act (R337), after the comparison of R348. -/
def State.takeSweep (s : State) (f : List Byte) : State :=
  let first := beNat (bytesAt f 4 4)
  let s := if s.pair.act then s else s.compareSweep (byteAt f 0) (beNat (bytesAt f 2 2)) first (f.drop 8)
  if s.pair.act then s
  else if byteAt f 0 = 0 then s.takeMeters 253 first (f.drop 8)
  else if byteAt f 0 = 1 then s.takeShapers 507 first (f.drop 8)
  else s

/-- Records of `k` bytes, each applied. -/
def takeEach (k : Nat) (apply : List Byte → State → State) : Nat → List Byte → State → State
  | 0, _, s => s
  | n + 1, f, s => if f.length < k then s else takeEach k apply n (f.drop k) (apply (f.take k) s)

/-- A mirrored command of the peer (R338): checked as R426 states, then one of those that wait to be applied. -/
def State.takeCommand (s : State) (f : List Byte) : State :=
  let p := packetOf f
  let on := s.cfg.pair.en && s.cfg.pair.mirror
  let reply (s : State) (code : Byte) : State :=
    (s.count 0x0B p.op p.prio none (some p.priv) 0).tetherPut 5 (withTrailer (s.rawReply p code))
  if p.len < 20 || p.len % 4 ≠ 0 then reply s codeBadParam
  else if trailerBad f p.len then reply s codeCrcError
  else match s.headCheck p (p.priv != 3 || !on) s.romServes with
    | some (code, some i) => reply (s.post 0x1E2 [d16 p.op, d16 i]) code
    | some (code, none) => reply s code
    | none => s.setPair { s.pair with inbox := s.pair.inbox ++ [⟨p.op, p.hdr .tether, p.pars⟩] }

/-- Opcodes whose replies carry APPLIED in [31:16] of their first result (R138, R338). -/
def appliedOps : List Nat := [0x200, 0x201, 0x210, 0x211, 0x300, 0x301, 0x302]

/-- Ends the wait of a mirrored command with its own code (R338). -/
def State.endMirror (s : State) (w : MirrorWait) : State :=
  (s.setPair { s.pair with waits := s.pair.waits.erase w }).finish w.cmd.op w.cmd.hdr w.cmd.par.length w.code w.results

/-- The peer's reply to a mirrored command (R338). -/
def State.takeReply (s : State) (f : List Byte) : State :=
  let p := packetOf f
  match s.pair.waits.find? (fun w => w.cmd.op == p.op && w.cmd.hdr.tag.toNat == bits p.w1 31 16 && w.cmd.hdr.seq == p.w3) with
  | none => s
  | some w =>
    let code := BitVec.ofNat 8 (bits p.w2 31 24)
    let same := code == w.code
      && (!appliedOps.contains p.op || bits (p.body.getD 0 0) 31 16 == bits (w.results.getD 0 0) 31 16)
    (if same then s else s.diverge p.op w.code code).endMirror w

/-- MIRROR_REPLY_TIMEOUT (R338): the oldest command that waits has waited 1 ms. -/
def execMirrorReplyTimeout (s : State) : Out :=
  match s.pair.waits with
  | [] => .next s
  | w :: _ => .next (if w.since + ms 1 ≤ s.mono then (s.diverge w.cmd.op w.code 0).endMirror w else s)

/-! ## The link layer (R334) -/

/-- A TTYPE 8 frame, or the acknowledgement that every frame carries; a NAK resends from the LSEQ it names. -/
def State.takeAck (s : State) (f : TetherFrame) : State :=
  let nak := f.ttype == 8#8 && bit f.flags 0
  let upTo := if nak then f.ackseq - 1 else f.ackseq
  let left := s.pair.replay.filter (fun x => 2 ^ 31 ≤ (upTo - x.lseq).toNat)
  let s := s.setPair { s.pair with replay := left }
  if nak then (s.setPair (left.foldl Pair.onLane s.pair)).pairCount 1 left.length else s

/-- What a frame delivered in order does; a TTYPE that R334 does not name is discarded. -/
def State.deliver (s : State) (f : TetherFrame) : State :=
  let b := f.payload
  match f.ttype.toNat with
  | 1 => s.takeStatus b
  | 2 => s.takeSweep b
  | 3 => takeEach 48 (fun r s => s.takeOam r) 84 b s
  | 4 => s.takeCommand b
  | 5 => s.takeReply b
  | 6 => s.takeAlign b
  | 7 => s.takeSamples b
  | 9 => takeEach 32 (fun r s => s.takeShake r) 127 b s
  | _ => s

/-- Delivers the frame expected next, and those held behind it. -/
def State.deliverRun : Nat → TetherFrame → State → State
  | 0, _, s => s
  | n + 1, f, s =>
    let s := (s.setPair { s.pair with rxSeq := f.lseq + 1 }).deliver f
    match s.pair.ahead.find? (·.lseq == s.pair.rxSeq) with
    | some g => State.deliverRun n g (s.setPair { s.pair with ahead := s.pair.ahead.erase g })
    | none => s

/-- The gap before the frames held opens where they begin to wait, or wait for another frame (R334). -/
def State.noteGap (s : State) (was : List TetherFrame) (seq : Word) : State :=
  if !s.pair.ahead.isEmpty && (was.isEmpty || seq != s.pair.rxSeq) then s.setPair { s.pair with gapAt := s.mono } else s

/-- A tether frame arrives on a lane in service. While the tether is down, a frame outside the reorder window sets the
order anew (log 71). -/
def State.tetherRecv (s : State) (f : TetherFrame) : State :=
  if !s.tetherOn then s
  else if f.tcrc ≠ TetherFrame.crc f then (s.setPair { s.pair with statusFrom := none }).pairCount 0 1
  else
    let late := s.pair.goodAt + 100000 ≤ s.mono
    let s := s.takeAck f
    let s := s.setPair { s.pair with goodAt := s.mono, statusFrom := if late then none else s.pair.statusFrom }
    let ahead := s.pair.ahead
    let seq := s.pair.rxSeq
    let d := (f.lseq - s.pair.rxSeq).toNat
    (if d = 0 then s.deliverRun 1025 f
      else if d < 1024 then
        if s.pair.ahead.any (·.lseq == f.lseq) then s else s.setPair { s.pair with ahead := s.pair.ahead ++ [f] }
      else if s.pair.tetherUp then s
      else (s.setPair { s.pair with ahead := [] }).deliverRun 1025 f).noteGap ahead seq

/-- TETHER_STATUS (R320, R335, R336). -/
def execTetherStatus (f : TetherFrame) (s : State) : Out := .next (s.tetherRecv f)
/-- TETHER_BUCKET_SWEEP (R337). -/
def execTetherBucketSweep (f : TetherFrame) (s : State) : Out := .next (s.tetherRecv f)
/-- TETHER_OAM_STATE (R335, R397). -/
def execTetherOamState (f : TetherFrame) (s : State) : Out := .next (s.tetherRecv f)
/-- TETHER_MIRRORED_COMMAND (R338). -/
def execTetherMirroredCommand (f : TetherFrame) (s : State) : Out := .next (s.tetherRecv f)
/-- TETHER_MIRRORED_REPLY (R338). -/
def execTetherMirroredReply (f : TetherFrame) (s : State) : Out := .next (s.tetherRecv f)
/-- TETHER_ALIGNMENT (R341). -/
def execTetherAlignment (f : TetherFrame) (s : State) : Out := .next (s.tetherRecv f)
/-- TETHER_MANIFEST_CHECK (R342). -/
def execTetherManifestCheck (f : TetherFrame) (s : State) : Out := .next (s.tetherRecv f)
/-- TETHER_ACK (R334). -/
def execTetherAck (f : TetherFrame) (s : State) : Out := .next (s.tetherRecv f)
/-- TETHER_SPAN_HANDSHAKE (R99, R335). -/
def execTetherSpanHandshake (f : TetherFrame) (s : State) : Out := .next (s.tetherRecv f)

/-- TETHER_GAP_TIMEOUT (R334): a gap has stayed open for 2 µs, and a NAK names the missing LSEQ. -/
def execTetherGapTimeout (s : State) : Out :=
  .next (if s.pair.ahead.isEmpty || s.mono < s.pair.gapAt + 2000 then s
    else (s.setPair { s.pair with gapAt := s.mono }).tetherSend 8 1 s.pair.rxSeq [])

/-- TETHER_STATUS_SEND (R334, R336). -/
def execTetherStatusSend (s : State) : Out :=
  let c := s.cfg.pair
  .next (s.tetherPut 1 (beBytes 8 s.healthWord.toNat ++ beBytes 2 s.fabNode ++ beBytes 2 c.peerNode
    ++ [BitVec.ofNat 8 (packNat [(1, b01 c.auto), (1, b01 c.mirror), (1, b01 c.en)] 0), 0, 0, 0]))

/-- The frames of one kind of a sweep: records `FIRST` onward, `per` to a frame. -/
def State.sweepFrames (kind no per all : Nat) (rec : State → Nat → List Byte) (s : State) : State :=
  (List.range ((all + per - 1) / per)).foldl (fun s k =>
    let ids := (List.range (min per (all - k * per))).map (k * per + ·)
    s.tetherPut 2 ([BitVec.ofNat 8 kind, 0] ++ beBytes 2 no ++ beBytes 4 (k * per) ++ ids.flatMap (rec s))) s

/-- The frames of sweep `no` (R335, R337): every meter's buckets, then every shaper's. -/
def State.sweep (s : State) (no : Nat) : State :=
  let s := State.sweepFrames 0 no 253 131072 (fun s i =>
    let r := s.meterRun i
    beBytes 8 r.tc ++ beBytes 8 r.te) s
  State.sweepFrames 1 no 507 299264 (fun s i =>
    let r := s.bucket (sweepNode i)
    beBytes 8 (((BitVec.ofInt 40 r.b).toNat * 1048576 + r.f) * 16)) s

/-- TETHER_SWEEP_SEND (R335, R337): the acting member sends one sweep. -/
def execTetherSweepSend (s : State) : Out :=
  if !(s.tetherOn && s.pair.act) then .next s
  else
    let s := s.sweep s.pair.sweepNo.toNat
    .next (s.setPair { s.pair with sweepNo := s.pair.sweepNo + 1 })

/-! ## The PAIR family -/

/-- PAIR_CFG's parameters (R319). -/
def pairCfgOf (p : List Word) : PairCfg :=
  let b (i : Nat) : Bool := bit (par p 0) i
  ⟨b 31, b 30, b 29, b 28, pf p 0 27 20, BitVec.ofNat 4 (pf p 0 19 16), pf p 0 15 7, pf p 1 31 25,
    (BitVec.ofNat 16 (pf p 1 15 0)).toInt⟩

/-- EN of the pair changes (R318, R319, R321): the tether's domain comes on and the member holds no role, or the tether ends and the
member acts alone where its mode is ACTIVE. -/
def State.pairEnable (s : State) (en : Bool) : State :=
  if en then
    { (s.setDomain 9 0).stopRuns 2 (fun _ => true) with
      pair := { s.pair with act := false }, pins := { s.pins with ilkOwn := false, osel := false } }
  else
    let s := s.tetherDown
    let on := s.pwr.mode == .active
    { s with
      pair := { s.pair with act := on, lanes := 0, peer := none, formed := false, conflict := false }
      pins := { s.pins with ilkOwn := on, osel := on } }

/-- PAIR_CFG (R318, R319). -/
def execPairCfg (h : Hdr) (p : List Word) (s : State) : Out :=
  let c := pairCfgOf p
  let old := s.cfg.pair
  let fixed := c.en != old.en || c.refEn != old.refEn || c.mirror != old.mirror || c.peerNode != old.peerNode
  .next (runSimple 0x600 h p
    (!devWide h || p.length != 2 || pf p 0 6 0 != 0 || pf p 1 24 16 != 0 || c.refTmo < 2 || c.alignWin == 0 || 100 < c.alignWin)
    (hdrUser h) s.slipOrQuiet [(fixed && !modeOpensStatic s.pwr.mode, codeRunning)]
    (fun s =>
      let s := { s with cfg := { s.cfg with pair := c } }
      let s := if c.en = old.en && c.refEn = old.refEn then s
        else s.setPair { s.pair with refOk := false, refLost := false, verdictAt := s.mono, allow := 0 }
      (if c.en = old.en then s else s.pairEnable c.en).form) s)

/-- PAIR_HEALTH (R349). -/
def execPairHealth (h : Hdr) (p : List Word) (s : State) : Out :=
  .next (runCommand 0x602 h p (!p.isEmpty) false (s.pwr.mode == .slipway) []
    (fun s =>
      let q := s.pair
      let two (w : Word64) : List Word := [w.extractLsb' 32 32, w.extractLsb' 0 32]
      (s, codeOk, two q.health ++ two (if q.formed then (q.peer.map (·.health)).getD 0 else 0) ++ two q.verdict
        ++ [mkWord [(16, q.rounds), (8, q.lastItem), (8, q.failures)], q.roleTime.extractLsb' 0 32])) s)

/-- PAIR_YIELD (R328). -/
def execPairYield (h : Hdr) (p : List Word) (s : State) : Out :=
  let claim := (s.pair.peer.map (fun q => bit q.health 42)).getD false
  .next (runSimple 0x603 h p (p.length != 1 || pf p 0 30 0 != 0) false false
    [(!(s.cfg.pair.en && s.pair.act), codeNotActing),
     (!bit (par p 0) 31 && !(s.pair.formed && claim), codeBusy)]
    (fun s =>
      let s := s.dropRole 1
      s.setPair { s.pair with yielded := true, yieldAt := s.mono }) s)

/-- TD_TETHER_PAIRSTAT, its RO bits. -/
def State.pairStat (s : State) : Word :=
  let p := s.pair
  mkWord [(1, b01 p.sideB), (1, b01 s.cfg.pair.en), (1, b01 p.act), (1, b01 p.peerIlk), (1, b01 p.formed), (1, b01 p.refOk),
    (2, p.allow.toNat), (1, b01 s.claims), (1, b01 s.stfail), (1, 0), (4, p.lastDrop), (8, p.lanes.toNat), (9, 0)]

end Sys2Proof.Machine
end

