-- ==== Sys2Proof/Machine/Reset.lean ====
section
/-! DEFINITION. Resets: what the sources of R488 clear and keep, and the pins and the watchdog that cause them (R488, R489,
R565, R568). -/

namespace Sys2Proof.Machine

/-- Puts power and modes. -/
def State.setPwr (s : State) (p : Power) : State := { s with pwr := p }
/-- Puts the balls. -/
def State.setPins (s : State) (p : Pins) : State := { s with pins := p }

/-! ## What is lost -/

/-- The forwarding die after its supply was off (R476): fuses and the life log keep fenced slices, engines, modules, banks
and rows. -/
def FdSide.wiped (f : FdSide) : FdSide :=
  let r := FdSide.reset
  let a := f.look.asc
  { r with
    gang := { r.gang with fenced := f.gang.fenced }
    look := { r.look with asc := { r.look.asc with phys := a.phys, spares := a.spares, retired := a.retired } }
    eng := { r.eng with eng := f.eng.eng }
    d2d := { r.d2d with retired := f.d2d.retired } }

/-- A register of the tollhouse, which keeps its value through a reset of sources 1 to 3 (R475, R488, log 91). -/
def tollReg (a : Nat) : Bool := 0x3F010000 ≤ a && a < 0x3F070000

/-- The dies' content is lost (R476, R493): lines, packets, tables in use, sessions' state and the counters outside DRAM.
Configuration stands apart. -/
def State.dark (s : State) : State :=
  { s with
    line := default
    oam := default
    fd := s.fd.wiped
    td := default
    cnt := { s.cnt with prog := [], incs := [], snapProg := [], snapFlow := [], snaps := [], grants := [], ports := [] }
    spares := { s.spares with busy := [] }
    mem := { s.mem with retiring := [] }
    wr := { s.wr with
      hw := s.wr.hw.filter (fun x => x.1 < 0x40000000), shadow := [], held := [], busy := []
      bstat := s.wr.bstat.filter (fun x => x.1 < 0x4000) } }

/-- The tether and the interlock after the traffic die has lost its content. -/
def Pair.lost (p : Pair) : Pair := { (default : Pair) with sideB := p.sideB, peerIlk := p.peerIlk, roleTime := p.roleTime, lastDrop := p.lastDrop }

/-- Every configuration field of the dies at its reset value (R491); the tollhouse keeps its own (log 91). -/
def Setup.cold (c : Setup) : Setup := { Setup.reset with regs := c.regs.filter (fun r => tollReg r.1) }

/-- The host side after its endpoint and rings were reset: HOSTFLAG, IPCFG and what was written to host memory stay. -/
def HostSide.lost (x : HostSide) : HostSide :=
  { x with
    regs := x.regs.filter (fun r => tollReg r.1)
    rings := [], outs := [], punts := [], barData := [], loopback := false
    coreFlags := [], ctrlAwake := false, rom := true }

/-- The images once no staging session is left (R505). -/
def State.dropSessions (s : State) : State :=
  let s := [0, 1].foldl (fun s o => if (s.session o).isSome then (s.emptyImage (s.stageTo o) 0).putSession o none else s) s
  s.setFw { s.fw with verifying := [], activation := none, restarting := 0, rxKib := 0, link := false, sent := [], answers := [] }

/-- A reset of source 1, 2 or 3 (R488): every domain but the tollhouse; a start of this kind follows. -/
def State.coreReset (s : State) (src : Nat) (kind : StartKind) : State :=
  let s := s.dropRole 7
  let s := if s.pwr.mode = Mode.boot then s else s.post 0x004 [d16 (modeCode s.pwr.mode), d16 (modeCode Mode.boot)]
  let s := s.cutCkpt.dropSessions.dark
  let w := s.pwr
  { s with
    cfg := s.cfg.cold
    host := s.host.lost
    wr := { s.wr with
      hw := tset z (s.wr.hw.filter (fun x => tollReg x.1)) 0x3F030014 0, waits := [], bstat := s.wr.bstat.filter (fun x => x.1 ≠ 0x3F07) }
    pair := s.pair.lost
    test := { s.test with prbs := [], running := [], results := [], tapHolds := false, driven := none }
    pins := { s.pins with ilkOwn := false, osel := false, slipReqN := true, thermtripN := true, highZ := false }
    pwr := { (default : Power) with
      mode := .boot, before := .boot, lastReset := src, startDue := some kind, refLost := w.refLost, rails := w.rails
      avsSteps := w.avsSteps, warnHeld := w.warnHeld, coolSince := w.coolSince, junction := w.junction, hbmTemp := w.hbmTemp
      watchdog := s.mono, lastAct := w.lastAct } }

/-- What the tollhouse supply has left (R488, R565): everything is reset but the store, the life log and what the fuse bank holds; the
levels that the board drives stay. -/
def State.unpowered (s : State) : State :=
  let s := s.dropSessions
  let r := State.reset
  { r with
    pending := s.pending
    free := s.free
    store := { s.store with staged := none }
    fw := { s.fw with slipCause := 0, lastCause := 0 }
    spares := { s.spares with busy := [] }
    host := { r.host with mem := s.host.mem, cores := s.host.cores, coreSpares := s.host.coreSpares }
    mem := { s.mem with run := none, retiring := [], tokens := r.mem.tokens, refilled := 0, lastFull := none }
    fd := s.fd.wiped
    pair := { r.pair with peerIlk := s.pins.ilkPeer }
    pwr := { r.pwr with avsSteps := s.pwr.avsSteps }
    pins := { r.pins with pairSide := s.pins.pairSide, railsOk := s.pins.railsOk, slipReqN := s.pins.slipReqN, ilkPeer := s.pins.ilkPeer } }

/-- The tollhouse supply is out of range (R564). -/
def State.dead (s : State) : Bool := s.pins.supplyOut

/-! ## Commands -/

/-- TOLLHOUSE_SUPPLY_IN_RANGE (R488, R565): everything resets, and a start is due. -/
def execTollhouseSupplyInRange (sideB railsOk slipReqN : Bool) (s : State) : Out :=
  let s := s.unpowered
  .next { s with
    pair := { s.pair with sideB }
    pins := { s.pins with pairSide := sideB, railsOk, slipReqN } }

/-- TOLLHOUSE_SUPPLY_LOSS (R564, R567): every output is high-impedance, no other domain is on, and nothing starts before the supply
returns. -/
def execTollhouseSupplyLoss (s : State) : Out :=
  let s := s.unpowered
  .next { s with
    pwr := { s.pwr with startDue := none }
    pins := { s.pins with highZ := true, supplyOut := true } }

/-- RESET_N_RELEASE (R565): a low of 200 ns to 1 µs resets or is ignored, which is left open. -/
def execResetNRelease (lowNs : Nat) (s : State) : Out :=
  if lowNs < 200 || s.dead then .next s
  else if 1000 ≤ lowNs then .next (s.coreReset 1 .policy)
  else
    let (v, s) := s.draw
    .next (if bit v 0 then s.coreReset 1 .policy else s)

/-- RAILS_OK_FALL (R565, R568). -/
def execRailsOkFall (lowNs : Nat) (s : State) : Out :=
  if lowNs < 1000 || !s.pins.railsOk then .next s
  else if s.dead then .next (s.setPins { s.pins with railsOk := false })
  else .next ((s.setPins { s.pins with railsOk := false }).coreReset 1 .policy)

/-- PERST_N_ASSERT (R488): the endpoint is reset, and EN of every ring becomes 0. -/
def execPerstNAssert (s : State) : Out :=
  let s := (List.range 8).foldl (fun s n => s.rcfgWrite n 0) s
  .next ((List.range 5).foldl (fun s m => s.ocfgWrite m 0) s)

/-- WATCHDOG_REFRESH (R489). -/
def execWatchdogRefresh (s : State) : Out :=
  .next (if s.pwr.fwRuns then s.setPwr { s.pwr with watchdog := s.mono } else s)

/-- WATCHDOG_EXPIRE (R488, R489): no refresh for 100 ms while the firmware runs. -/
def execWatchdogExpire (s : State) : Out :=
  .next (if s.pwr.fwRuns && s.fw.restarting ≠ 2 && s.pwr.watchdog + ms 100 ≤ s.mono then (s.post 0x006 []).coreReset 2 .policy else s)

/-- RESTART_COLD (R489): 100 µs after the write of GO. -/
def execRestartCold (s : State) : Out :=
  .next (if s.pwr.restart = some 1 && s.pwr.restartAt + 100000 ≤ s.mono then s.coreReset 3 .cold else s)

/-- RESTART_WARM (R489). -/
def execRestartWarm (s : State) : Out :=
  .next (if s.pwr.restart = some 2 && s.pwr.restartAt + 100000 ≤ s.mono then s.coreReset 3 .warm else s)

end Sys2Proof.Machine
end

