-- ==== Sys2Proof/Machine/Start.lean ====
section
/-! DEFINITION. Start-up: the steps of R490, their failures, the warm start, and the entry to SLIPWAY and to the
powered-down set (R23, R167, R212, R487, R490 to R493, R504, R517, R518, R567, R568, R582). -/

namespace Sys2Proof.Machine

/-- Puts the phase of the start. -/
def State.atPhase (s : State) (k : Nat) : State := s.setPwr { s.pwr with phase := k }

/-- Puts domains on. -/
def State.power (s : State) (l : List Nat) : State := l.foldl (fun s d => s.setDomain d 0) s

/-! ## Powering down -/

/-- Every domain but TOLLHOUSE, PCIE and STORE powers off, and the stacks enter self-refresh (R487, R495). -/
def State.powerDown (s : State) : State :=
  let s := s.dropRole 7
  let s := { s.dark with
    pair := s.pair.lost, pins := { s.pins with ilkOwn := false, osel := false }
    test := { s.test with prbs := [], running := [], results := [] } }
  let s := (List.range 4).foldl (fun s m => s.putStack m { s.stack m with selfRefresh := true }) s
  s.setPwr { s.pwr with
    domains := s.pwr.domains.filter (fun d => d.1 < 3), idle := [], plls := [], fwRuns := false, qwaits := [], draining := none, wakeQ := [], emptyAt := [], quietAt := []
    lowSince := none, gatedAt := [], modeReq := none, quiescing := false }

/-- SLIPWAY is entered (R484, R517): causes 1 both banks failed, 2 MODE_SET, 3 SLIPREQ_N. -/
def State.enterSlipway (s : State) (cause : Nat) : State :=
  let s := (s.dropSessions.powerDown).enterMode .slipway
  let b := s.fw.runBank
  let s := if (s.image b).state = 5 then s.putImage b { s.image b with state := 3 } else s
  let s := { s.setFw { s.fw with slipCause := cause } with host := { s.host with rom := true, ctrlAwake := false } }
  (s.setPwr { s.pwr with phase := 1, startDue := none, railsWait := false }).post 0x1F5 [d16 cause]

/-! ## Steps 3 to 5 -/

/-- An image whose verification passes at a start though nothing is known of it: the store held it before the model's first
step, so its fields are free (log 2, log 72). -/
def State.knowImage (s : State) (k : Nat) (patches : List PatchRec) : State :=
  let i := s.image k
  if i.state ≠ 0 then s
  else
    let (a, s) := s.draw
    let (b, s) := s.draw
    s.putImage k { i with
      state := 3, type := if k < 2 then 1 else 2, version := a.extractLsb' 0 32, keyid := a.extractLsb' 32 32
      patches := sortBy (fun p : PatchRec × Bool => p.1.slot) (patches.map (fun p => (p, false)))
      svn := bits b 6 0, baseSvn := bits b 6 0, payloadLen := bits b 31 7, rootSlot := bits b 33 32 }

/-- The cause with which the verification of an image ends at a start, where `report` tells what the crypto engine and the store find (R501,
R504, R509): a known image is checked by its fields as well, an unknown one (log 72) by its SVN alone. -/
def State.startCause (s : State) (k report : Nat) : Nat :=
  let i := s.image k
  if report ≠ 0 then report
  else if i.head.isEmpty then (if i.seen then 1 else if i.state ≠ 0 && i.svn < s.floor (imageObj k) then 8 else 0)
  else s.verifyCause k [] (i.patches.map Prod.fst)

/-- A bank verified at a start: the cause, 0 for a pass (R504). -/
def State.bootVerify (s : State) (k cause : Nat) : State :=
  if cause = 0 then
    let s := s.knowImage k []
    s.putImage k { s.image k with cause := 0, state := 3 }
  else s.putImage k { s.image k with cause, state := if (s.image k).state = 0 then 0 else 4 }

/-- Step 4 (R504): whether a bank passes and runs. -/
def State.bootImage (s : State) (r : StartReport) : Bool × State :=
  let cause (b : Nat) : Nat := s.startCause b (if b = 0 then r.causeA.toNat else r.causeB.toNat)
  let s := if s.fw.trial then
      let s := (s.setFw { s.fw with trial := false }).post 0x1F2 [d16 1]
      [0, 1].foldl (fun s b => if 6 ≤ (s.image b).state then s.putImage b { s.image b with state := 3 } else s) s
    else s
  let b := s.fw.bootBank
  let runs (s : State) (b : Nat) : State := (s.putImage b { s.image b with state := 5 }).setFw
    { (s.putImage b { s.image b with state := 5 }).fw with runBank := b }
  let s := s.bootVerify b (cause b)
  if cause b = 0 then
    let o := s.image (1 - b)
    (true, runs (if o.state = 5 then s.putImage (1 - b) { o with state := 3 } else s) b)
  else
    let s := (s.bootVerify (1 - b) (cause (1 - b))).post 0x1EB [d16 b, d16 (cause b)]
    if cause (1 - b) = 0 then (true, runs s (1 - b)) else (false, s)

/-- Step 5: the control complex is on, and the firmware serves the rings. -/
def State.firmwareUp (s : State) : State :=
  let s := s.setDomain 3 0
  { s.setPwr { s.pwr with fwRuns := true, watchdog := s.mono } with host := { s.host with rom := false, ctrlAwake := false } }

/-! ## Steps 6 to 9 -/

/-- Step 6: traffic die and stacks; on the exit from QUIESCENT the stacks leave self-refresh and are not trained (R487). -/
def State.stacksUp (s : State) (cold : Bool) (hbm : List (Fin 4 × Fin 64 × Bool)) : State :=
  let s := s.power [7, 10, 11, 12, 13]
  let s := (List.range 4).foldl (fun s m => s.putStack m { s.stack m with selfRefresh := false }) s
  ((if cold then s.hardRepairs else s).trainStacks hbm).atPhase 3

/-- Physical FD slices that no fence skips (R23). -/
def State.soundSlices (s : State) (fused : BitVec 17) : List Nat :=
  (List.range 17).filter (fun k => !fused.getLsbD k && !s.fd.gang.fenced.contains k)

/-- The FD mapping of a start (R23, R582): GEN advances if it changes the mapping (R24, R25). -/
def State.mapSlices (s : State) (ok : List Nat) : State :=
  let g := s.fd.gang
  let g1 : Gangway := { g with
    phys := slices.foldl (fun t l => tset idn t l (ok.getD l 0x1F)) []
    st := slices.foldl (fun t l => tset zn t l (if l < ok.length then 0 else 2)) []
    spare := ok.getD 16 0x1F }
  let s := s.setGang (if g1 = g then g1 else g1.gen2)
  slices.foldl (fun s l => if l < ok.length then s else s.post 0x0C2 [d16 l]) s

/-- The bank mapping of a cold start (R167): a bank out of service before it stays so. -/
def State.mapBanks (s : State) (fused : BitVec 68) : State :=
  let a := s.asc
  let used := (List.range 64).map s.bankPhys ++ a.spares
  let ok := (List.range 68).filter (fun b => used.contains b && !fused.getLsbD b)
  let rows := a.retired.filterMap (fun x => (ok.idxOf? (s.bankPhys x.1)).map (fun b => (b, x.2)))
  s.setAsc { a with
    phys := (List.range 64).foldl (fun t b => tset idn t b (ok.getD b b)) []
    spares := ok.drop 64, retired := rows.filter (fun x => x.1 < 64) }

/-- The microcode set of the running slot is loaded: it becomes the golden copy and goes into every half that is on; a patch that fails
its verification is left out (R212, R516). -/
def State.loadMicrocode (s : State) (patches : List PatchRec) (badPatches : List Nat) : State :=
  let k := 2 + s.fw.mcSlot
  let s := s.knowImage k patches
  let i := s.image k
  let ok (p : PatchRec) : Bool := !badPatches.contains p.slot
  let s := s.putImage k { i with state := 5, patches := i.patches.map (fun p => (p.1, ok p.1)) }
  let s := s.setEng { s.fd.eng with golden := [i.microSet 0 ok] }
  let s := (List.range 17).foldl (fun s y => s.loadSet y 0) s
  (i.patches.filter (fun p => !ok p.1)).foldl (fun s p => s.post 0x0CC [d16 p.1.slot]) s

/-- Steps 7 and 8 but for the microcode. -/
def State.slicesUp (s : State) (r : StartReport) (cold : Bool) : State :=
  let s := ((s.power [4, 5]).trainModules r.lanes).ageAnew (List.range 64)
  let ok := s.soundSlices r.fusedSlices
  let s := s.power (ok.flatMap (fun k => [ingressDomain k, ingressDomain k + 1]))
  let s := (s.mapSlices ok).mapHome
  (if cold then s.mapBanks r.fusedBanks else s).atPhase 4

/-- Step 9: the queue slices; every policer's bucket is full. -/
def State.queuesUp (s : State) : State := ((s.power (slices.map queueDomain)).atPhase 6).fillPunts

/-! ## Restore (R366, R369, R493) -/

/-- Stash entries of a cluster, oldest first as the image lists them. -/
def stashOrder (t : Tab XEnt) (c : Nat) : List Nat :=
  (t.filter (fun e => xStash c ≤ e.1 && e.1 < xBase (c + 1))).map (fun e => e.1 - xStash c)

/-- Values that commands left for blocks that were off are written into them (R456). -/
def State.applyHeld (s : State) : State :=
  let s := s.wr.held.foldl (fun s x => s.setCfgReg x.1 x.2) s
  { s with wr := { s.wr with held := [] } }

/-- FABRIC is on where a link is enabled (R475, R486). -/
def State.fabricUp (s : State) : State :=
  if (List.range 6).any (fun n => s.cfgReg (0xBF250020 + 4 * n) != 0) then s.fabricWake else s

/-- What runs on the restored configuration begins anew: ports, groups, sessions, shapers and meters. -/
def State.beginRun (s : State) : State :=
  let c := s.cfg
  let s := c.ports.foldl (fun s x => match x.2 with
    | some p =>
      let s := s.putPortRun x.1 { (default : PortRun) with seek := p.locks }
      if p.up then (s.setPort x.1 (some { p with up := false })).setAdmin x.1 true else s
    | none => s) (if c.ports.isEmpty then s else s.setDomain 6 0)
  let s := c.spans.foldl (fun s x => match x.2 with
    | some g => if g.up then (s.setSpan x.1 (some { g with up := false })).spanAdmin x.1 true else s
    | none => s) s
  let s := c.oam.foldl (fun s x => match x.2 with | some o => s.oamStart x.1 o | none => s) s
  let s := c.td.shapers.foldl (fun s x => s.putBucket x.1 ⟨x.2.burst, 0⟩) s
  let s := c.td.meters.foldl (fun s x => s.setMeter x.1 ⟨x.2.cbs, x.2.pbs, 0, 0⟩) s
  let s := [0, 1].foldl (fun s k => s.setCluster k { s.cluster k with order := stashOrder s.xt k }) s
  let s := s.fabricUp
  if c.pair.en then s.setDomain 9 0 else s

/-- The configuration of a checkpoint comes into effect. -/
def State.restoreCfg (s : State) (c : Ckpt) : State :=
  let g := c.incrs.headD c.full
  let s := { s with cfg := { g with fd := { g.fd with exact := g.fd.exact.map (fun e : Nat × XEnt => (e.1, { e.2 with stamp := 0 })) } } }
  let s := s.applyHeld
  let s := s.setEv { s.ev with
    mask := (List.range 16).foldl (fun m w => putBits m (32 * w + 31) (32 * w) (s.cfgReg (0x3F050100 + 4 * w)).toNat) s.ev.mask }
  s.mapHome.beginRun.fillPunts

/-- The mode of RESUME (R483). -/
def resumeMode : Nat → Mode
  | 1 => .standalone
  | 2 => .standby
  | _ => .boot

/-- A start ends, with event 0x000; after the tollhouse supply came into range it logs no change of mode (R488). -/
def State.startEnds (s : State) (code : Nat) (m : Mode) : State :=
  let t := s.enterMode m
  let s := if s.pwr.lastReset = 0 then { t with ev := s.ev } else t
  (s.setPwr { s.pwr with lastStart := code }).post 0x000 [d16 code, d16 s.pwr.lastReset]

/-- Every flow and route pair is zero (R404, R493). -/
def State.zeroFlow (s : State) : State := { s with cnt := { s.cnt with flow := [] } }

/-- The start is to be warm (R488, R491). -/
def State.wantsWarm (s : State) (k : StartKind) : Bool :=
  match k with
  | .cold => false
  | .warm | .quiescent => true
  | _ => s.store.warm

/-- What follows step 9 (R491, R493). -/
def State.afterStart (s : State) (k : StartKind) (newestBad : Bool) : State :=
  let s := if s.pwr.lastReset = 0 && k ≠ .quiescent then s.zeroFlow else s
  let cold (s : State) : State :=
    let t := (State.applyHeld { s.zeroFlow with cfg := s.cfg.cold }).fabricUp
    (if t.cfgReg 0x7F040004 = s.cfgReg 0x7F040004 then t else t.mapHome).fillPunts
  if !s.wantsWarm k then (cold s).startEnds 0 .boot
  else
    let old := if newestBad then s.store.ckpts.drop 1 else s.store.ckpts
    match old with
    | [] => ((cold { s with store := { s.store with ckpts := [] } }).post 0x002 []).startEnds 3 .boot
    | c :: _ =>
      let s := if newestBad then { s with store := { s.store with ckpts := old } }.post 0x001 [] else s
      if k = .quiescent then (s.restoreCfg c).startEnds 2 .boot
      else (s.restoreCfg c).startEnds 1 (resumeMode s.store.resume)

/-! ## The whole start -/

/-- A start fails at a phase (R492): the firmware runs, and the Yebel stays in BOOT. -/
def State.startFails (s : State) (k : Nat) : State := (s.atPhase k).post 0x003 [d16 k]

/-- Steps 6 to 9 and what follows. -/
def State.startDies (s : State) (k : StartKind) (r : StartReport) : State :=
  let at_ (n : Nat) : Bool := match r.failPhase with | some f => f.val == n || (n == 2 && f.val < 2) | none => false
  let cold := !s.wantsWarm k || (if r.newestBad then s.store.ckpts.drop 1 else s.store.ckpts).isEmpty
  if at_ 2 then s.startFails ((r.failPhase.map Fin.val).getD 2)
  else if at_ 3 then s.startFails 3
  else
    let s := s.stacksUp cold (if k = .quiescent then [] else r.hbmLanes)
    if at_ 4 then s.startFails 4
    else
      let s := s.slicesUp r cold
      if r.microcodeBad || s.startCause (2 + s.fw.mcSlot) 0 ≠ 0 then s.post 0x0CC [d16 0xFF]
      else
        let s := (s.loadMicrocode r.patches r.badPatches).queuesUp
        if at_ 5 then s.startFails 5 else s.afterStart k r.newestBad

/-- A start runs from step 3 on, where RAILS_OK lets it (R490, R567, R568). -/
def State.runStart (s : State) (r : StartReport) : State :=
  match s.pwr.startDue with
  | none => s
  | some k =>
    if !s.pins.railsOk then s.setPwr { s.pwr with railsWait := true }
    else
      let s := s.setPwr { s.pwr with railsWait := false, duration := min 65535 r.durationMs }
      let s := (s.power [1, 2]).atPhase 1
      let s := s.setPwr { s.pwr with agedAt := [] }
      let done (s : State) : State := s.setPwr { s.pwr with
        startDue := none, modeReq := s.pwr.modeReq.filter (·.cmd.isSome) }
      if (r.slipReq || !s.pins.slipReqN) && k ≠ .slipway && k ≠ .quiescent then s.enterSlipway 3
      else
        let s := if s.pwr.mode = Mode.boot then s else s.enterMode .boot
        match s.bootImage r with
        | (false, s) => s.enterSlipway 1
        | (true, s) => done ((s.firmwareUp.atPhase 2).startDies k r)

/-- START (R490). -/
def execStart (r : StartReport) (s : State) : Out := .next (s.runStart r)

/-- RAILS_OK_RISE (R567, R568): a start that waits goes on. -/
def execRailsOkRise (r : StartReport) (s : State) : Out :=
  let s := s.setPins { s.pins with railsOk := true }
  .next (if s.pwr.railsWait then s.runStart r else s)

end Sys2Proof.Machine
end

