-- ==== Sys2Proof/Machine/Modes.lean ====
section
/-! DEFINITION. The modes: MODE_SET, DRAIN and QUIESCENT (R317, R318, R327, R433, R484 to R488). -/

namespace Sys2Proof.Machine

/-- The transitions of R485 by their modes. -/
def modeLegal (cur new : Mode) : Bool :=
  match cur, new with
  | .boot, .standalone | .boot, .standby | .boot, .active | .boot, .test => true
  | .standalone, .drain | .active, .drain | .standby, .drain => true
  | .drain, .boot | .drain, .test | .drain, .standalone | .drain, .active | .drain, .standby => true
  | .active, .standby | .standby, .active | .test, .boot => true
  | .boot, .quiescent | .test, .quiescent | .drain, .quiescent => true
  | .quiescent, .boot | .boot, .slipway | .quiescent, .slipway | .slipway, .boot => true
  | _, _ => false

/-- A bank of the firmware holds a valid image (R518). -/
def State.bankValid (s : State) : Bool := (s.image 0).valid || (s.image 1).valid

/-- Why a MODE_SET to another mode answers MODE_WRONG (R485, R492, R518). -/
def State.modeWrong (s : State) (m : Mode) : Bool :=
  let cur := s.pwr.mode
  m != cur && (!modeLegal cur m || (cur == .boot && modeForwards m && s.pwr.phase != 6) || (cur == .slipway && !s.bankValid))

/-- A MODE_SET to ACTIVE of a member of an enabled pair is a claim (R327). -/
def State.isClaim (s : State) (m : Mode) : Bool := m == .active && s.cfg.pair.en

/-- Why it answers BUSY (R327, R485, R486). -/
def State.modeBusy (s : State) (m : Mode) : Bool :=
  let cur := s.pwr.mode
  m != cur && (s.pwr.modeReq.isSome
    || (cur == .drain && m != s.pwr.before && m != .quiescent && !s.queuesEmpty)
    || (m == .quiescent && (s.ckptBusy || s.rollStep))
    || (s.isClaim m && !s.claimConds))

/-- The checkpoint of an entry to QUIESCENT: incremental where a valid full one exists (R487). -/
def State.quiesceIncr (s : State) : Bool := !s.store.ckpts.isEmpty

/-- R365 refuses that checkpoint (R487). -/
def State.quiesceRefused (s : State) : Bool :=
  if s.quiesceIncr then s.mem.tokens < 1048576 * jByte else s.tooSoon s.time.ticks

/-- Puts a MODE_SET that has not taken effect. -/
def State.setModeReq (s : State) (r : Option ModeReq) : State := s.setPwr { s.pwr with modeReq := r }

/-- A MODE_SET that its checks accept. -/
def State.modeAccept (s : State) (h : Hdr) (p : List Word) (m : Mode) : State :=
  let cur := s.pwr.mode
  let reply (s : State) (code : Byte) : State := s.finish 0x002 h p.length code []
  let later (s : State) (prepared : Bool) : State :=
    s.setModeReq (some ⟨m, some ⟨0x002, h, p⟩, prepared⟩)
  if m = cur then reply s codeOk
  else if m = Mode.quiescent then
    let s := { s with mem := { s.mem with run := some ⟨s.quiesceIncr, 0, none, true⟩ } }
    reply (s.setPwr { s.pwr with modeReq := some ⟨m, none, false⟩, quiescing := true }) codeDeferred
  else if cur = Mode.quiescent && m == .boot then
    let s := s.setPins { s.pins with thermtripN := true }
    reply (s.setPwr { s.pwr with modeReq := some ⟨m, none, false⟩, startDue := some .quiescent, tripped := false }) codeDeferred
  else if cur = Mode.slipway then
    reply (s.setPwr { s.pwr with modeReq := some ⟨m, none, false⟩, startDue := some .slipway }) codeDeferred
  else if s.isClaim m then
    (later (s.setPair { s.pair with barred := false }) (cur == .standby)).noteHoldoff
  else if cur = Mode.standby && m == .active then reply (s.enterMode m) codeOk
  else if cur = Mode.active && m == .standby then reply ((s.dropRole 2).enterMode m) codeOk
  else later (if cur = Mode.active then s.dropRole 2 else s) false

/-- MODE_SET (R433, R485, R486). -/
def execModeSet (h : Hdr) (p : List Word) (s : State) : Out :=
  let m := modeOf (pf p 0 31 29)
  let checks : List (Bool × Byte) := [
    (p.length != 1 || pf p 0 28 0 != 0, codeBadParam), (h.priv == 2, codeNotPermitted), (s.modeWrong m, codeModeWrong),
    (s.modeBusy m, codeBusy), (m == .quiescent && m != s.pwr.mode && s.quiesceRefused, codeWear)]
  .next (match checks.find? (·.1) with
    | some c => s.finish 0x002 h p.length c.2 []
    | none => s.modeAccept h p m)

/-- The runs that leaving TEST stops: of the modules and the PCIe link, and of units in use (R551). -/
def State.leaveTest (s : State) : State :=
  let lanes := s.portList.flatMap (fun x => (List.range x.2.lanes).map (x.1 + ·))
  s.stopWhere (fun t u => t == 3 || t == 4 || (t == 0 && lanes.contains u)
    || (t == 1 && bit (s.cfgReg (0xBF250020 + 4 * (u / 32))) (u % 32)) || (t == 2 && s.cfg.pair.en)
    || (t == 5 && [0, 1].any (fun o => match s.session o with | some x => x.slip | none => false)))

/-- MODE_TRANSITION_COMPLETE (R327, R485): the preparation of the MODE_SET that runs is over. -/
def execModeTransitionComplete (s : State) : Out :=
  match s.pwr.modeReq with
  | none => .next s
  | some r =>
    .next (if r.cmd.isNone then s
      else if s.isClaim r.target then (s.setModeReq (some { r with prepared := true })).noteHoldoff
      else if r.target = Mode.slipway then
        let s := s.enterSlipway 2
        match r.cmd with
        | some c => s.finish c.op c.hdr c.par.length codeOk []
        | none => s
      else
        let s := if s.pwr.mode = Mode.test then s.leaveTest else s
        (((s.setPwr { s.pwr with drainSaid := false }).enterMode r.target).endModeReq r codeOk).judgeRole)

/-- QUIESCENT_ENTRY_COMPLETE (R487): the checkpoint is valid. -/
def execQuiescentEntryComplete (s : State) : Out :=
  .next (if s.pwr.quiescing && s.mem.run.isNone then s.powerDown.enterMode .quiescent else s)

/-- DRAIN_EMPTY (R487): every queue and multicast body is empty. -/
def execDrainEmpty (s : State) : Out :=
  .next (if s.pwr.mode = Mode.drain && !s.pwr.drainSaid && s.queuesEmpty then
      (s.setPwr { s.pwr with drainSaid := true }).post 0x005 [d32 0]
    else s)

/-- DRAIN_TIMEOUT (R487): 1 s after entry what remains is flushed. -/
def execDrainTimeout (s : State) : Out :=
  .next (if s.pwr.mode = Mode.drain && !s.pwr.drainSaid && s.pwr.drainAt + ms 1000 ≤ s.mono then
      let (n, s) := s.flushWhere 10 (fun _ => true)
      (s.setPwr { s.pwr with drainSaid := true }).post 0x005 [d32 n]
    else s)

end Sys2Proof.Machine
end

