-- ==== Sys2Proof/Machine/Time.lean ====
section
/-! DEFINITION. Device time: the tollhouse count, steps and slews, the 1PPS servo, and the capture FIFO (R379 to R388). -/

namespace Sys2Proof.Machine

/-- Puts the time. -/
def State.setTime (s : State) (t : Time) : State := { s with time := t }

/-- One nanosecond in the unit of `Time.sub`. -/
def subNs : Nat := 13421772800000

/-- Ends a DEVTIME second: each per-second rule begins anew (R385). -/
def Time.endSecond (t : Time) (next : Nat) : Time := { t with secNo := t.secNo + 1, secEnd := BitVec.ofNat 64 next }

/-- The first whole second above an instant. -/
def nextSecond (dev : Nat) : Nat := (dev / 1000000000 + 1) * 1000000000

/-- The count advances by ticks and slews, in the unit of `sub` (R380). -/
def Time.advance (t : Time) (d : Int) : Time :=
  let total := (t.sub : Int) + d
  let ns := total.fdiv subNs
  let t := { t with
    sub := (total.fmod subNs).toNat
    dev := t.dev + BitVec.ofInt 64 ns
    mono := ((t.mono : Int) + ns).toNat }
  if t.secEnd.toNat ≤ t.dev.toNat then t.endSecond (nextSecond t.dev.toNat) else t

/-- A slew of 100 ppm in one tick, in the unit of `sub` (R381). -/
def slewTick : Int := 26843545600

/-- What a running slew adds in a tick (R381). -/
def slewPart (rest : Int) : Int := if rest < 0 then max rest (-slewTick) else min rest slewTick

/-- One tick of the 50 MHz clock (R380). -/
def Time.tick (t : Time) : Time :=
  let part := match t.slew with | some r => slewPart r | none => 0
  let t := { t with
    ticks := t.ticks + 1
    slew := match t.slew with | some r => some (r - part) | none => none }
  t.advance (20 * subNs + t.freq * 4096 + part)

/-- DEVTIME steps to a value (R379, R385): the running second ends, and the next ends at the first whole second at
least 0.5 s later. -/
def Time.step (t : Time) (dev : Word64) : Time :=
  let t := { t with dev, tset := true }
  t.endSecond ((dev.toNat + 500000000 + 999999999) / 1000000000 * 1000000000)

/-- Begins a slew by an offset in ns, in place of any slew that runs (R381). -/
def Time.beginSlew (t : Time) (ofs : Int) : Time := { t with slew := if ofs = 0 then none else some (ofs * subNs) }

/-- SLEW_COMPLETE (R380, R381): the ticks have applied the whole offset, and the slew ends. -/
def execSlewComplete (s : State) : Out :=
  .next (if s.time.slew = some 0 then s.setTime { s.time with slew := none } else s)

/-- TIME_ADJ (R381). -/
def execTimeAdj (h : Hdr) (p : List Word) (s : State) : Out :=
  let op := pf p 0 31 30
  let v := par64 p 1
  let i := v.toInt
  let far := (op == 2 && 10000000 < i.natAbs) || (op == 3 && 65536000 < i.natAbs)
  .next (runSimple 0x910 h p (!devWide h || p.length != 3 || pf p 0 29 0 != 0 || far) (hdrUser h)
    (s.pwr.mode == .slipway) [(s.rf 0x3F020000 31 31 == 1, codeRunning)]
    (fun s => match op with
      | 0 => (s.setTime (s.time.step v)).post 0x018 [d16 0]
      | 1 => (s.setTime (s.time.step (s.now + v))).post 0x018 [d16 0]
      | 2 => s.setTime (s.time.beginSlew i)
      | _ => s.setTime { s.time with freq := i }) s)

/-! ## The servo (R382, R383) -/

/-- SRC of DEV_CLOCKS_TIMECFG. -/
def State.ppsOn (s : State) : Bool := s.rf 0x3F020000 31 31 == 1

/-- The servo's state; SRC = 1 begins in ACQUIRING (R382). -/
def State.servo (s : State) : Servo := if !s.ppsOn then .off else if s.time.servo = .off then .acquiring else s.time.servo

/-- A signed 16-bit field. -/
def signed16 (v : Nat) : Int := (BitVec.ofNat 16 v).toInt

/-- DEV_CLOCKS_TIMESTAT (R388). -/
def State.timeStat (s : State) : Word :=
  let t := s.time
  let e := max (-32768) (min 32767 t.phErr)
  mkWord [(1, b01 t.tset), (2, match s.servo with | .off => 0 | .acquiring => 1 | .locked => 2 | .holdover => 3),
    (1, b01 t.todOk), (12, 0), (16, (BitVec.ofInt 16 e).toNat)]

/-- FREQ lowered by e ÷ 8 ppb, which is e × 1,024 ÷ 125 of its units; where that is no whole number, the direction of the
rounding is free (R382, log 2). -/
def State.trim (s : State) (e : Int) : State :=
  let q := (e * 1024).fdiv 125
  if (e * 1024) % 125 = 0 then s.setTime { s.time with freq := s.time.freq - q }
  else
    let (v, s) := s.draw
    s.setTime { s.time with freq := s.time.freq - q - (v.toNat % 2 : Nat) }

/-- Enters HOLDOVER when three expected edges in a row are missing or discarded (R382). -/
def State.edgeLost (s : State) : State :=
  let t := { s.time with
    missed := s.time.missed + 1, good := 0, bad := 0
    lastSec := s.time.lastSec.map (· + 1)
    lastEdge := s.time.lastEdge.map (· + 1000000000#64) }
  if t.missed = 3 then (s.setTime { t with servo := .holdover }).post 0x01A [] else s.setTime t

/-- The seconds value of an edge, and whether a valid message gave it (R383). -/
def State.edgeLabel (s : State) : Option Nat × Bool :=
  match s.time.todNext with
  | some n => (some n, true)
  | none => (s.time.lastSec.map (· + 1), false)

/-- Notes the time-of-day of an edge (R383). -/
def State.noteTod (s : State) (sec : Option Nat) (valid : Bool) : State :=
  let n := if valid then 0 else s.time.noTod + 1
  let s := s.setTime { s.time with todOk := valid, todNext := none, lastSec := sec, noTod := n }
  if n = 3 then s.post 0x01B [] else s

/-- The servo acts on the error of an accepted edge (R382). -/
def State.servoAct (s : State) (e : Int) (first : Bool) : State :=
  let s := s.setTime { s.time with
    phErr := e
    good := if e.natAbs ≤ 50 then s.time.good + 1 else 0
    bad := if 1000 < e.natAbs then s.time.bad + 1 else 0 }
  if s.servo = .locked then
    let s := (s.setTime (s.time.beginSlew (-e))).trim e
    if 2 ≤ s.time.bad then (s.setTime { s.time with servo := .acquiring, good := 0, bad := 0 }).post 0x01D [d32i e] else s
  else
    let s := if first || 1000 < e.natAbs then
        let dev := s.now + BitVec.ofInt 64 (-e)
        (s.setTime { s.time.step dev with lastEdge := some dev }).post 0x018 [d16 1]
      else (s.setTime (s.time.beginSlew (-e))).trim e
    if 8 ≤ s.time.good then (s.setTime { s.time with servo := .locked, bad := 0 }).post 0x019 []
    else s.setTime { s.time with servo := .acquiring }

/-- Nanoseconds since the last edge came or was expected. -/
def State.edgeGap (s : State) (x : Word64) : Int := (s.now.toNat : Int) - x.toNat

/-- The window of the expected edge has closed (R382): 10 µs after it. DEDUCED (log 118). -/
def State.edgeOver (s : State) (x : Word64) : Bool := Decidable.decide (1000010000 < s.edgeGap x)

/-- PPS_EDGE (R382): the edge is captured now. An edge outside its window is discarded, and with it the expected edge where its
window has closed; one whose seconds value is not known yet only opens the next window. -/
def execPpsEdge (s : State) : Out :=
  if !s.ppsOn then .next s
  else
    let (sec, valid) := s.edgeLabel
    let inWin := match s.time.lastEdge with
      | none => true
      | some x => match s.servo with
        | .locked => (s.edgeGap x - 1000000000).natAbs ≤ 10000
        | .holdover => true
        | _ => 900000000 ≤ s.edgeGap x
    if !inWin then
      let s := (s.bump 4 0 6 1).setTime { s.time with discarded := s.time.discarded + 1 }
      .next (if (s.time.lastEdge.map s.edgeOver).getD false then s.edgeLost else s)
    else
      let first := s.time.lastSec.isNone && valid
      let held := s.servo == .holdover
      let s := (s.noteTod sec valid)
      let s := s.setTime { s.time with lastEdge := some s.now, missed := 0 }
      if held then .next (s.setTime { s.time with servo := .acquiring, good := 0, bad := 0 })
      else match sec with
        | none => .next s
        | some t =>
          let e : Int := (s.now.toNat : Int) - ((t : Int) * 1000000000 + signed16 (s.rf 0x3F020004 31 16))
          .next (s.servoAct e first)

/-- PPS_EDGE_MISSING (R382): an expected edge has not come by the end of its window. -/
def execPpsEdgeMissing (s : State) : Out :=
  .next (if s.ppsOn && (s.time.lastEdge.map s.edgeOver).getD false then s.edgeLost else s)

/-- A time-of-day message is valid but for its place between the edges (R383). -/
def todValid (m : List Byte) : Bool :=
  m.length == 16 && m.take 3 == [0x56, 0x54, 0x01] && byteAt m 3 % 2 == 1
    && beNat (m.drop 14) == (crc16 (m.take 14)).toNat

/-- TOD_MESSAGE_RECEIVE (R383). -/
def execTodMessageReceive (msg : List Byte) (s : State) : Out :=
  match s.time.lastEdge with
  | none => .next s
  | some x =>
    let d := s.now.toNat - x.toNat
    .next (if s.ppsOn && todValid msg && 100000000 ≤ d && d ≤ 900000000 then
        s.setTime { s.time with
          todNext := some (beNat ((msg.drop 4).take 6)), utcOff := BitVec.ofNat 16 (beNat ((msg.drop 10).take 2)) }
      else s)

/-- The 1PPS output is driven while TSET is 1, in every mode except SLIPWAY (R384). -/
def State.ppsDriven (s : State) : Bool := s.time.tset && s.pwr.mode != .slipway

/-- DEVTIME minus OUT_OFS has been a whole second within the last tick of 20 ns (R380, R384). -/
def State.wholeSecond (s : State) : Bool :=
  Decidable.decide (((s.now.toNat : Int) - signed16 (s.rf 0x3F020004 15 0)).fmod 1000000000 < 20)

/-- PPS_W in ns (R388). -/
def State.ppsWidth (s : State) : Nat := ms (max 1 (min 999 (s.rf 0x3F020000 29 20)))

/-- PPS_OUT_EDGE (R384): a rise at a whole second, a fall PPS_W later; an output that is not driven is low. -/
def execPpsOutEdge (rise : Bool) (s : State) : Out :=
  .next (if s.test.tapHolds then s
    else if !s.ppsDriven then { s with pins := { s.pins with ppsOut := false } }
    else if rise then
      if s.wholeSecond then { s.setTime { s.time with ppsRose := s.mono } with pins := { s.pins with ppsOut := true } } else s
    else if s.time.ppsRose + s.ppsWidth ≤ s.mono then { s with pins := { s.pins with ppsOut := false } }
    else s)

/-! ## Reading the time -/

/-- TIME_READ (R388). -/
def execTimeRead (h : Hdr) (p : List Word) (s : State) : Out :=
  let op := pf p 0 31 30
  .next (runCommand 0x911 h p (!devWide h || p.length != 1 || pf p 0 29 0 != 0 || 2 ≤ op) false (s.pwr.mode == .slipway) []
    (fun s =>
      if op = 0 then
        (s, codeOk, [s.now.extractLsb' 0 32, s.now.extractLsb' 32 32, BitVec.ofInt 32 s.time.freq, s.timeStat,
          s.time.utcOff.setWidth 32])
      else
        let l := s.time.fifo.take 32
        (s.setTime { s.time with fifo := s.time.fifo.drop 32 }, codeOk,
          BitVec.ofNat 32 l.length :: l.flatMap (fun c =>
            [mkWord [(7, c.port), (9, 0), (16, c.tag)], c.time.extractLsb' 0 32, c.time.extractLsb' 32 32]))) s)

end Sys2Proof.Machine
end

