-- ==== Sys2Proof/Machine/Rails.lean ====
section
/-! DEFINITION. Clocks, temperature, rails and ageing (R355, R473, R474, R488, R495, R496, R569, R570). -/

namespace Sys2Proof.Machine

/-- A level-7 event is a condition of YIELD_MASK (R319). -/
def State.alarmEvent (s : State) (src : Nat) (items : List (Nat × Nat)) : State := s.postYield src items

/-! ## Clocks -/

/-- REFCLK_LOSS (R473): the servo enters HOLDOVER. -/
def execRefclkLoss (s : State) : Out :=
  .next (if s.pwr.refLost || s.dead then s
    else
      let s := s.setPwr { s.pwr with refLost := true }
      let s := if s.ppsOn then s.setTime { s.time with servo := .holdover, good := 0, bad := 0 } else s
      s.alarmEvent 0x008 [])

/-- REFCLK_RESTORE (R473). -/
def execRefclkRestore (s : State) : Out :=
  .next (if s.pwr.refLost then (s.setPwr { s.pwr with refLost := false }).post 0x009 [] else s)

/-- Domains of a fast PLL (R472). -/
def pllDomains (k : Nat) : List Nat := (List.range 64).filter (fun d => pllOf d == some k)

/-- A PLL's state. -/
def State.pll (s : State) (k : Nat) : Pll := tget dflt s.pwr.plls k
def State.putPll (s : State) (k : Nat) (x : Pll) : State := s.setPwr { s.pwr with plls := tset dflt s.pwr.plls k x }

/-- The packets that the domains of a stopped PLL hold are dropped (R474): in the forwarding die those of the gangway and the
slices, in the traffic die those of the crossbar, the queues and the fabric, on the die-to-die interface those under way. -/
def State.emptyClocked (s : State) (k : Nat) : State :=
  match k with
  | 0 =>
    let f := s.fd
    let s := s.fd.gang.moves.foldl (fun s m => m.held.foldl (fun s p => (s.drop 0 p.pkt.port 16 m.target p.pkt.bytes.length).leave p)
      (s.setGang { s.fd.gang with moves := s.fd.gang.moves.map (fun x => { x with held := [] }) })) s
    let s := f.gang.rollHeld.foldl (fun s p => (s.drop 0 p.pkt.port 16 0 p.pkt.bytes.length).leave p)
      (s.setGang { s.fd.gang with rollHeld := [] })
    let s := slices.foldl (fun s l => s.dropSlice l) s
    s.setEng { s.fd.eng with egress := [], tx := [] }
  | 1 =>
    let s := (s.flushWhere 10 (fun _ => true)).2
    { s with td := { s.td with
        xb := { s.td.xb with pkts := [], packs := [], voqs := [], rx := [], crossing := [], arrived := [] }
        tallies := [], fab := { s.td.fab with streams := [], ctxs := [], ready := [], deferred := [] } } }
  | 7 => s.setD2d { s.fd.d2d with flight := [], order := [] }
  | _ => s

/-- No rule names a counter for them (R407). -/
def State.dropHeld (s : State) (k : Nat) : State := { s.emptyClocked k with cnt := s.cnt }

/-- PLL_LOCK_LOSS (R474): the clock of every domain on the PLL stops. -/
def execPllLockLoss (pll : Fin 8) (s : State) : Out :=
  let x := s.pll pll
  .next (if x.stopped || x.dead || !(pllDomains pll).any (fun d => s.domain d < 2) then s
    else
      let s := s.dropHeld pll
      let s := (s.putPll pll { x with stopped := true }).alarmEvent 0x00A [d16 pll]
      if pll = 2 then s.ctrlReset else s)

/-- PLL_RELOCK (R474): the third failure within 1 s leaves the PLL stopped and its domains off until the next start. -/
def execPllRelock (pll : Fin 8) (ok : Bool) (s : State) : Out :=
  let x := s.pll pll
  .next (if !x.stopped || x.dead then s
    else if ok then s.putPll pll { x with stopped := false }
    else
      let fails := (x.fails.filter (fun t => s.mono < t + ms 1000)) ++ [s.mono]
      if fails.length < 3 then s.putPll pll { x with fails }
      else
        let s := s.putPll pll { x with fails, dead := true }
        (pllDomains pll).foldl (fun s d => if s.supplied d = 2 then s else s.setDomain d 2) s)

/-! ## Temperature (R355, R495, R488) -/

/-- WARN and TRIP as they act: values outside act as the nearer end (R495). -/
def State.warnLimit (s : State) : Nat := max 60 (min 110 (s.rf 0x3F030030 31 24))
def State.tripLimit (s : State) : Nat := max 100 (min 125 (s.rf 0x3F030030 23 16))

/-- The thermal trip (R488, R495): the dies power down without a checkpoint. -/
def State.thermalTrip (s : State) (reading : Int) : State :=
  let s := (s.dropRole 7).setPins { s.pins with thermtripN := false }
  let s := (s.setPwr { s.pwr with tripped := true, lastReset := 4, startDue := none, railsWait := false }).post 0x00E [d16i reading]
  (s.cutCkpt.powerDown).enterMode .quiescent

/-- THERMAL_SAMPLE (R495): the highest of the 48 readings, in °C. -/
def execThermalSample (reading : Int) (s : State) : Out :=
  let s := s.setPwr { s.pwr with junction := reading.toNat }
  if s.dead then .next s else
  let s :=
    if (s.warnLimit : Int) < reading then
      let s := s.setPwr { s.pwr with coolSince := none }
      if s.pwr.warnHeld then s else (s.setPwr { s.pwr with warnHeld := true }).alarmEvent 0x00D [d16i reading]
    else if s.pwr.warnHeld && reading ≤ (s.warnLimit : Int) - 5 then
      match s.pwr.coolSince with
      | none => s.setPwr { s.pwr with coolSince := some s.mono }
      | some t => if t + ms 1000 ≤ s.mono then (s.setPwr { s.pwr with warnHeld := false, coolSince := none }).post 0x00F [] else s
    else s.setPwr { s.pwr with coolSince := none }
  .next (if (s.tripLimit : Int) < reading && !s.pwr.tripped then s.thermalTrip reading else s)

/-- HBM_TEMPERATURE_CHANGE (R355, R573): above 85 °C refresh is doubled, and above 95 °C event 0x1C5 holds the alarm. -/
def execHbmTemperatureChange (m : Fin 4) (reading : Int) (s : State) : Out :=
  let was := tget zn s.pwr.hbmTemp m
  let s := s.setPwr { s.pwr with hbmTemp := tset zn s.pwr.hbmTemp m reading.toNat }
  .next (if was ≤ 95 && 95 < reading.toNat then s.alarmEvent 0x1C5 [d16 m] else s)

/-! ## Rails (R496, R566, R569) -/

/-- A rail, by the rows of R566 from 0. -/
def State.rail (s : State) (k : Nat) : Rail := tget dflt s.pwr.rails k
def State.putRail (s : State) (k : Nat) (x : Rail) : State := s.setPwr { s.pwr with rails := tset dflt s.pwr.rails k x }

/-- The AVS rails VDD_FD, VDD_TD and VDD_D2D are rows 6 to 8 of R566, and the rails before row 2 have no regulator to poll. -/
def avsRow (rail : Nat) : Nat := 6 + rail

/-- What an AVS rail is set to, in mV (R569, R570). -/
def State.avsSet (s : State) (rail : Nat) : Nat := Config.avsTarget rail + 5 * tget zn s.pwr.avsSteps rail

/-- A reading within a rail's window (R566). -/
def State.railInside (s : State) (k mv : Nat) : Bool :=
  let near (nom tenths : Nat) : Bool := nom * (1000 - tenths) ≤ mv * 1000 && mv * 1000 ≤ nom * (1000 + tenths)
  match k with
  | 0 => near 800 30
  | 1 => near 1800 50
  | 2 => near 1200 30
  | 3 => near 1800 30
  | 4 => near 1050 30
  | 5 => near 750 30
  | 9 => near 900 30
  | 10 => near 1200 30
  | _ => s.avsSet (k - 6) ≤ mv + 25 && mv ≤ s.avsSet (k - 6) + 25

/-- RAIL_OUT_OF_WINDOW (R496, R568): outside for 10 µs while RAILS_OK stays high. -/
def execRailOutOfWindow (rail : Fin 11) (s : State) : Out :=
  let x := s.rail rail
  .next (if x.out || !s.pins.railsOk || s.dead then s else (s.putRail rail { x with out := true }).alarmEvent 0x00B [d16 rail])

/-- STATUS_WORD of PMBus reports a fault. PRESUMED (log 74): any bit but BUSY. -/
def statusFault (st : BitVec 16) : Bool := (st &&& 0xFF7F#16) != 0

/-- The fault of a regulator begins or ends (R496). -/
def State.railFault (s : State) (k : Nat) (on : Bool) : State :=
  let x := s.rail k
  let s := s.putRail k { x with fault := on }
  if on && !x.fault then s.alarmEvent 0x00C [d16 k] else s

/-- The tollhouse polls a regulator: it has one, its rail is to be up (R568), and 10 ms have passed since the last poll (R569). -/
def State.polls (s : State) (k : Nat) : Bool :=
  2 ≤ k && s.pins.railsOk && !s.dead && (match (s.rail k).polled with | some t => t + ms 10 ≤ s.mono | none => true)

/-- PMBUS_POLL (R569): a regulator's answer, or none; a reading inside the window ends event 0x00B's condition. -/
def execPmbusPoll (rail : Fin 11) (answer : Option RailReading) (s : State) : Out :=
  if !s.polls rail then .next s
  else match answer with
    | none =>
      let x := s.rail rail
      let s := s.putRail rail { x with missed := x.missed + 1, polled := some s.mono }
      .next (if 2 ≤ x.missed then s.railFault rail true else s)
    | some a =>
      let x := s.rail rail
      let s := s.putRail rail { x with
        missed := 0, polled := some s.mono, milliVolt := a.milliVolt, milliAmp := a.milliAmp, out := x.out && !s.railInside rail a.milliVolt }
      .next (s.railFault rail (statusFault a.status))

/-- PMB_ALERT (R569): STATUS_WORD is read after PMB_ALERT_N falls. -/
def execPmbAlert (rail : Fin 11) (status : BitVec 16) (s : State) : Out :=
  .next (if rail.val < 2 || !s.pins.railsOk || s.dead then s
    else s.railFault rail (statusFault status || (s.rail rail).fault))

/-- Package power in W: the polled rails and 3 W for the group-1 rails (R569). -/
def State.packagePower (s : State) : Nat :=
  (((List.range 11).drop 2).map (fun k => (s.rail k).milliVolt * (s.rail k).milliAmp)).sum / 1000000 + 3

/-- A measurement of a core rail is due: the first since the start, or 24 h after the last (R570). -/
def State.ageingDue (s : State) (rail : Nat) : Bool :=
  !s.dead && (tget zn s.pwr.agedAt rail == 0 || tget zn s.pwr.agedAt rail + dayNs ≤ s.mono + 1)

/-- AGEING_MEASURE (R570): the shortfall of a core rail's ring oscillators, in 0.1 %; at most one step. -/
def execAgeingMeasure (rail : Fin 3) (short : Nat) (s : State) : Out :=
  if !s.ageingDue rail then .next s else
  let s := s.setPwr { s.pwr with agedAt := tset zn s.pwr.agedAt rail (s.mono + 1) }
  let n := tget zn s.pwr.avsSteps rail
  .next (if short ≤ 10 || 8 ≤ n || (s.rail (avsRow rail)).alarms then s
    else
      let s := s.setPwr { s.pwr with avsSteps := tset zn s.pwr.avsSteps rail (n + 1) }
      let most := ((List.range 3).map (tget zn s.pwr.avsSteps)).foldl max 0
      let was := s.spareUsed 11
      let s := s.post 0x1D5 [d16 (avsRow rail), d16 (n + 1)]
      let s := if was < most then s.takeSpare 11 else s
      let s := s.recordLife 11 0 (lifeLoc 0 0x3F rail 0) n (n + 1) (8 - (n + 1))
      if n + 1 = 6 then s.post 0x1D6 [d16 (avsRow rail)] else s)

end Sys2Proof.Machine
end

