-- ==== Sys2Proof/Machine/Ferry.lean ====
section
/-! DEFINITION. The ferryman, idle gating, and the power commands and registers (R475 to R483, R494). -/

namespace Sys2Proof.Machine

/-- One percent in the unit in which utilisation is kept (R478). -/
def pctUnit : Nat := 600000

/-- The figure of `bytes` and `packets` that counts every byte and 20 more a packet, in that unit: 160,000,000 in a window is
100 % (R478). -/
def byteUse (bytes packets : Nat) : Nat := (bytes + 20 * packets) * 3

/-- u of a half (R478). -/
def sliceUse (x : SliceUse) : Nat := max (byteUse x.bytes x.packets) (max (x.packets * 250) (x.cycles * pctUnit))

/-- Slices that the ferryman may not drain: deep ones, and those that hold a pinned bucket (R479). -/
def State.kept (s : State) (l : Nat) : Bool :=
  (s.deepOn && s.deepSlices.contains l) || s.fd.gang.pins.any (fun b => b.2 && s.bucketSlice b.1 == l)

/-- The modes in which the ferryman runs, and what it yields to (R480). -/
def State.ferryRuns (s : State) : Bool := s.cfg.ferry.en && modeForwards s.pwr.mode && !s.rollStep && !s.fenceRuns

/-- Halves the ferryman keeps in service (R479). -/
def State.ferryNeed (s : State) (u : Nat) : Nat :=
  let f := s.cfg.ferry
  let d := (slices.filter (fun l => s.hasPhys l && s.kept l)).length
  max f.minSlices (max d ((u + f.high * pctUnit - 1) / (f.high * pctUnit)))

/-- Wakes halves: gated ones first, the lowest logical slice first (R479). -/
def State.ferryWake (s : State) (n : Nat) : State :=
  let idle (st : Nat) : List Nat := slices.filter (fun l => s.hasPhys l && s.sliceSt l == st && !s.fd.gang.wakes.contains l)
  ((idle 1 ++ idle 2).take n).foldl (fun s l =>
    let s := s.setGang { s.fd.gang with wakes := s.fd.gang.wakes ++ [l] }
    let s := s.setPwr { s.pwr with lastSlice := l, lastAct := s.now }
    if s.domain (ingressDomain (s.physOf l)) = 3 then s else s.wakeHalf l) s

/-- Begins to drain the highest-numbered slice that may be drained (R479). -/
def State.ferryDrain (s : State) : State :=
  match (s.inService.filter (fun l => !s.kept l)).getLast? with
  | none => s
  | some l =>
    let s := s.setSliceSt l 3
    let bs := s.bucketsOf l
    let s := s.setGang { s.fd.gang with drains := s.fd.gang.drains ++ s.targets l bs s.fd.gang.use }
    (s.setPwr { s.pwr with draining := some l, lastDrain := some s.mono, lastSlice := l, lastAct := s.now }).pumpMoves

/-- What a window measured is kept (R478): use by logical slice, load by bucket, and the use of all. -/
def State.ferryMeasure (s : State) (uses : List SliceUse) (buckets : List (Nat × Nat)) : State :=
  let on := s.inService
  let use := slices.foldl (fun t l => tset zn t l (if on.contains l then ((uses[l]?).map sliceUse).getD 0 else 0)) []
  let load := buckets.foldl (fun t b => if b.1 < 4096 then tset zn t b.1 (b.2 * 3) else t) []
  let s := s.setGang { s.fd.gang with use, load }
  s.setPwr { s.pwr with util := min 1600 ((slices.map (tget zn use)).sum / pctUnit) }

/-- FERRYMAN_WINDOW (R478, R479): what the window of 100 µs of DEVTIME that has ended measured, by logical slice, and the bytes and
20 a packet of each bucket. -/
def execFerrymanWindow (uses : List SliceUse) (buckets : List (Nat × Nat)) (s : State) : Out :=
  let w := s.now.toNat / 100000
  if s.domain 5 ≠ 0 || w = s.pwr.window then .next s
  else
  let s := (s.setPwr { s.pwr with window := w }).ferryMeasure uses buckets
  if !s.ferryRuns then .next s
  else
    let need := s.ferryNeed (slices.map (tget zn s.fd.gang.use)).sum
    let have_ := s.inService.length + s.fd.gang.wakes.length
    if have_ < need then .next ((s.setPwr { s.pwr with lowSince := none }).ferryWake (need - have_))
    else if need < have_ then
      let since := s.pwr.lowSince.getD (s.mono - 100000)
      let s := s.setPwr { s.pwr with lowSince := some since }
      let rested := match s.pwr.lastDrain with | some t => t + ms 1 ≤ s.mono | none => true
      let free := s.pwr.draining.isNone && s.fd.gang.cmd.isNone && s.fd.gang.drains.isEmpty && !s.fd.gang.moves.any (·.drain)
      .next (if since + ms s.cfg.ferry.downMs ≤ s.mono && rested && free then s.ferryDrain else s)
    else .next (s.setPwr { s.pwr with lowSince := none })

/-- An ingress half holds no packet. -/
def State.ingressEmpty (s : State) (l : Nat) : Bool :=
  (tget nil0 s.fd.gang.staging l).isEmpty && !s.fd.eng.threads.any (fun t => t.slice == l && t.eg.isNone)

/-- FERRYMAN_DRAIN_COMPLETE (R479): the drained half is gated. -/
def execFerrymanDrainComplete (s : State) : Out :=
  match s.pwr.draining with
  | none => .next s
  | some l =>
    .next (if !(s.bucketsOf l).isEmpty || !s.ingressEmpty l then s
      else
        let s := (s.setSliceSt l 1).setDomain (ingressDomain (s.physOf l)) 1
        (s.setPwr { s.pwr with
          draining := none, gatedAt := tset zn s.pwr.gatedAt l (s.mono + 1), lastSlice := l, lastAct := s.now }).post 0x020 [d16 l])

/-- FERRYMAN_POWER_OFF (R479): a half gated for OFF_MS. -/
def execFerrymanPowerOff (slice : Fin 16) (s : State) : Out :=
  let f := s.cfg.ferry
  let l := slice.val
  .next (if s.ferryRuns && f.off && s.sliceSt l == 1 && !s.fd.gang.wakes.contains l
      && tget zn s.pwr.gatedAt l + ms f.offMs ≤ s.mono + 1 then
      let s := (s.setSliceSt l 2).setDomain (ingressDomain (s.physOf l)) 2
      (s.setPwr { s.pwr with gatedAt := tdel s.pwr.gatedAt l, lastAct := s.now }).post 0x022 [d16 l]
    else s)

/-- The input of an FD half or a queue slice is empty (R481). -/
def State.inputEmpty (s : State) (d : Nat) : Bool :=
  if 48 ≤ d then s.td.q.all (fun q => sliceOfQ q.1 != d - 48 || q.2.ents.isEmpty)
  else match slices.find? (fun l => s.physOf l == (d - 14) / 2) with
    | some l => if d % 2 = 0 then s.ingressEmpty l
      else (tget nil0 s.fd.eng.egress l).isEmpty && !s.fd.eng.threads.any (fun t => t.slice == l && t.eg.isSome)
    | none => true

/-- IDLE_GATE (R481): a half or queue slice in service whose input has been empty for 2 µs. -/
def execIdleGate (dom : Fin 64) (s : State) : Out :=
  let d := dom.val
  .next (if s.cfg.ferry.idle && 14 ≤ d && s.domain d == 0 && s.inputEmpty d && !s.pwr.idle.contains d
      && (tfind s.pwr.emptyAt d).any (fun t => Decidable.decide (t + 2000 ≤ s.mono)) then
      s.setPwr { s.pwr with idle := s.pwr.idle ++ [d] }
    else s)

/-- Every queue of a queue slice is disabled and empty (R482). -/
def State.sliceQuiet (s : State) (n : Nat) : Bool :=
  s.cfg.td.queues.all (fun q => sliceOfQ q.1 != n || !q.2.en) && s.inputEmpty (queueDomain n)

/-- A tick notes since when inputs have been empty and queue slices quiet, where a setting asks for it (R481, R482). -/
def State.noteIdle (s : State) : State :=
  let note (on : Bool) (t : Tab Nat) (k : Nat) : Tab Nat :=
    if on then (match tfind t k with | some _ => t | none => tins t k s.mono) else tdel t k
  let f := s.cfg.ferry
  if !f.idle && !f.qoff then (if s.pwr.emptyAt.isEmpty && s.pwr.quietAt.isEmpty then s else s.setPwr { s.pwr with emptyAt := [], quietAt := [] })
  else s.setPwr { s.pwr with
    emptyAt := if f.idle then ((List.range 50).map (· + 14)).foldl (fun t d => note (s.domain d == 0 && s.inputEmpty d) t d) s.pwr.emptyAt else []
    quietAt := if f.qoff then (List.range 16).foldl (fun t n => note (s.sliceQuiet n) t n) s.pwr.quietAt else [] }

/-- QUEUE_SLICE_POWER_OFF (R482): every queue of the slice has been disabled and empty for 1 ms. -/
def execQueueSlicePowerOff (n : Fin 16) (s : State) : Out :=
  let d := queueDomain n.val
  .next (if s.cfg.ferry.qoff && s.domain d == 0 && s.sliceQuiet n.val
      && (tfind s.pwr.quietAt n.val).any (fun t => Decidable.decide (t + ms 1 ≤ s.mono)) then
      let s := s.stir d
      { s.setDomain d 2 with td := { s.td with q := s.td.q.filter (fun q => sliceOfQ q.1 != n.val) } }
    else s)

/-- EN goes from 1 to 0 (R483): every half wakes, and every unpinned bucket returns to its home slice. -/
def State.ferryStop (s : State) : State :=
  let s := match s.pwr.draining with | some l => s.stopDrain l | none => s
  let s := s.ferryWake 16
  let back := (List.range 4096).filterMap (fun b =>
    if s.bucketSlice b = s.homeSlice b || tget noB s.fd.gang.pins b then none else some (b, s.homeSlice b))
  (s.setGang { s.fd.gang with drains := s.fd.gang.drains.filter (fun x => !back.any (·.1 == x.1)) ++ back }).pumpMoves

/-- The Ferryman's policy of PWR_POLICY with SEL 0 (R483). -/
def ferryCfgOf (p : List Word) : FerryCfg :=
  let b (i : Nat) : Bool := bit (par p 0) i
  ⟨b 29, b 28, b 27, b 26, pf p 0 25 21, pf p 0 20 14, pf p 1 31 20, pf p 1 19 4⟩

/-- PWR_POLICY (R483). -/
def execPwrPolicy (h : Hdr) (p : List Word) (s : State) : Out :=
  let sel := pf p 0 31 30
  let f := ferryCfgOf p
  let bad0 := pf p 0 13 0 != 0 || pf p 1 3 0 != 0 || f.minSlices == 0 || 16 < f.minSlices || f.high < 50 || 95 < f.high
    || f.downMs == 0
  let bad1 := pf p 0 26 0 != 0 || pf p 0 28 27 == 3 || par p 1 != 0
  .next (runSimple 0xE00 h p (!devWide h || p.length != 2 || 2 ≤ sel || (sel == 0 && bad0) || (sel == 1 && bad1)) (hdrUser h)
    (s.pwr.mode == .slipway) []
    (fun s =>
      if sel = 1 then { s with store := { s.store with warm := bit (par p 0) 29, resume := pf p 0 28 27 } }
      else
        let was := s.cfg.ferry.en
        let s := { s with cfg := { s.cfg with ferry := f } }
        if was && !f.en then s.ferryStop else s) s)

/-! ## Registers -/

/-- DEV_POWER_DOMSTATn (R477, R481): a clock gated while idle reads gated. -/
def State.domStat (s : State) (n : Nat) : Word :=
  mkWord ((List.range 16).reverse.map (fun i =>
    let d := 16 * n + i
    (2, if s.pwr.idle.contains d && s.domain d == 0 then 1 else s.domain d)))

/-- DEV_POWER_FERRYSTAT (R483). -/
def State.ferryStat (s : State) : Word :=
  let k (st : Nat) : Nat := (slices.filter (fun l => s.sliceSt l == st)).length
  mkWord [(5, k 0 + k 3), (5, k 1), (5, k 2), (1, b01 s.pwr.draining.isSome), (4, s.pwr.lastSlice), (1, 0), (11, s.pwr.util)]

/-- The code of LASTSTART and its neighbours: DEV_POWER_STARTSTAT (R493). -/
def State.startStat (s : State) : Word :=
  mkWord [(3, s.pwr.phase), (3, s.pwr.lastReset), (2, s.pwr.lastStart), (1, b01 s.store.warm), (2, s.store.resume), (5, 0),
    (16, s.pwr.duration)]

/-- PWR_STATUS (R494). -/
def execPwrStatus (h : Hdr) (p : List Word) (s : State) : Out :=
  .next (runCommand 0xE01 h p (!p.isEmpty) false (s.pwr.mode == .slipway) []
    (fun s =>
      let hbm := ((List.range 4).map (tget zn s.pwr.hbmTemp)).foldl max 0
      (s, codeOk, (List.range 4).map s.domStat ++ [s.ferryStat, s.startStat,
        mkWord [(16, s.packagePower), (8, min 255 s.pwr.junction), (8, min 255 hbm)], s.pwr.lastAct.extractLsb' 0 32])) s)

end Sys2Proof.Machine
end

