-- ==== Sys2Proof/Machine/Test.lean ====
section
/-! DEFINITION. Link test, self-test and boundary scan (R544 to R559). -/

namespace Sys2Proof.Machine

/-! ## Patterns (R545, R549 to R552) -/

/-- Why PRBS_CFG answers BAD_PARAM (R549, R550): its fields, and the loopbacks that its TYPE has (R544). -/
def prbsBad (h : Hdr) (p : List Word) : Bool :=
  let type := pf p 0 31 29
  let mode := pf p 1 31 30
  let dur := pf p 1 15 0
  let loop := pf p 0 4 3
  !devWide h || p.length != 2 || 6 ≤ type || prbsUnits type < pf p 0 28 20 + pf p 0 19 12 + 1 || 7 ≤ pf p 0 9 6 || pf p 0 2 0 != 0
    || loop == 3 || (loop == 2 && (bit (par p 0) 11 || type == 3 || type == 4))
    || (mode == 2 && (pf p 1 29 26 < 3 || 12 < pf p 1 29 26)) || (mode == 3 && pf p 1 25 16 == 0)
    || (if type = 4 then dur == 0 || 10000 < dur else dur != 0)

/-- A command that stops its units (R549). -/
def prbsStops (w : Word) : Bool := !bit w 11 && !bit w 10 && bits w 4 3 == 0

/-- The units of a command: those of its range, and the whole PCIe link (R544). -/
def prbsRange (w : Word) : List Nat :=
  if bits w 31 29 = 4 then [0, 1, 2, 3, 4, 5, 6, 7] else (List.range (bits w 19 12 + 1)).map (bits w 28 20 + ·)

/-- A unit carries traffic or waits for it (R550). -/
def State.unitUsed (s : State) (type u : Nat) : Bool :=
  match type with
  | 0 => s.portList.any (fun x => x.1 ≤ u && u < x.1 + x.2.lanes)
  | 1 => bit (s.cfgReg (0xBF250020 + 4 * (u / 32))) (u % 32)
  | 2 => s.cfg.pair.en
  | 5 => [0, 1].any (fun o => match s.session o with | some x => x.slip | none => false)
  | _ => false

/-- Fewer than 17 modules would stay outside the test (R41, R550). -/
def State.modulesLeft (s : State) (w : Word) : Bool :=
  let out (m : Nat) : Bool := s.fd.d2d.retired.contains m || (s.prbs 3 m).runs || (prbsRange w).contains m
  ((List.range 24).filter (fun m => !out m)).length < 17

/-- Errors that an insertion of MODE 1 or 3 puts on a lane at the command (R548). -/
def insertedNow (ins : Word) : Nat :=
  match bits ins 31 30 with
  | 1 => 1
  | 3 => bits ins 25 16
  | _ => 0

/-- PRBS_CFG on one unit (R549); `seed` is the state that a new run begins with. -/
def Prbs.configure (x : Prbs) (p0 p1 : Word) (seed : BitVec 31) : Prbs :=
  if prbsStops p0 then { x with cfg := 0, lock := false }
  else if x.cfg = p0 then
    let x := { x with ins := p1, sent := 0 }
    if x.loop = 1 && x.gen then x.count 0 (insertedNow p1) else x
  else ⟨p0, p1, false, 0, 0, 0, 0, seed⟩

/-- PCIe near-end loopback takes the link out of L0 once the reply is written (R547). -/
def State.loopStarts (s : State) : State :=
  let x := s.prbs 4 0
  let on := x.runs && x.loop == 1
  { s with host := { s.host with loopback := on, loopAt := if on && !s.host.loopback then s.mono else s.host.loopAt } }

/-- Bits of SSPRQ: 65,535 symbols of two bits. PRESUMED (log 119): IEEE 802.3's. -/
def ssprqBits : Nat := 131070

/-- Bits that came `t` places before, in a window of the newest bits first (R545). -/
def patTaps : Nat → List Nat
  | 0 => [7, 6]
  | 1 => [9, 5]
  | 2 => [13, 12, 2, 1]
  | 3 => [15, 14]
  | 4 => [23, 18]
  | _ => [31, 28]

/-- The degree of a PRBS pattern. -/
def patDegree (pat : Nat) : Nat := (patTaps pat).headD 0

/-- The bit of a PRBS pattern that follows the bits before it, newest first (R545). -/
def patNext (pat : Nat) (w : List Bool) : Bool := (patTaps pat).foldl (fun a t => a != w.getD (t - 1) false) false

/-- The next bits of a free-running generator (R545). -/
def patRun (pat : Nat) : Nat → List Bool → List Bool
  | 0, _ => []
  | n + 1, w => patNext pat w :: patRun pat n (patNext pat w :: w.take (patDegree pat - 1))

/-- A generator's state that a run begins with: any but all zeros in the bits of the shortest pattern (R545). -/
def seedOf (v : BitVec 64) : BitVec 31 := if v.extractLsb' 0 7 = 0 then 1 else v.extractLsb' 0 31

/-- The first bits of a run's pattern, before insertion (R545, R549). SSPRQ is IEEE 802.3's sequence, from a free place. -/
def Prbs.pattern (x : Prbs) (n : Nat) : List Bool :=
  let pat := bits x.cfg 9 6
  let w := if pat = 6 then (List.range n).map (fun i => Config.ssprq ((x.seed.toNat + i) % ssprqBits))
    else patRun pat n ((List.range (patDegree pat)).map x.seed.getLsbD)
  w.map (fun b => b != bit x.cfg 5)

/-- Whether the transmitter inverts the bit of an index, counted from the command (R548). -/
def errAt (ins : Word) (i : Nat) : Bool :=
  match bits ins 31 30 with
  | 1 => i == 0
  | 2 => (i + 1) % 10 ^ bits ins 29 26 == 0
  | 3 => i < bits ins 25 16
  | _ => false

/-- The level of two bits on a PAM4 link, the first the most significant: Gray coding (R544). -/
def grayLevel : Bool → Bool → Fin 4
  | false, false => 0
  | false, true => 1
  | true, true => 2
  | true, false => 3

/-- The two bits of a level. -/
def grayBits : Fin 4 → List Bool
  | 0 => [false, false]
  | 1 => [false, true]
  | 2 => [true, true]
  | 3 => [true, false]

/-- The bits of a TYPE's symbols (R544). -/
def symbolBits (type : Nat) (l : List (Fin 4)) : List Bool := if type < 3 then l.flatMap grayBits else l.map (· != 0)

/-- Bits with the index of the first, as PAM4 symbols; an error moves a symbol by one level (R544, R548). -/
def pamSymbols (err : Nat → Bool) : Nat → List Bool → List (Fin 4)
  | i, a :: b :: r => grayLevel a (b != (err i || err (i + 1))) :: pamSymbols err (i + 2) r
  | _, _ => []

/-- Bits with the index of the first, as NRZ symbols (R544, R548). -/
def nrzSymbols (err : Nat → Bool) : Nat → List Bool → List (Fin 4)
  | i, a :: r => (if a != err i then 1 else 0) :: nrzSymbols err (i + 1) r
  | _, [] => []

/-- The symbols of a run's transmitter for its next bits: the pattern replaces the whole line signal (R544, R545, R548). -/
def Prbs.wire (x : Prbs) (type n : Nat) : List (Fin 4) :=
  (if type < 3 then pamSymbols else nrzSymbols) (errAt x.ins) (x.sent / 4) (x.pattern n)

/-- Every bit is the one that follows those before it. -/
def patHolds (pat : Nat) : List Bool → List Bool → Bool
  | _, [] => true
  | w, b :: r => b == patNext pat w && patHolds pat (b :: w.take (patDegree pat - 1)) r

/-- A checker seeds itself from the first bits and locks after 2,048 more that match (R546); a generator is never all zeros (R545). -/
def Prbs.locks (x : Prbs) (rx : List Bool) : Bool :=
  let pat := bits x.cfg 9 6
  let b := rx.map (fun v => v != bit x.cfg 5)
  let seed := (b.take (patDegree pat)).reverse
  if pat = 6 then 2048 ≤ b.length
    && (List.range ssprqBits).any (fun o => (List.range b.length).all (fun i => b.getD i false == Config.ssprq ((o + i) % ssprqBits)))
  else patDegree pat + 2048 ≤ b.length && seed.any id && patHolds pat seed (b.drop (patDegree pat))

/-- PRBS_CFG (R549, R550). -/
def execPrbsCfg (h : Hdr) (p : List Word) (s : State) : Out :=
  let w := par p 0
  let type := pf p 0 31 29
  let us := prbsRange w
  let inTest := s.pwr.mode == .test
  .next (State.loopStarts (runSimple 0xA00 h p (prbsBad h p) (hdrUser h) (s.slipOrQuiet || (!inTest && (type == 3 || type == 4)))
    [(!inTest && us.any (s.unitUsed type), codeRunning), (type == 3 && !prbsStops w && s.modulesLeft w, codeBusy),
     (type == 3 && us.any s.fd.d2d.retired.contains, codeFenced)]
    (fun s =>
      let (v, s) := s.draw
      us.foldl (fun s u => s.putPrbs type u ((s.prbs type u).configure w (par p 1) (seedOf v))) s) s))

/-- PCIE_LOOPBACK_END (R547): DURATION is over and the link has retrained. -/
def execPcieLoopbackEnd (s : State) : Out :=
  .next (if s.host.loopback && s.host.loopAt + ms (bits (s.prbs 4 0).ins 15 0) ≤ s.mono then { s.stopRuns 4 (fun _ => true) with host := { s.host with loopback := false } } else s)

/-- The four words of a unit (R552). -/
def Prbs.words (x : Prbs) : List Word :=
  let n := x.nbits / 4
  [mkWord [(1, b01 x.lock), (1, b01 x.gen), (1, b01 x.chk), (13, 0), (16, x.lockLoss)], BitVec.ofNat 32 (x.errors % 2 ^ 32),
   mkWord [(16, x.errors / 2 ^ 32), (16, n / 2 ^ 32)], BitVec.ofNat 32 (n % 2 ^ 32)]

/-- A unit that reads zero: one inside a committed port (R552). -/
def State.unitHidden (s : State) (type u : Nat) : Bool := type == 0 && s.unitUsed 0 u

/-- Bits and errors that the units' checkers have counted beyond what the ticks have (R546). -/
def State.noteFound (s : State) (type : Nat) : List Nat → List (Nat × Nat) → State
  | u :: us, f :: fs => (s.putPrbs type u ((s.prbs type u).count (4 * f.1) f.2)).noteFound type us fs
  | _, _ => s

/-- PRBS_READ (R546, R552): `found` is what the checkers of the units have counted since they were last read beyond what the ticks have: errors of
the lane, and bits of the PCIe link. -/
def execPrbsRead (h : Hdr) (p : List Word) (found : List (Nat × Nat)) (s : State) : Out :=
  let type := pf p 0 31 29
  let us := (List.range (pf p 0 19 12 + 1)).map (pf p 0 28 20 + ·)
  .next (runCommand 0xA01 h p
    (p.length != 1 || 6 ≤ type || 31 < pf p 0 19 12 || pf p 0 10 0 != 0 || prbsUnits type < pf p 0 28 20 + pf p 0 19 12 + 1)
    false s.slipOrQuiet []
    (fun s =>
      let s := s.noteFound type us found
      let ws := us.flatMap (fun u => if s.unitHidden type u then [0, 0, 0, 0] else (s.prbs type u).words)
      let s := if bit (par p 0) 11 then
          us.foldl (fun s u => s.putPrbs type u { s.prbs type u with nbits := 0, errors := 0, lockLoss := 0 }) s
        else s
      (s, codeOk, ws)) s)

/-- PRBS_CHECKER_LOCK (R546): the symbols that reach the checker seed it, and 2,048 bits in a row match. `rx` are the symbols on the lane; in a
near-end loopback the checker has its own transmitter's (R547). -/
def execPrbsCheckerLock (type : Fin 6) (unit : Fin 192) (rx : List (Fin 4)) (s : State) : Out :=
  let x := s.prbs type unit
  let rx := if x.loop = 1 && x.gen then x.wire type 2080 else rx
  .next (if unit < prbsUnits type && x.runs && x.chk && !x.lock && x.locks (symbolBits type rx) then s.putPrbs type unit { x with lock := true } else s)

/-- PRBS_CHECKER_LOCK_LOSS (R546): more than 1,024 of 4,096 bits mismatch; `bits` and `errors` are those that the ticks have not counted. -/
def execPrbsCheckerLockLoss (type : Fin 6) (unit : Fin 192) (bits errors : Nat) (s : State) : Out :=
  let x := s.prbs type unit
  .next (if unit < prbsUnits type && x.runs && x.lock && 1024 < errors && errors ≤ bits then
      let x := x.count (4 * bits) errors
      s.putPrbs type unit { x with lock := false, lockLoss := min 65535 (x.lockLoss + 1) }
    else s)

/-! ## Self-test (R553 to R555) -/

/-- TARGET of a run (R553). -/
def bistTarget (h : Hdr) (kind : Nat) (spare : Bool) : Bool :=
  match kind with
  | 0 | 2 | 3 => fdWide h
  | 1 | 8 => tdWide h
  | 4 => h.die == 3 && h.slice.toNat < 4
  | 5 => targetIs h 3 4
  | 6 => if spare then fdWide h else h.die == 1 && h.slice.toNat < 16
  | _ => h.die == 2 && h.slice.toNat < 16

/-- The modes of a run (R553). -/
def State.bistMode (s : State) (kind : Nat) : Bool :=
  let m := s.pwr.mode
  match kind with
  | 5 | 8 => !s.slipOrQuiet
  | 6 => m == .test || m == .boot || modeForwards m
  | _ => m == .test

/-- A microcode activation is pending or a rollout runs (R554). -/
def State.mcMoves (s : State) : Bool :=
  (match s.fw.activation with | some a => a.obj == 1 | none => false) || s.fd.eng.roll.isSome

/-- The report of BIST_RUN (R554). -/
def State.bistReport (s : State) : List Word :=
  (List.range 9).map (fun k =>
    let r : BistResult := tget dflt s.test.results k
    mkWord [(4, k), (2, r.result), (10, min 1023 r.failing), (16, min 65535 r.ms)])

/-- BIST_RUN (R553, R554). -/
def execBistRun (h : Hdr) (p : List Word) (s : State) : Out :=
  let run := !bit (par p 0) 31
  let kind := pf p 0 30 27
  let spare := bit (par p 0) 25
  let l := h.slice.toNat
  let serving := kind == 6 && !spare && s.pwr.mode != .test && s.sliceSt l != 1 && s.sliceSt l != 2
  .next (runCommand 0xA02 h p
    (p.length != 1 || pf p 0 24 0 != 0 || 8 < kind || (run && (!bistTarget h kind spare || (s.bistMode kind && serving))))
    (hdrUser h) (run && !s.bistMode kind)
    [(run && ((s.bistRun kind).isSome || (kind == 6 && spare && s.mcMoves)), codeBusy),
     (run && kind == 6 && spare && !s.spareSlice, codeFenced)]
    (fun s =>
      if run then
        ({ s with test := { s.test with running := tset none0 s.test.running kind (some (par p 0, l)) } }, codeDeferred, [])
      else (s, codeOk, s.bistReport)) s)

/-- The logical slice of a physical one. -/
def State.logicalOf (s : State) (phys : Nat) : Option Nat := slices.find? (fun l => s.physOf l == phys)

/-- A fence without substitution (R374). -/
def State.fenceOnly (s : State) (loc old : Nat) : State := s.recordLife 15 2 loc old noUnit 0

/-- A failing physical FD slice is fenced, and the spare takes its place where it remains (R554). -/
def State.bistSlice (s : State) (y : Nat) : Bool × State :=
  match s.logicalOf y with
  | some l =>
    if s.spareSlice then (true, s.sliceSwap l 2)
    else (false, ((s.setGang { s.fd.gang with fenced := s.fd.gang.fenced ++ [y] }).fenceOnly (lifeLoc 1 l 0 0) y).fenceDrain l)
  | none =>
    let g := s.fd.gang
    (false, (s.setGang { g.gen2 with fenced := g.fenced ++ [y], spare := if g.spare = y then 0x1F else g.spare }).fenceOnly
      (lifeLoc 1 0x3F 0 0) y)

/-- One failing unit with FENCE = 1 (R554): whether a spare has taken its place. -/
def State.bistFix (s : State) (kind slice : Nat) (spare : Bool) (u : Nat) : Bool × State :=
  match kind with
  | 2 =>
    match (List.range 64).find? (fun b => s.bankPhys b == u) with
    | some b => if s.asc.spares.isEmpty then (false, s.fenceOnly (lifeLoc 1 0x3F b 0) u) else (true, s.bankSwap b 2)
    | none => (false, (s.setAsc { s.asc with spares := s.asc.spares.filter (· != u) }).fenceOnly (lifeLoc 1 0x3F u 0) u)
  | 3 => s.bistSlice u
  | 4 =>
    let k := s.stack slice
    if u = 63 && k.spare then (false, (s.putStack slice { k with spare := false }).fenceOnly (pcLoc slice u 0) u)
    else (k.spare && k.swap.isNone, s.pcFails slice u 2)
  | 5 => (0 < s.spareLeft 10, if u < 61440 then s.retireBlock u 2 else s)
  | 6 => s.bistSlice (if spare then s.fd.gang.spare else s.physOf slice)
  | 8 => (false, { s with host := { s.host with coreSpares := s.host.coreSpares.drop 1 } }.fenceOnly (lifeLoc 2 0x3F 0 0) u)
  | _ => (false, s.fenceOnly (lifeLoc (if kind = 0 then 1 else 2) (if kind = 7 then slice else 0x3F) u 0) u)

/-- What a destructive KIND tested holds its reset content (R553). -/
def State.bistWipe (s : State) (kind slice : Nat) : State :=
  match kind with
  | 0 =>
    let s := s.setFdCfg { s.cfg.fd with rules := default, lpm := [], exact := [] }
    let s := (s.setTdCfg { s.cfg.td with meters := [] }).setSched { s.td.sched with meters := [] }
    (s.setLook { s.fd.look with clusters := [] }).setGang { s.fd.gang with staging := [] }
  | 1 => { s with cfg := { s.cfg with td := { (default : TdSetup) with meters := s.cfg.td.meters } }, td := default }
  | 2 => s.setAe []
  | 7 =>
    let s := s.setTdCfg { s.cfg.td with queues := s.cfg.td.queues.filter (fun q => sliceOfQ q.1 != slice) }
    { s with td := { s.td with q := s.td.q.filter (fun q => sliceOfQ q.1 != slice) } }
  | _ => s

/-- BIST_COMPLETE (R554, R559): the run of a KIND ends with its failing units. -/
def execBistComplete (kind : Fin 9) (failing : List Nat) (ms : Nat) (s : State) : Out :=
  match s.bistRun kind with
  | none => .next s
  | some (p0, slice) =>
    let s := s.bistWipe kind slice
    let (fixed, s) := if bit p0 26 then
        failing.foldl (fun r u => let x := r.2.bistFix kind slice (bit p0 25) u; (r.1 && x.1, x.2)) (true, s)
      else (false, s)
    .next (s.bistEnd kind (if failing.isEmpty then 0 else if fixed then 1 else 2) failing.length ms)

/-! ## Boundary scan (R556 to R558) -/

/-- An instruction at Update-IR, while the tollhouse supply powers the port, with what its data register captures. Where boundary cells had the balls, they let them go. -/
def State.tapLoad (s : State) (code : BitVec 8) (reg : TapReg) (tdo : TapData) : State :=
  if s.dead then s else
  let pins := if s.test.tapHolds then { s.pins with ilkOwn := false, osel := false, ppsOut := false, highZ := false } else s.pins
  { s with pins, test := { s.test with tapCode := code, tapReg := reg, tdo, driven := none } }

/-- What the boundary cells capture: outputs and strapped inputs as they stand, the other inputs as the balls have them (R557). -/
def State.capture (s : State) (ext : Cells) : Cells :=
  { ext with
    ilkOwn := s.pins.ilkOwn, osel := s.pins.osel, ppsOut := s.pins.ppsOut
    ilkPeer := s.pins.ilkPeer, pairSide := s.pins.pairSide, slipReqN := s.pins.slipReqN }

/-- The boundary cells take the balls (R558): an acting member drops its role, and every domain but the tollhouse is held in
reset until RESET_N is pulsed. The cells drive what SAMPLE/PRELOAD left in them; under HIGHZ nothing is driven. -/
def State.tapTakes (s : State) (code : BitVec 8) (reg : TapReg) (tdo : TapData) : State :=
  if s.dead then s else
  let s := ((s.tapLoad code reg tdo).ctrlReset).post 0x1F7 [d16 2, d16 code.toNat]
  let s := s.cutCkpt.dropSessions.dark
  let on := code != 6
  let x := s.test.latch
  { s with
    cfg := s.cfg.cold
    host := s.host.lost
    pair := s.pair.lost
    pins := { s.pins with ilkOwn := on && x.ilkOwn, osel := on && x.osel, ppsOut := on && x.ppsOut, highZ := !on }
    test := { s.test with prbs := [], running := [], tapHolds := true, driven := if on then some x else none }
    pwr := { s.pwr with
      domains := [], idle := [], plls := [], phase := 0, fwRuns := false, startDue := none, railsWait := false, modeReq := none
      quiescing := false, restart := none, qwaits := [], draining := none, lowSince := none, gatedAt := [], wakeQ := [], emptyAt := [], quietAt := [] } }

/-- TAP_RESET (R17, R556). -/
def execTapReset (s : State) : Out := .next (s.tapLoad 1 .idcode (.idcode idcodeWord))
/-- IDCODE (R17, R556). -/
def execIdcode (s : State) : Out := .next (s.tapLoad 1 .idcode (.idcode idcodeWord))
/-- SAMPLE/PRELOAD (R556 to R558): the boundary register captures the balls, and the cells take the values shifted in. -/
def execSamplePreload (ext data : Cells) (s : State) : Out :=
  let t := s.tapLoad 2 .boundary (.boundary (s.capture ext))
  .next { t with test := { t.test with latch := data } }
/-- EXTEST (R557, R558). -/
def execExtest (ext : Cells) (s : State) : Out := .next (s.tapTakes 0 .boundary (.boundary (s.capture ext)))
/-- EXTEST_PULSE (R557, R558). -/
def execExtestPulse (ext : Cells) (s : State) : Out := .next (s.tapTakes 3 .boundary (.boundary (s.capture ext)))
/-- EXTEST_TRAIN (R557, R558). -/
def execExtestTrain (ext : Cells) (s : State) : Out := .next (s.tapTakes 4 .boundary (.boundary (s.capture ext)))
/-- CLAMP (R558): as IEEE 1149.1 has it, the bypass register is selected (log 75). -/
def execClamp (s : State) : Out := .next (s.tapTakes 5 .bypass .bypass)
/-- HIGHZ (R558). -/
def execHighz (s : State) : Out := .next (s.tapTakes 6 .bypass .bypass)

/-- BYPASS (R556): 0xFF and every code without an instruction of its own. -/
def execBypass (code : BitVec 8) (s : State) : Out := .next (if code.toNat < 7 then s else s.tapLoad code .bypass .bypass)

end Sys2Proof.Machine
end

