-- ==== Sys2Proof/Machine/RegView.lean ====
section
/-! DEFINITION. What every register reads: the hardware's own bits as the register tables of the chapters give them, and the
rules of R447, R448, R451 and R456 around them. -/

namespace Sys2Proof.Machine

/-- A register or an array of registers with bits that hardware alone writes: index `i` below `count` stands at
`base + stride × i`. -/
structure ViewRow where
  base   : Nat
  stride : Nat
  count  : Nat
  view   : State → Nat → Word

/-! ## The dies' own bits -/

/-- One byte of FD_GANGWAY_PHYMAPn: ROT, STATE and PHYS of a logical slice (R24). -/
def State.phyByte (s : State) (l : Nat) : List (Nat × Nat) :=
  [(1, b01 (tget noB s.fd.gang.rot l)), (2, s.sliceSt l), (5, s.physOf l)]

/-- FD_GANGWAY_MOVESTAT but for HOLDMAX (R107). -/
def State.moveStat (s : State) : Word :=
  let g := s.fd.gang
  mkWord [(1, b01 g.cmd.isSome), (2, (g.moves.filter (!·.waking)).length), (29, 0)]

/-- FD_CLASSIFIER_VERSTAT (R120, R121). -/
def State.verStat (s : State) : Word :=
  let r := s.fd.rules
  let banks := (if s.flying.contains s.curVer then [r.cur] else []) ++ s.oldBanks.map (·.1)
  mkWord [(16, s.curVer), (1, b01 r.stage.isSome), (1, b01 r.sched.isSome), (4, bitsOf 4 banks.contains), (2, r.cur),
    (2, r.stage.elim 0 (·.1)), (6, 0)]

/-- FD_EXACT_STATc (R145, R147). -/
def State.exactStat (s : State) (c : Nat) : Word :=
  let inStash (p : Nat) : Bool := xStash c ≤ p && p < xBase (c + 1)
  let ways := s.xt.filter (fun e => xBase c ≤ e.1 && e.1 < xStash c)
  mkWord [(1, b01 (s.cluster c).diverged), (9, (s.xt.filter (fun e => inStash e.1)).length),
    (22, (ways.map (fun e => if e.2.wide then 2 else 1)).sum)]

/-- FD_ASC_CHAINc (R168, R178). -/
def State.chainStat (s : State) (c : Nat) : Word :=
  let k := s.chain c
  let moving := match s.asc.run with | some r => r.move.chain == c | none => false
  mkWord [(1, b01 k.en), (2, k.width), (1, b01 moving), (4, k.depthM1), (1, 0), (6, k.first), (17, (s.chainEnts c).length)]

/-- FD_ASC_STAT (R176, R185, R194). -/
def State.ascStat (s : State) : Word :=
  mkWord [(1, b01 (s.wr.shadow.any (fun x => x.1 / 65536 == 0x7F09))), (1, b01 s.asc.run.isSome), (14, 0), (16, s.asc.retired.length)]

/-- FD_AE_SLSTAT of a logical slice (R198, R215); zero for a slice that holds no physical slice. -/
def State.slStat (s : State) (l : Nat) : Word :=
  if !s.hasPhys l then 0
  else
    let e := s.engOf (s.physOf l)
    mkWord [(8, s.mcseq (s.physOf l)), (2, e.spares), (6, e.ein), (4, e.eeg), (1, b01 (s.fd.eng.mchk.contains l)), (11, 0)]

/-- FD_AE_PAGEn (R210). -/
def State.pageUse (s : State) (n : Nat) : Word :=
  let used (k : Nat) : Bool := s.cfg.fd.progs.any (fun q => q.1 ≤ k && k < q.1 + pagesOf q.2 && s.progUsed q)
  BitVec.ofNat 32 (bitsOf 32 (fun i => used (32 * n + i)))

/-- FD_AE_PMATCHk of a logical slice: the patches in the control store of its physical slice (R213, R218). -/
def State.pMatch (s : State) (l k : Nat) : Word :=
  if !s.hasPhys l then 0
  else match (s.storeSet (ingressDomain (s.physOf l))).bind (fun m => m.patches.find? (·.slot == k)) with
    | some p => mkWord [(1, 1), (17, 0), (14, p.addr)]
    | none => 0

/-- TD_SCHED_PORTSTATp (R283 to R285). -/
def State.portNodeStat (s : State) (p : Nat) : Word :=
  let x := s.pnode p
  let held := if x.st = 1 then min 1023 ((s.mono - x.since) / 1000000) else 0
  mkWord [(3, x.st), (1, b01 x.link), (10, s.holdMs p), (10, held), (8, 0)]

/-- TD_FABRIC_LINKSTATl (R295, R304, R305). -/
def State.linkStat (s : State) (l : Nat) : Word :=
  let x := s.flink l
  let cr (c : Nat) : Nat := min 255 (x.credits.getD c 0)
  mkWord [(2, x.st), (1, b01 x.inServ), (1, b01 (x.stops.any (·.2 != 0))), (8, cr 0), (8, cr 1), (8, cr 2), (4, 0)]

/-- Registers of the DEV die with bits that hardware alone writes. -/
def devViews : List ViewRow := [
  ⟨0x3F010000, 4, 1, fun _ _ => idcodeWord⟩,
  ⟨0x3F010040, 4, 1, fun s _ => s.bootStat⟩,
  ⟨0x3F020008, 4, 1, fun s _ => s.timeStat⟩,
  ⟨0x3F030000, 4, 4, State.domStat⟩,
  ⟨0x3F030010, 4, 1, fun s _ => s.startStat⟩,
  ⟨0x3F030020, 4, 1, fun s _ => s.ferryStat⟩,
  ⟨0x3F050000, 4, 1, fun s _ => s.logStat⟩,
  ⟨0x3F050004, 4, 1, fun s _ => s.ev.lost⟩,
  ⟨0x3F051000, 4, 512, fun s n => tget z s.ev.counts n⟩,
  ⟨0x3F060004, 4, 1, fun s _ => s.slipStat⟩,
  ⟨0x3F070404, 4, 1, fun s _ => s.hwReg 0x3F070404 &&& 0x00FF0000#32⟩,
  ⟨0x3F071008, 0x1000, 8, State.rstat⟩,
  ⟨0x3F079004, 0x1000, 5, fun s m => BitVec.ofNat 32 (s.otail m)⟩]

/-- Those of the forwarding die. -/
def fdViews : List ViewRow := [
  ⟨0x7F021000, 4, 128, State.portStat⟩,
  ⟨0x7F030200, 4, 32, State.grpStat⟩,
  ⟨0x7F030280, 4, 32, State.skewStat⟩,
  ⟨0x7F040100, 4, 4, fun s n => mkWord ([3, 2, 1, 0].flatMap (fun i => s.phyByte (4 * n + i)))⟩,
  ⟨0x7F040110, 4, 1, fun s _ => mkWord [(16, s.fd.gang.gen.toNat), (11, 0), (5, s.fd.gang.spare)]⟩,
  ⟨0x7F040120, 4, 1, fun s _ => s.moveStat⟩,
  ⟨0x7F041000, 4, 512, fun s n => mkWord ([7, 6, 5, 4, 3, 2, 1, 0].map (fun i => (4, s.bucketSlice (8 * n + i))))⟩,
  ⟨0x7F042000, 4, 128, fun s n => BitVec.ofNat 32 (bitsOf 32 (fun i => tget noB s.fd.gang.pins (32 * n + i)))⟩,
  ⟨0x7F060000, 4, 1, fun s _ => s.verStat⟩,
  ⟨0x7F070000, 4, 1, fun s _ => BitVec.ofNat 32 (lpmUnits s.cfg.fd.lpm)⟩,
  ⟨0x7F080010, 4, 2, State.exactStat⟩,
  ⟨0x7F080040, 4, 8, fun s n => tget z (s.cluster (n % 2)).counts (n / 2)⟩,
  ⟨0x7F090000, 4, 1, fun s _ => s.ascStat⟩,
  ⟨0x7F090040, 4, 16, State.chainStat⟩,
  ⟨0x7F090400, 4, 16, fun s n => mkWord ([3, 2, 1, 0].flatMap (fun i => [(1, 0), (7, s.bankPhys (4 * n + i))]))⟩,
  ⟨0x7F090440, 4, 1, fun s _ => mkWord [(8, s.asc.swap.getD 0xFF), (20, 0), (4, s.asc.spares.length)]⟩,
  ⟨0x7F090444, 4, 1, fun s _ => s.asc.actMs⟩,
  ⟨0x7F0A0010, 4, 2, State.pageUse⟩,
  ⟨0x400A0000, 0x01000000, 16, State.slStat⟩] ++
  (List.range 16).map (fun l => ⟨0x400A0100 + 0x01000000 * l, 4, 64, fun s k => s.pMatch l k⟩)

/-- Those of the traffic die, the stacks, the store and the spares. -/
def tdViews : List ViewRow := [
  ⟨0xBF220010, 4, 2, fun s t => BitVec.ofNat 32 (s.freeBerths t)⟩,
  ⟨0xBF220018, 4, 1, fun s _ => mkWord [(13, s.br.quar.length), (19, 0)]⟩,
  ⟨0xBF220080, 4, 16, fun s p => BitVec.ofNat 32 (s.poolUse p)⟩,
  ⟨0xBF240000, 4, 176, State.portNodeStat⟩,
  ⟨0xBF251000, 4, 192, State.linkStat⟩,
  ⟨0xBF260000, 4, 1, fun s _ => mkWord [(21, s.td.fab.dups.length), (11, 0)]⟩,
  ⟨0xBF260010, 4, 8, fun s n => tget z s.td.fab.counts n⟩,
  ⟨0xBF270000, 4, 1, fun s _ => s.pairStat⟩,
  ⟨0xBF270010, 4, 8, fun s n => tget z s.pair.counts n⟩,
  ⟨0xC0020000, 0x01000000, 4, State.stackStat⟩,
  ⟨0xC4010000, 4, 1, fun s _ => s.ckptStat⟩,
  ⟨0xC4010004, 4, 1, fun s _ => s.storeWear⟩,
  ⟨0xFF030000, 4, 1, fun s _ => s.sparesLife⟩]

/-- Every register with bits that hardware alone writes, but for DIE_BLOCK_BSTAT. -/
def viewTable : List ViewRow := devViews ++ fdViews ++ tdViews

/-- Whether `a` is a register of row `r`. -/
def ViewRow.has (r : ViewRow) (a : Nat) : Bool :=
  r.base ≤ a && (a - r.base) % r.stride == 0 && (a - r.base) / r.stride < r.count

/-- Those bits of the register at `a`. -/
def State.ownBits (s : State) (a : Nat) : Word :=
  match viewTable.find? (·.has a) with
  | some r => r.view s ((a - r.base) / r.stride)
  | none => 0

/-! ## Reads -/

/-- The block stands in the halves of an FD slice, and both are off (R446, R475): FD_AE at a slice code. -/
def State.sliceBlockOff (s : State) (k : Nat) : Bool :=
  let l := k / 0x100 % 0x40
  k / 0x4000 == 1 && l < 16 && (!s.hasPhys l || (2 ≤ s.domain (ingressDomain (s.physOf l)) && 2 ≤ s.domain (ingressDomain (s.physOf l) + 1)))

/-- The power domain of a block is off (R443, R456). -/
def State.blockOff (s : State) (k : Nat) : Bool := blockExists k && (2 ≤ s.domain (blockDomain k) || s.sliceBlockOff k)

/-- A mailbox operation runs (R464). -/
def State.mbxGo (s : State) : Bool := bit (s.hwReg 0x3F070404) 31

/-- A posted write to the block, or a mailbox operation on it, is not yet applied (R448). -/
def State.blockBusy (s : State) (k : Nat) : Bool :=
  s.wr.busy.contains k || (s.mbxGo && (k == 0x3F07 || k == (s.cfgReg 0x3F070400).toNat / 65536))

/-- The OR of a block's PENDING bits (R448, R451, R52, R53, R79). -/
def State.blockPend (s : State) (k : Nat) : Bool :=
  s.wr.shadow.any (fun x => x.1 / 65536 == k)
    || (k == 0x7F02 && (List.range 128).any s.portPending)
    || (k == 0x7F03 && s.cfg.spanShadow.any (fun x => x.2.isSome))
    || (k == 0x7F06 && s.fd.rules.sched.isSome)

/-- DIE_BLOCK_BSTAT (R448, R456). -/
def State.bstat (s : State) (k : Nat) : Word :=
  if s.blockOff k then 0x04000000#32
  else (tget z s.wr.bstat k &&& 0x3800FFFF#32) ||| mkWord [(1, b01 (s.blockBusy k)), (1, b01 (s.blockPend k)), (30, 0)]

/-- Configuration bits as a read gives them: the pending value of a SHADOW register, and SEL of an MK field as zero (R12, R451). -/
def State.cfgView (s : State) (r : RegRow) (a : Nat) : Word :=
  if r.cls = .shadow then (tfind s.wr.shadow a).getD (s.cfgReg a)
  else if r.mask .mk = 0 then s.cfgReg a
  else s.cfgReg a &&& 0x0000FFFF#32

/-- The value of the register at `a`; zero at a reserved address (R447, R451, R456). -/
def State.regValue (s : State) (a : Nat) : Word :=
  let k := a / 65536
  if a % 65536 = 0xFFFC then (if blockExists k then s.bstat k else 0)
  else
    let cfg : Word := match regRowAt a with | some r => s.cfgView r a | none => 0
    if s.blockOff k then cfg
    else
      let hw : Word := match regRowAt a with | some r => s.hwReg a &&& r.hwMask | none => 0
      cfg ||| hw ||| s.ownBits a

/-- Whether a register stands at `a` (R446, R447). -/
def isReg (a : Nat) : Bool :=
  (a % 65536 == 0xFFFC && blockExists (a / 65536)) || (regRowAt a).isSome || (viewTable.any (·.has a))

/-- The address lies within an MB register (R462). -/
def inMb (a : Nat) : Bool := mbRegs.any (fun m => m.1 ≤ a && a < m.1 + 4 * m.2)

end Sys2Proof.Machine
end

