-- ==== Sys2Proof/Machine/Regs.lean ====
section
/-! DEFINITION. The register model: what a write does, the register commands, the BAR, the mailbox, posted writes, triplicated
fields and injected events (R442, R443, R449 to R470). -/

namespace Sys2Proof.Machine

/-! ## A block's write port (R450 to R453) -/

/-- Sets a sticky bit of a block's BSTAT, and LASTOFS (R448). -/
def State.bstatSet (s : State) (a i : Nat) : State :=
  let k := a / 65536
  { s with wr := { s.wr with bstat := tset z s.wr.bstat k (putBits (putBits (tget z s.wr.bstat k) 15 0 (a % 65536)) i i 1) } }

/-- A software write lost (R453). -/
def State.wrLost (s : State) (a : Nat) : State := (s.bstatSet a 29).postOnce 0x1EA (a / 65536) [d32 a]

/-- The configuration bits of a register as its first copy holds them (R467). -/
def State.rawReg (s : State) (a : Nat) : Word := tget cfgRest (if isHostReg a then s.host.regs else s.cfg.regs) a

/-- What the configuration bits of row `r` become where the bits `m` of the value `v` are written (R454). -/
def State.merged (s : State) (r : RegRow) (a : Nat) (v m : Word) : Word :=
  let m := m &&& r.cfgMask
  let old := if r.cls = .shadow then (tfind s.wr.shadow a).getD (s.cfgReg a) else s.rawReg a
  (old &&& ~~~m) ||| (v &&& m)

/-- The index of an address in an array of registers. -/
def regIdx (base stride count a : Nat) : Option Nat :=
  if base ≤ a && (a - base) % stride == 0 && (a - base) / stride < count then some ((a - base) / stride) else none

/-- A write to DEV_CLOCKS_TIMECFG: a changed SRC starts the servo anew (R382). -/
def State.timeCfgWrite (s : State) (v : Word) : State :=
  let was := s.ppsOn
  let s := s.setCfgReg 0x3F020000 v
  if was == s.ppsOn then s
  else s.setTime { s.time with
    servo := if s.ppsOn then .acquiring else .off
    lastEdge := none, lastSec := none, good := 0, bad := 0, missed := 0, noTod := 0, todOk := false, todNext := none }

/-- A write to DEV_EVENTS_MASKn: bits of sources that may not be masked stay 0 (R535). -/
def State.maskWrite (s : State) (n : Nat) (v : Word) : State :=
  let w := bitsOf 32 (fun i => bit v i && maskable (32 * n + i))
  s.setMask (putBits s.ev.mask (32 * n + 31) (32 * n) w)

/-- A write that sets GO of DEV_POWER_RESTART (R489). -/
def State.restartWrite (s : State) (arm kind : Nat) : State :=
  if arm = 0x5EA1 && (kind == 1 || kind == 2) then
    { s.hwBit 0x3F030014 2 with pwr := { s.pwr with restart := some kind, restartAt := s.mono } }
  else s

/-- A write to TD_FABRIC_LINKENn: links leave service or begin to hunt, and the first enabled link powers the domain up, but in
STANDALONE (R26, R295, R475, R551). -/
def State.linkEnWrite (s : State) (n : Nat) (v : Word) : State :=
  let a := 0xBF250020 + 4 * n
  let old := s.cfgReg a
  let before := s.fabLinks
  let s := (List.range 32).foldl (fun s i =>
    if bit old i && !bit v i then let s := s.linkOut (32 * n + i); s.putFlink (32 * n + i) default else s) s
  let s := State.linksFell before s
  let s := s.setCfgReg a v
  let s := s.stopRuns 1 (fun l => l / 32 == n && !bit old (l % 32) && bit v (l % 32))
  if s.domain 8 = 0 then
    (List.range 32).foldl (fun s i =>
      if !bit old i && bit v i then s.putFlink (32 * n + i) { (default : FLink) with st := 1 } else s) s
  else if v ≠ 0 && s.domain 7 = 0 && s.pwr.mode != .standalone then s.fabricWake
  else s

/-- A write to TD_D2D_RETRAIN (R466): values 24 to 31 and retired modules start nothing. -/
def State.retrainWrite (s : State) (v : Word) : State :=
  let m := bits v 4 0
  let s := s.setCfgReg 0xBF2C0100 v
  if 24 ≤ m || s.fd.d2d.retired.contains m then s
  else
    let s := s.retrain m
    if s.wr.busy.contains 0xBF2C then s else { s with wr := { s.wr with busy := s.wr.busy ++ [0xBF2C] } }

/-- Puts the configuration bits `v` of a register of a powered block into effect, with what the register's rules tie to it. -/
def State.cfgWrite (s : State) (a : Nat) (v : Word) : State :=
  match regIdx 0x3F070108 0x10 8 a, regIdx 0x3F070208 0x10 5 a, regIdx 0x3F050100 4 16 a, regIdx 0xBF250020 4 6 a,
      regIdx 0xBF220040 4 16 a with
  | some n, _, _, _, _ => s.rcfgWrite n v
  | _, some m, _, _, _ => s.ocfgWrite m v
  | _, _, some n, _, _ => s.maskWrite n v
  | _, _, _, some n, _ => s.linkEnWrite n v
  | _, _, _, _, some p => s.poolCfgWrite p v
  | _, _, _, _, _ =>
    if 0x3F070100 ≤ a && a < 0x3F070180 then (if s.ringOn ((a - 0x3F070100) / 0x10) then s else s.setCfgReg a v)
    else if 0x3F070200 ≤ a && a < 0x3F070250 then (if s.outOn ((a - 0x3F070200) / 0x10) then s else s.setCfgReg a v)
    else if a = 0x3F020000 then s.timeCfgWrite v
    else if a = 0xBF2C0100 then s.retrainWrite v
    else if a = 0xBF250004 then
      let ttl := s.dupTtl
      let s := s.setCfgReg a v
      s.setFab { s.td.fab with dupLife := some (ttl, s.mono + 1000) }
    else if a = 0xBF220000 then s.tierCfgWrite v
    else if a = 0x7F080000 then (if modeOpensStatic s.pwr.mode then s.hashCfgWrite v else s)
    else if 0x7F080200 ≤ a && a < 0x7F080300 then (s.setCfgReg a v).ageAnew [(a - 0x7F080200) / 4]
    else if a = 0x7F040004 then
      let changed := s.cfgReg a != v
      let s := s.setCfgReg a v
      if changed then s.mapHome else s
    else s.setCfgReg a v

/-- The configuration bits of a register are written: to the shadow of a SHADOW register, to the values held for a block whose
domain is off, or into effect (R450, R451, R456). -/
def State.cfgPart (s : State) (r : RegRow) (a : Nat) (v : Word) : State :=
  if r.cls = .shadow then { s with wr := { s.wr with shadow := tins s.wr.shadow a v } }
  else if s.blockOff (a / 65536) then
    let s := { s with wr := { s.wr with held := tins s.wr.held a v } }
    if a / 65536 = 0xBF25 || (0xBF220040 ≤ a && a < 0xBF220080) then s.cfgWrite a v else s.setCfgReg a v
  else { s with wr := { s.wr with held := tdel s.wr.held a } }.cfgWrite a v

/-- The bits of a register that hardware writes too, where software writes the bits `m` of `v` (R453). -/
def State.hwPart (s : State) (r : RegRow) (a : Nat) (v m : Word) : State :=
  let h := s.hwReg a
  let sc := v &&& m &&& r.mask .sc
  let hu := m &&& (r.mask .hu ||| r.mask .huCount)
  let h1 := ((h &&& ~~~(v &&& m &&& r.mask .w1c) &&& ~~~hu) ||| (v &&& hu)) ||| (v &&& m &&& r.mask .w1s)
  let lost := sc &&& h != 0
  let s := s.setHw a h1
  if lost then s.wrLost a
  else if sc = 0 then s
  else if a = 0x3F030014 then s.restartWrite (bits (v &&& m) 31 16) (bits (s.cfgReg a) 1 0)
  else s.setHw a (putBits (h1 ||| sc) 29 29 0)

/-- One write of the bits `m` of `v` to the register at `a` enters its block's write port (R450, R454, R467). -/
def State.regWrite (s : State) (a : Nat) (v m : Word) : State :=
  let k := a / 65536
  if a % 65536 = 0xFFFC then
    if blockExists k && !s.blockOff k then
      { s with wr := { s.wr with bstat := tset z s.wr.bstat k (tget z s.wr.bstat k &&& ~~~(v &&& m &&& 0x38000000#32)) } }
    else s
  else match regRowAt a with
    | none => s
    | some r =>
      if r.mask .mk ≠ 0 then
        let sel := bits v 31 16
        s.setCfgReg a ((s.cfgReg a &&& ~~~BitVec.ofNat 32 sel) ||| (v &&& BitVec.ofNat 32 sel))
      else
        let new := s.merged r a v m
        let tv := m &&& r.mask .tv
        let s := if tv = 0 then s else { s with wr := { s.wr with
            tvB := tset z s.wr.tvB a (tget z s.wr.tvB a &&& ~~~tv)
            tvC := tset z s.wr.tvC a (tget z s.wr.tvC a &&& ~~~tv)
            tvSaid := s.wr.tvSaid.filter (· != a) } }
        let s := if m &&& r.cfgMask = 0 then s else s.cfgPart r a new
        if r.hwMask = 0 || s.blockOff k then s else s.hwPart r a v m

/-- A write that would change a STATIC field outside BOOT, DRAIN and TEST (R450). -/
def State.staticBars (s : State) (a : Nat) (v m : Word) : Bool :=
  match regRowAt a with
  | some r => r.cls == .fixed && !modeOpensStatic s.pwr.mode && s.merged r a v m != s.rawReg a
  | none => false

/-! ## The BAR (R442, R443, R457 to R461) -/

/-- A BAR write is dropped (R458). -/
def State.barDrop (s : State) (a cause : Nat) : State := (s.bstatSet a 28).postOnce 0x1E9 (a / 65536) [d32 a, d16 cause]

/-- The mailbox's registers (R463). -/
def isMbx (a : Nat) : Bool := 0x3F070400 ≤ a && a < 0x3F070480

/-- Why a BAR write is dropped (R458, R464, R465, R468). -/
def State.barBars (s : State) (a : Nat) (v : Word) (window : Bool) : Option Nat :=
  if inMb a then some 1
  else if (window && bit (s.cfgReg 0x3F010030) (a / 2 ^ 30)) || (a == 0x3F010030 && bit (s.cfgReg a) 4) then some 3
  else if (isMbx a && s.mbxGo) || (a == 0xBF2C0100 && s.blockBusy 0xBF2C) then some 2
  else if s.staticBars a v 0xFFFFFFFF#32 then some 0
  else none

/-- A 32-bit BAR write to a register address. -/
def State.barWrite (s : State) (a : Nat) (v : Word) (window : Bool) : State :=
  match s.barBars a v window with
  | some c => s.barDrop a c
  | none => if isReg a then (s.regWrite a v 0xFFFFFFFF#32).countReg a true 0 1 else s

/-- What a BAR offset reaches: a register address, and whether through the window (R442). -/
def State.barAddr (s : State) (off : Nat) : Option (Nat × Bool) :=
  if off < 0x10000 then some (0x3F070000 + off, false)
  else if off < 0x20000 then some (0x3F000000 + off, false)
  else if off < 0x30000 then some (s.rf 0x3F070010 31 16 * 65536 + (off - 0x20000), true)
  else none

/-- One 32-bit BAR access, aligned (R443, R457): its read data. -/
def State.barDword (s : State) (write : Bool) (off : Nat) (v : Word) : Word × State :=
  match s.barAddr off with
  | none => (0, s)
  | some (a, window) =>
    if window && s.blockOff (a / 65536) then (0, s.postOnce 0x1E7 0 [d16 (a / 65536)])
    else if write then (0, s.barWrite a v window)
    else (s.regValue a, if isReg a then s.countReg a false 0 1 else s)

/-- A BAR write to a register of the window, or of block DEV_TOLLHOUSE, that a row names by itself. -/
def State.barTo (s : State) (a : Nat) (v : Word) : State :=
  if !s.pcieUp then s
  else if a / 65536 = 0x3F01 then s.barWrite a v false
  else if s.blockOff (a / 65536) then s.postOnce 0x1E7 0 [d16 (a / 65536)]
  else s.barWrite a v true

/-- An unaligned access (R460). -/
def State.barUnaligned (s : State) (write : Bool) (off : Nat) : State :=
  let s := s.postOnce 0x1E5 0 [d32 off]
  if write then s else { s with host := { s.host with barData := [0, 0, 0, 0] } }

/-- Byte lanes of a dword that an access reads: `n` bytes from lane `i`. -/
def lanesOf (w : Word) (i n : Nat) : List Byte := ((leBytes w).drop i).take n

/-- REGISTER_WRITE (R450, R457). -/
def execRegisterWrite (off : BitVec 20) (v : Word) (s : State) : Out :=
  if !s.pcieUp then .next s
  else if off.toNat % 4 ≠ 0 then .next (s.barUnaligned true off.toNat)
  else .next (s.barDword true off.toNat v).2

/-- BAR_NARROW_ACCESS (R459). -/
def execBarNarrowAccess (write half : Bool) (off : BitVec 20) (v : Word) (s : State) : Out :=
  let o := off.toNat
  let n := if half then 2 else 1
  if !s.pcieUp then .next s
  else if o % n ≠ 0 then .next (s.barUnaligned write o)
  else if write then .next (s.postOnce 0x1E4 0 [d32 o, d16 (2 ^ n - 1)])
  else
    let r := s.barDword false (o / 4 * 4) v
    .next { r.2 with host := { r.2.host with barData := lanesOf r.1 (o % 4) n } }

/-- BAR_UNALIGNED_ACCESS (R460). -/
def execBarUnalignedAccess (write : Bool) (off : BitVec 20) (s : State) : Out :=
  .next (if s.pcieUp then s.barUnaligned write off.toNat else s)

/-- The byte enables of an access, those of its first dword lowest. -/
def enablesOf : List (BitVec 4 × Word) → Nat
  | [] => 0
  | d :: r => d.1.toNat + 16 * enablesOf r

/-- Set bits of `e` without a gap between them (R460). -/
def contiguous (e : Nat) : Bool :=
  let on := (List.range (Nat.log2 e + 1)).filter (fun i => e.testBit i)
  on.length == (on.getLastD 0) - (on.headD 0) + 1

/-- The dwords of a wide access, the lower address first (R459, R461). -/
def State.barParts (s : State) (write : Bool) (off enables : Nat) : List (BitVec 4 × Word) → State
  | [] => s
  | d :: r =>
    let go (s : State) : State :=
      if write then
        if d.1 = 0 then s
        else if d.1 = 15 then (s.barDword true off d.2).2
        else s.postOnce 0x1E4 0 [d32 off, d16 enables]
      else
        let x := s.barDword false off d.2
        { x.2 with host := { x.2.host with barData := x.2.host.barData ++ leBytes x.1 } }
    (go s).barParts write (off + 4) (enables / 16) r

/-- BAR_WIDE_ACCESS (R459 to R461). -/
def execBarWideAccess (write : Bool) (off : BitVec 20) (dwords : List (BitVec 4 × Word)) (s : State) : Out :=
  let o := off.toNat
  if !s.pcieUp || dwords.isEmpty then .next s
  else if o % (if dwords.length = 1 then 4 else 8) ≠ 0 || !contiguous (enablesOf dwords) then .next (s.barUnaligned write o)
  else
    let s := if write then s else { s with host := { s.host with barData := [] } }
    .next (s.barParts write o (enablesOf dwords) dwords)

/-- BAR_WINDOW_POWERED_OFF (R443). -/
def execBarWindowPoweredOff (write : Bool) (off : BitVec 20) (v : Word) (s : State) : Out :=
  if !s.pcieUp then .next s
  else if off.toNat % 4 ≠ 0 then .next (s.barUnaligned write off.toNat)
  else
    let r := s.barDword write off.toNat v
    .next (if write then r.2 else { r.2 with host := { r.2.host with barData := leBytes r.1 } })

/-! ## Registers with rows of their own -/

/-- EXACT_HASHCFG_WRITE (R13, R145, R458). -/
def execExactHashcfgWrite (v : Word) (s : State) : Out := .next (s.barTo 0x7F080000 v)

/-- BERTH_POOLCFG_WRITE (R245). -/
def execBerthPoolcfgWrite (pool : Fin 16) (v : Word) (s : State) : Out := .next (s.barTo (0xBF220040 + 4 * pool.val) v)

/-- HOSTFLAG_WRITE (R469). -/
def execHostflagWrite (v : Word) (s : State) : Out := .next (s.barTo 0x3F010020 v)

/-- EVENT_INJECT (R453, R470). -/
def execEventInject (v : Word) (s : State) : Out := .next (s.barTo 0x3F050020 v)

/-- EVENT_INJECT_LOG (R470): the event is logged with DATA, and hardware clears its REQ bit. -/
def execEventInjectLog (i : Fin 8) (s : State) : Out :=
  let a := 0x3F050020
  if !bit (s.hwReg a) i then .next s
  else .next ((s.post (0x1F8 + i.val) [d16 (s.rf a 31 16)]).setHw a (putBits (s.hwReg a) i i 0))

/-- D2D_RETRAIN_REQUEST (R466). -/
def execD2dRetrainRequest (m : BitVec 5) (s : State) : Out := .next (s.barTo 0xBF2C0100 (m.setWidth 32))

/-! ## The mailbox (R462 to R464) -/

/-- MAILBOX_READ and MAILBOX_WRITE: a write to MBXCTL with GO = 1. -/
def State.mbxStart (s : State) (v : Word) (dir : Nat) : State :=
  if s.pcieUp then s.barWrite 0x3F070404 (putBits (putBits v 31 31 1) 30 30 dir) false else s

/-- MAILBOX_READ (R464). -/
def execMailboxRead (v : Word) (s : State) : Out := .next (s.mbxStart v 0)
/-- MAILBOX_WRITE (R464). -/
def execMailboxWrite (v : Word) (s : State) : Out := .next (s.mbxStart v 1)

/-- The words of the MB register at `a`, bits [31:0] first (R462): DEV_TOLLHOUSE_UID alone. -/
def mbWords (n : Nat) : List Word := (List.range n).map (fun i => Config.uid.extractLsb' (32 * i) 32)

/-- With which code a mailbox operation ends (R463). -/
def State.mbxCode (s : State) (a n : Nat) : Byte :=
  if a % 4 ≠ 0 then codeBadAlign
  else if !mbRegs.contains (a, n) then codeBadWidth
  else if s.blockOff (a / 65536) then codeModeWrong
  else codeOk

/-- A mailbox operation ends (R463, R464): the value moves in one cycle; a register that is read only ignores a write. -/
def State.mbxEnd (s : State) : State :=
    let a := (s.cfgReg 0x3F070400).toNat
    let n := s.rf 0x3F070404 3 0 + 1
    let code := s.mbxCode a n
    let read := s.rf 0x3F070404 30 30 == 0
    let s := if code = codeOk && read then
        (List.range n).foldl (fun s i => s.setCfgReg (0x3F070440 + 4 * i) ((mbWords n).getD i 0)) s
      else s
    let s := if code == codeOk then s.countReg a (!read) 0 1 else s
    s.setHw 0x3F070404 (mkWord [(1, 0), (1, 0), (1, b01 (code == codeOk)), (5, 0), (8, code.toNat), (16, 0)])

/-! ## Triplicated fields (R467) -/

/-- TV_CHECK (R467): upsets flip bits of the three copies of the register at `addr`, and the background check compares them. -/
def execTvCheck (addr upA upB upC : Word) (s : State) : Out :=
  let a := addr.toNat
  let tv : Word := ((regRowAt a).map (fun r => r.mask .tv)).getD 0
  if tv = 0 then .next s
  else
    let s := (s.setCfgReg a (s.rawReg a ^^^ (upA &&& tv)))
    let s := { s with wr := { s.wr with
      tvB := tset z s.wr.tvB a (tget z s.wr.tvB a ^^^ ((upA ^^^ upB) &&& tv))
      tvC := tset z s.wr.tvC a (tget z s.wr.tvC a ^^^ ((upA ^^^ upC) &&& tv)) } }
    if (tget z s.wr.tvB a = 0 && tget z s.wr.tvC a = 0) || s.wr.tvSaid.contains a then .next s
    else .next ({ s.bstatSet a 27 with wr := { (s.bstatSet a 27).wr with tvSaid := s.wr.tvSaid ++ [a] } }.post 0x1E8 [d32 a])

/-! ## The register commands (R454 to R456, R466) -/

/-- The addresses of `n` registers from `a` upward. -/
def addrsFrom (a n : Nat) : List Nat := (List.range n).map (fun i => a + 4 * i)

/-- A range passes offset 0xFFFC of its block (R455). -/
def rangePast (a n : Nat) : Bool := 0xFFFC < a % 65536 / 4 * 4 + 4 * (n - 1)

/-- REG_RD (R454 to R456). -/
def execRegRd (h : Hdr) (p : List Word) (s : State) : Out :=
  let a := (par p 0).toNat
  let n := pf p 1 8 0
  let bad := !devWide h || p.length != 2 || pf p 1 31 9 != 0 || n == 0 || 256 < n || rangePast a n
  .next (runCommand 0x100 h p bad (h.priv == 2) (s.romServes && a / 2 ^ 30 != 0)
    [(a % 4 != 0, codeBadAlign), ((addrsFrom a n).any inMb, codeBadWidth)]
    (fun s =>
      let l := addrsFrom a n
      ((l.filter isReg).foldl (fun s a => s.countReg a false 1 h.priv.toNat) s, codeOk, l.map s.regValue)) s)

/-- One register's write by a command: the code that bars it (R455), in the order of that rule. -/
def State.cmdBars (s : State) (a : Nat) (v m : Word) : Option Byte :=
  if inMb a then some codeBadWidth
  else if s.staticBars a v m then some codeRunning
  else if s.blockBusy (a / 65536) then some codeTimeout
  else none

/-- One register's write by a command. -/
def State.cmdWrite (s : State) (priv a : Nat) (v m : Word) : State :=
  if isReg a then (s.regWrite a v m).countReg a true 1 priv else s

/-- Writes values in order until one fails (R138, R454, R455). -/
def State.regWrites (s : State) (priv : Nat) : Nat → Nat → List Word → State × Nat × Byte
  | _, k, [] => (s, k, 0)
  | a, k, v :: r =>
    match s.cmdBars a v 0xFFFFFFFF#32 with
    | some c => (s, k, c)
    | none => (s.cmdWrite priv a v 0xFFFFFFFF#32).regWrites priv (a + 4) (k + 1) r

/-- An address in block DEV_PCIE, which no command writes (R443). -/
def inPcie (a : Nat) : Bool := a / 65536 == 0x3F07

/-- A PW register, whose work outlasts its write (R465). -/
def isPw (a : Nat) : Bool := a == 0xBF2C0100

/-- The work of a PW field among `n` registers from `a` upward still runs (R465, R466). -/
def State.pwRuns (s : State) (a n : Nat) : Bool := (addrsFrom a n).any (fun x => isPw x && s.blockBusy (x / 65536))

/-- Holds a register command (R466). -/
def State.regHold (s : State) (w : RegWait) : State := { s with wr := { s.wr with waits := s.wr.waits ++ [w] } }

/-- A register command that has waited for BUSY for 100 µs fails (R466). -/
def State.regLate (s : State) (w : RegWait) : Bool := w.since + 100000 ≤ s.mono

/-- A REG_WR goes on from the register that it has come to: it ends, or it waits for BUSY to clear or for the work of a PW field (R138,
R454, R455, R466). -/
def State.regWrGo (s : State) (w : RegWait) : State :=
  let p := w.cmd.par
  let a := (par p 0).toNat
  let n := pf p 1 6 0
  let r := s.regWrites w.cmd.hdr.priv.toNat (a + 4 * w.done) w.done ((p.drop 2).drop w.done)
  let w' := { w with done := r.2.1, since := if r.2.1 = w.done then w.since else s.mono }
  if r.2.2 = codeTimeout && !r.1.regLate w' then r.1.regHold w'
  else if r.2.2 = 0 && r.1.pwRuns a n then r.1.regHold w'
  else r.1.finishDone w.cmd.op w.cmd.hdr p (batchCode n r.2.1 r.2.2) [batchWord r.2.1 r.2.2 0]

/-- A REG_WR_MASK likewise: its result is the register's value before the write. -/
def State.regMaskGo (s : State) (w : RegWait) : State :=
  let p := w.cmd.par
  let a := (par p 0).toNat
  if w.done = 0 && s.blockBusy (a / 65536) then
    if s.regLate w then s.finishDone w.cmd.op w.cmd.hdr p codeTimeout [] else s.regHold w
  else
    let w' := if w.done = 0 then { w with done := 1, old := s.regValue a } else w
    let s := if w.done = 0 then s.cmdWrite w.cmd.hdr.priv.toNat a (par p 2) (par p 1) else s
    if s.pwRuns a 1 then s.regHold w' else s.finishDone w.cmd.op w.cmd.hdr p codeOk [w'.old]

/-- An MBX_WR likewise; a register that is read only ignores the write (R462). -/
def State.mbxWrGo (s : State) (w : RegWait) : State :=
  let p := w.cmd.par
  let a := (par p 0).toNat
  if s.blockBusy (a / 65536) then
    if s.regLate w then s.finishDone w.cmd.op w.cmd.hdr p codeTimeout [] else s.regHold w
  else (s.countReg a true 1 w.cmd.hdr.priv.toNat).finishDone w.cmd.op w.cmd.hdr p codeOk []

/-- A register command goes on. -/
def State.regGo (s : State) (w : RegWait) : State :=
  match w.cmd.op with
  | 0x101 => s.regWrGo w
  | 0x102 => s.regMaskGo w
  | _ => s.mbxWrGo w

/-- The register commands that wait go on, those whose block is no longer busy and those that have waited too long (R466). -/
def State.regResume (s : State) : State :=
  s.wr.waits.foldl (fun s w => s.regGo w) { s with wr := { s.wr with waits := [] } }

/-- A register command that passes its checks begins. -/
def State.regBegin (s : State) (op : Nat) (h : Hdr) (p : List Word) : State := s.regGo ⟨⟨op, h, p⟩, 0, s.mono, 0⟩

/-- POSTED_WRITE_DONE (R465, R466): the posted work of a block has ended; a retrain that still runs has not. -/
def execPostedWriteDone (block : BitVec 16) (s : State) : Out :=
  let runs := block == 0xBF2C#16 && s.fd.d2d.training.contains (s.rf 0xBF2C0100 4 0)
  .next (if runs then s
    else State.regResume { s with wr := { s.wr with busy := s.wr.busy.filter (· != block.toNat) } })

/-- MAILBOX_DONE (R463, R464). -/
def execMailboxDone (s : State) : Out := .next (if s.mbxGo then s.mbxEnd.regResume else s)

/-- REG_WR (R454 to R456, R466). -/
def execRegWr (h : Hdr) (p : List Word) (s : State) : Out :=
  let a := (par p 0).toNat
  let n := pf p 1 6 0
  let bad := !devWide h || pf p 1 31 7 != 0 || n == 0 || 64 < n || p.length != 2 + n || rangePast a n
  .next (match s.firstBar 0x101 h bad (h.priv == 2 || inPcie a) (s.romServes && a / 2 ^ 30 != 0) [(a % 4 != 0, codeBadAlign)] with
    | some c => s.finish 0x101 h p.length c []
    | none => s.regBegin 0x101 h p)

/-- A register with MK fields. -/
def hasMk (a : Nat) : Bool := match regRowAt a with | some r => r.mask .mk != 0 | none => false

/-- REG_WR_MASK (R454 to R456, R466). -/
def execRegWrMask (h : Hdr) (p : List Word) (s : State) : Out :=
  let a := (par p 0).toNat
  let m := par p 1
  let v := par p 2
  .next (match s.firstBar 0x102 h (!devWide h || p.length != 3 || hasMk a) (h.priv == 2 || inPcie a) s.romServes
      [(a % 4 != 0, codeBadAlign), (inMb a, codeBadWidth), (s.staticBars a v m, codeRunning)] with
    | some c => s.finish 0x102 h p.length c []
    | none => s.regBegin 0x102 h p)

/-- MBX_RD (R454, R455, R462). -/
def execMbxRd (h : Hdr) (p : List Word) (s : State) : Out :=
  let a := (par p 0).toNat
  let n := pf p 1 3 0 + 1
  .next (runCommand 0x103 h p (!devWide h || p.length != 2 || pf p 1 31 4 != 0 || n == 1) (h.priv == 2) s.romServes
    [(a % 4 != 0, codeBadAlign), (!mbRegs.contains (a, n), codeBadWidth)]
    (fun s => (s.countReg a false 1 h.priv.toNat, codeOk, mbWords n)) s)

/-- MBX_WR (R454, R455, R462). -/
def execMbxWr (h : Hdr) (p : List Word) (s : State) : Out :=
  let a := (par p 0).toNat
  let n := pf p 1 3 0 + 1
  .next (match s.firstBar 0x104 h (!devWide h || pf p 1 31 4 != 0 || n == 1 || p.length != 2 + n) (h.priv == 2 || inPcie a) s.romServes
      [(a % 4 != 0, codeBadAlign), (!mbRegs.contains (a, n), codeBadWidth)] with
    | some c => s.finish 0x104 h p.length c []
    | none => s.regBegin 0x104 h p)

end Sys2Proof.Machine
end

