-- ==== Sys2Proof/Machine/Dispatch.lean ====
section
/-! DEFINITION. One arm for each constructor of `Instr`, each a direct call of that command's meaning. -/

namespace Sys2Proof.Machine

/-- The effect of a command on everything but the queue of waiting commands. -/
def exec (i : Instr) (s : State) : Host.Outcome State Fault Refusal :=
  match i with
  | .tollhouseSupplyInRange sideB railsOk slipReqN => Sys2Proof.Machine.execTollhouseSupplyInRange sideB railsOk slipReqN s
  | .resetNRelease lowNs => Sys2Proof.Machine.execResetNRelease lowNs s
  | .railsOkFall lowNs => Sys2Proof.Machine.execRailsOkFall lowNs s
  | .railsOkRise r => Sys2Proof.Machine.execRailsOkRise r s
  | .perstNAssert => Sys2Proof.Machine.execPerstNAssert s
  | .watchdogExpire => Sys2Proof.Machine.execWatchdogExpire s
  | .watchdogRefresh => Sys2Proof.Machine.execWatchdogRefresh s
  | .restartCold => Sys2Proof.Machine.execRestartCold s
  | .restartWarm => Sys2Proof.Machine.execRestartWarm s
  | .start r => Sys2Proof.Machine.execStart r s
  | .refclkLoss => Sys2Proof.Machine.execRefclkLoss s
  | .refclkRestore => Sys2Proof.Machine.execRefclkRestore s
  | .pllLockLoss pll => Sys2Proof.Machine.execPllLockLoss pll s
  | .pllRelock pll ok => Sys2Proof.Machine.execPllRelock pll ok s
  | .thermalSample reading => Sys2Proof.Machine.execThermalSample reading s
  | .railOutOfWindow rail => Sys2Proof.Machine.execRailOutOfWindow rail s
  | .pmbusPoll rail answer => Sys2Proof.Machine.execPmbusPoll rail answer s
  | .pmbAlert rail status => Sys2Proof.Machine.execPmbAlert rail status s
  | .ageingMeasure rail short => Sys2Proof.Machine.execAgeingMeasure rail short s
  | .ilkPeerChange level => Sys2Proof.Machine.execIlkPeerChange level s
  | .ilkReadbackFault osel => Sys2Proof.Machine.execIlkReadbackFault osel s
  | .interlockHoldoffExpire => Sys2Proof.Machine.execInterlockHoldoffExpire s
  | .yieldBlockExpire => Sys2Proof.Machine.execYieldBlockExpire s
  | .refereeHealthSend => Sys2Proof.Machine.execRefereeHealthSend s
  | .refereeVerdictReceive frame => Sys2Proof.Machine.execRefereeVerdictReceive frame s
  | .refereeTimeout => Sys2Proof.Machine.execRefereeTimeout s
  | .tetherLaneService lane enter => Sys2Proof.Machine.execTetherLaneService lane enter s
  | .tetherStatus f => Sys2Proof.Machine.execTetherStatus f s
  | .tetherBucketSweep f => Sys2Proof.Machine.execTetherBucketSweep f s
  | .tetherOamState f => Sys2Proof.Machine.execTetherOamState f s
  | .tetherMirroredCommand f => Sys2Proof.Machine.execTetherMirroredCommand f s
  | .tetherMirroredReply f => Sys2Proof.Machine.execTetherMirroredReply f s
  | .tetherAlignment f => Sys2Proof.Machine.execTetherAlignment f s
  | .tetherManifestCheck f => Sys2Proof.Machine.execTetherManifestCheck f s
  | .tetherAck f => Sys2Proof.Machine.execTetherAck f s
  | .tetherSpanHandshake f => Sys2Proof.Machine.execTetherSpanHandshake f s
  | .standbySpanApply g => Sys2Proof.Machine.execStandbySpanApply g s
  | .tetherGapTimeout => Sys2Proof.Machine.execTetherGapTimeout s
  | .tetherStatusSend => Sys2Proof.Machine.execTetherStatusSend s
  | .tetherSweepSend => Sys2Proof.Machine.execTetherSweepSend s
  | .tetherDownTimeout => Sys2Proof.Machine.execTetherDownTimeout s
  | .tetherUp => Sys2Proof.Machine.execTetherUp s
  | .mirrorReplyTimeout => Sys2Proof.Machine.execMirrorReplyTimeout s
  | .alignMarker chan t pos => Sys2Proof.Machine.execAlignMarker chan t pos s
  | .alignRetryTimer chan => Sys2Proof.Machine.execAlignRetryTimer chan s
  | .manifestSampleExpire => Sys2Proof.Machine.execManifestSampleExpire s
  | .standbySelftestRound item pass => Sys2Proof.Machine.execStandbySelftestRound item pass s
  | .codewordReceive tether lane ok corrected message => Sys2Proof.Machine.execCodewordReceive tether lane ok corrected message s
  | .spanBlockReceive lane pos oh => Sys2Proof.Machine.execSpanBlockReceive lane pos oh s
  | .spanFramePeriodEnd lane seen => Sys2Proof.Machine.execSpanFramePeriodEnd lane seen s
  | .spanInstanceFrameReceive port inst frame => Sys2Proof.Machine.execSpanInstanceFrameReceive port inst frame s
  | .spanFrameTransmit port fill => Sys2Proof.Machine.execSpanFrameTransmit port fill s
  | .dlocwExitTimer lane => Sys2Proof.Machine.execDlocwExitTimer lane s
  | .dlocwLockTimeout lane => Sys2Proof.Machine.execDlocwLockTimeout lane s
  | .holdoverExit port => Sys2Proof.Machine.execHoldoverExit port s
  | .justHoldoverRelease port => Sys2Proof.Machine.execJustHoldoverRelease port s
  | .degSecondEnd port => Sys2Proof.Machine.execDegSecondEnd port s
  | .portStandardDefect port defect enter => Sys2Proof.Machine.execPortStandardDefect port defect enter s
  | .flexeCalendarSwitch port => Sys2Proof.Machine.execFlexeCalendarSwitch port s
  | .otnEntryCommit port => Sys2Proof.Machine.execOtnEntryCommit port s
  | .frameReceive chan units frame => Sys2Proof.Machine.execFrameReceive chan units frame s
  | .spanWordReceive g => Sys2Proof.Machine.execSpanWordReceive g s
  | .spanBlockRead g => Sys2Proof.Machine.execSpanBlockRead g s
  | .dglosEntryTimer g => Sys2Proof.Machine.execDglosEntryTimer g s
  | .dglosExitTimer g => Sys2Proof.Machine.execDglosExitTimer g s
  | .dgpartExitTimer g => Sys2Proof.Machine.execDgpartExitTimer g s
  | .spanSwitchMultiframe g => Sys2Proof.Machine.execSpanSwitchMultiframe g s
  | .spanResizeApplyRx g => Sys2Proof.Machine.execSpanResizeApplyRx g s
  | .spanResizeDone g => Sys2Proof.Machine.execSpanResizeDone g s
  | .spanResizeTimeout g => Sys2Proof.Machine.execSpanResizeTimeout g s
  | .linePortCfg h p => Sys2Proof.Machine.execLinePortCfg h p s
  | .lineStatus h p => Sys2Proof.Machine.execLineStatus h p s
  | .spanGroupCfg h p => Sys2Proof.Machine.execSpanGroupCfg h p s
  | .spanResize h p => Sys2Proof.Machine.execSpanResize h p s
  | .ingressDispatch slice flt => Sys2Proof.Machine.execIngressDispatch slice flt s
  | .fragEntryExpire n => Sys2Proof.Machine.execFragEntryExpire n s
  | .puntBucketRefill => Sys2Proof.Machine.execPuntBucketRefill s
  | .gangwayMove h p => Sys2Proof.Machine.execGangwayMove h p s
  | .gangwayMoveDrained b => Sys2Proof.Machine.execGangwayMoveDrained b s
  | .gangwayMoveAbandon b => Sys2Proof.Machine.execGangwayMoveAbandon b s
  | .domainWakeComplete dom => Sys2Proof.Machine.execDomainWakeComplete dom s
  | .clsBegin h p => Sys2Proof.Machine.execClsBegin h p s
  | .clsStage h p => Sys2Proof.Machine.execClsStage h p s
  | .clsCommit h p => Sys2Proof.Machine.execClsCommit h p s
  | .clsAbort h p => Sys2Proof.Machine.execClsAbort h p s
  | .clsSwitch => Sys2Proof.Machine.execClsSwitch s
  | .add x => Sys2Proof.Machine.execAdd x s
  | .sub x => Sys2Proof.Machine.execSub x s
  | .and x => Sys2Proof.Machine.execAnd x s
  | .or x => Sys2Proof.Machine.execOr x s
  | .xor x => Sys2Proof.Machine.execXor x s
  | .shl x => Sys2Proof.Machine.execShl x s
  | .shr x => Sys2Proof.Machine.execShr x s
  | .movi x => Sys2Proof.Machine.execMovi x s
  | .movh x => Sys2Proof.Machine.execMovh x s
  | .ext x => Sys2Proof.Machine.execExt x s
  | .ins x => Sys2Proof.Machine.execIns x s
  | .beq x => Sys2Proof.Machine.execBeq x s
  | .bne x => Sys2Proof.Machine.execBne x s
  | .blt x => Sys2Proof.Machine.execBlt x s
  | .bge x => Sys2Proof.Machine.execBge x s
  | .jmp x => Sys2Proof.Machine.execJmp x s
  | .ldf x => Sys2Proof.Machine.execLdf x s
  | .stf x => Sys2Proof.Machine.execStf x s
  | .ldh x => Sys2Proof.Machine.execLdh x s
  | .hash x => Sys2Proof.Machine.execHash x s
  | .lke x => Sys2Proof.Machine.execLke x s
  | .lkl x => Sys2Proof.Machine.execLkl x s
  | .lka x => Sys2Proof.Machine.execLka x s
  | .mtr x => Sys2Proof.Machine.execMtr x s
  | .cnt x => Sys2Proof.Machine.execCnt x s
  | .edit x => Sys2Proof.Machine.execEdit x s
  | .punt x => Sys2Proof.Machine.execPunt x s
  | .fwd x => Sys2Proof.Machine.execFwd x s
  | .drop x => Sys2Proof.Machine.execDrop x s
  | .actionLookupComplete t => Sys2Proof.Machine.execActionLookupComplete t s
  | .engineCheckFail slice egress threads => Sys2Proof.Machine.execEngineCheckFail slice egress threads s
  | .csScrubRead slice addr word => Sys2Proof.Machine.execCsScrubRead slice addr word s
  | .actLoad h p => Sys2Proof.Machine.execActLoad h p s
  | .actRead h p => Sys2Proof.Machine.execActRead h p s
  | .rolloutStepStart => Sys2Proof.Machine.execRolloutStepStart s
  | .rolloutStepSwitch => Sys2Proof.Machine.execRolloutStepSwitch s
  | .rolloutStepReload pass => Sys2Proof.Machine.execRolloutStepReload pass s
  | .egressDispatch slice => Sys2Proof.Machine.execEgressDispatch slice s
  | .egressFrameTransmit node => Sys2Proof.Machine.execEgressFrameTransmit node s
  | .flitReceive m dir flit => Sys2Proof.Machine.execFlitReceive m dir flit s
  | .d2dRetrain m => Sys2Proof.Machine.execD2dRetrain m s
  | .d2dRetrainEnd m ok lanes => Sys2Proof.Machine.execD2dRetrainEnd m ok lanes s
  | .d2dGapTimeout slice => Sys2Proof.Machine.execD2dGapTimeout slice s
  | .ingressDescriptorReceive desc data tail mapBad => Sys2Proof.Machine.execIngressDescriptorReceive desc data tail mapBad s
  | .tblInsert h p => Sys2Proof.Machine.execTblInsert h p s
  | .tblDelete h p => Sys2Proof.Machine.execTblDelete h p s
  | .tblSearch h p => Sys2Proof.Machine.execTblSearch h p s
  | .tblNext h p => Sys2Proof.Machine.execTblNext h p s
  | .tblFlushPort h p => Sys2Proof.Machine.execTblFlushPort h p s
  | .tblSync h p => Sys2Proof.Machine.execTblSync h p s
  | .lpmAdd h p => Sys2Proof.Machine.execLpmAdd h p s
  | .lpmDel h p => Sys2Proof.Machine.execLpmDel h p s
  | .learnApply c => Sys2Proof.Machine.execLearnApply c s
  | .crossPostApply c => Sys2Proof.Machine.execCrossPostApply c s
  | .agingPass c tid bad => Sys2Proof.Machine.execAgingPass c tid bad s
  | .flushComplete port => Sys2Proof.Machine.execFlushComplete port s
  | .tblSyncComplete => Sys2Proof.Machine.execTblSyncComplete s
  | .tblIteratorTimeout c h => Sys2Proof.Machine.execTblIteratorTimeout c h s
  | .exactHashcfgWrite v => Sys2Proof.Machine.execExactHashcfgWrite v s
  | .lpmRebuildComplete vrf v6 => Sys2Proof.Machine.execLpmRebuildComplete vrf v6 s
  | .ascWrite h p => Sys2Proof.Machine.execAscWrite h p s
  | .ascInsert h p => Sys2Proof.Machine.execAscInsert h p s
  | .ascDelete h p => Sys2Proof.Machine.execAscDelete h p s
  | .ascSearch h p => Sys2Proof.Machine.execAscSearch h p s
  | .ascRead h p => Sys2Proof.Machine.execAscRead h p s
  | .ascChainCfg h p => Sys2Proof.Machine.execAscChainCfg h p s
  | .ascBlockMoveStep => Sys2Proof.Machine.execAscBlockMoveStep s
  | .ascScrubCompare bank row differs shadowBad => Sys2Proof.Machine.execAscScrubCompare bank row differs shadowBad s
  | .ascSpareSwap => Sys2Proof.Machine.execAscSpareSwap s
  | .ascActMsEnd => Sys2Proof.Machine.execAscActMsEnd s
  | .xbarMatching => Sys2Proof.Machine.execXbarMatching s
  | .xbarPackTimeout input out cls => Sys2Proof.Machine.execXbarPackTimeout input out cls s
  | .xbarMcAge input => Sys2Proof.Machine.execXbarMcAge input s
  | .xbarCellReceive out headerOk => Sys2Proof.Machine.execXbarCellReceive out headerOk s
  | .queueAdmit slice badPops replBad => Sys2Proof.Machine.execQueueAdmit slice badPops replBad s
  | .tailStatusReceive id bad => Sys2Proof.Machine.execTailStatusReceive id bad s
  | .promoAgeExpire q => Sys2Proof.Machine.execPromoAgeExpire q s
  | .promotionWrite q badPops => Sys2Proof.Machine.execPromotionWrite q badPops s
  | .promotionWriteComplete q => Sys2Proof.Machine.execPromotionWriteComplete q s
  | .berthStagingRead q data trailer => Sys2Proof.Machine.execBerthStagingRead q data trailer s
  | .berthFree berth slice => Sys2Proof.Machine.execBerthFree berth slice s
  | .checkRingResult => Sys2Proof.Machine.execCheckRingResult s
  | .berthPoolcfgWrite pool v => Sys2Proof.Machine.execBerthPoolcfgWrite pool v s
  | .berthAudit h p => Sys2Proof.Machine.execBerthAudit h p s
  | .berthAuditRebuild => Sys2Proof.Machine.execBerthAuditRebuild s
  | .berthAuditComplete => Sys2Proof.Machine.execBerthAuditComplete s
  | .berthQlist h p => Sys2Proof.Machine.execBerthQlist h p s
  | .mcGroupSet h p => Sys2Proof.Machine.execMcGroupSet h p s
  | .mcGroupRead h p => Sys2Proof.Machine.execMcGroupRead h p s
  | .schedRelease node low read lost => Sys2Proof.Machine.execSchedRelease node low read lost s
  | .shaperRefill kind node => Sys2Proof.Machine.execShaperRefill kind node s
  | .meterRefill m => Sys2Proof.Machine.execMeterRefill m s
  | .timetableRetire => Sys2Proof.Machine.execTimetableRetire s
  | .queueSamplerVisit q => Sys2Proof.Machine.execQueueSamplerVisit q s
  | .portLinkChange node => Sys2Proof.Machine.execPortLinkChange node s
  | .portHoldExpire node => Sys2Proof.Machine.execPortHoldExpire node s
  | .portFlushComplete node => Sys2Proof.Machine.execPortFlushComplete node s
  | .queueCfg h p => Sys2Proof.Machine.execQueueCfg h p s
  | .nodeCfg h p => Sys2Proof.Machine.execNodeCfg h p s
  | .shaperSet h p => Sys2Proof.Machine.execShaperSet h p s
  | .portHold h p => Sys2Proof.Machine.execPortHold h p s
  | .queueStat h p => Sys2Proof.Machine.execQueueStat h p s
  | .meterSet h p => Sys2Proof.Machine.execMeterSet h p s
  | .meterRead h p => Sys2Proof.Machine.execMeterRead h p s
  | .fabricCellReceive link head payload => Sys2Proof.Machine.execFabricCellReceive link head payload s
  | .fabricCellTransmit g => Sys2Proof.Machine.execFabricCellTransmit g s
  | .fabricLinkService link => Sys2Proof.Machine.execFabricLinkService link s
  | .fabricStopExpire link k => Sys2Proof.Machine.execFabricStopExpire link k s
  | .landingGapTimeout src g cls dest => Sys2Proof.Machine.execLandingGapTimeout src g cls dest s
  | .landingContextFree src g cls dest => Sys2Proof.Machine.execLandingContextFree src g cls dest s
  | .dupEntryExpire ssid osrc man => Sys2Proof.Machine.execDupEntryExpire ssid osrc man s
  | .fabQmapSet h p => Sys2Proof.Machine.execFabQmapSet h p s
  | .fabQmapRead h p => Sys2Proof.Machine.execFabQmapRead h p s
  | .pairCfg h p => Sys2Proof.Machine.execPairCfg h p s
  | .pairAlign h p => Sys2Proof.Machine.execPairAlign h p s
  | .pairHealth h p => Sys2Proof.Machine.execPairHealth h p s
  | .pairYield h p => Sys2Proof.Machine.execPairYield h p s
  | .hbmRefreshWindow m pc bank issued => Sys2Proof.Machine.execHbmRefreshWindow m pc bank issued s
  | .hbmPatrolScrub m pc row region found => Sys2Proof.Machine.execHbmPatrolScrub m pc row region found s
  | .hbmRedirectComplete m pc row => Sys2Proof.Machine.execHbmRedirectComplete m pc row s
  | .hbmPcSwap m => Sys2Proof.Machine.execHbmPcSwap m s
  | .storeBlockRetire block => Sys2Proof.Machine.execStoreBlockRetire block s
  | .storeCheckpoint h p => Sys2Proof.Machine.execStoreCheckpoint h p s
  | .checkpointInstant kib => Sys2Proof.Machine.execCheckpointInstant kib s
  | .checkpointComplete fail => Sys2Proof.Machine.execCheckpointComplete fail s
  | .journalBucketRefill => Sys2Proof.Machine.execJournalBucketRefill s
  | .retentionPass block corrections => Sys2Proof.Machine.execRetentionPass block corrections s
  | .retentionProgressLog => Sys2Proof.Machine.execRetentionProgressLog s
  | .lifeLogWrite => Sys2Proof.Machine.execLifeLogWrite s
  | .spareApply h p => Sys2Proof.Machine.execSpareApply h p s
  | .memHealth h p => Sys2Proof.Machine.execMemHealth h p s
  | .lifeRead h p => Sys2Proof.Machine.execLifeRead h p s
  | .timeAdj h p => Sys2Proof.Machine.execTimeAdj h p s
  | .timeRead h p => Sys2Proof.Machine.execTimeRead h p s
  | .ppsEdge => Sys2Proof.Machine.execPpsEdge s
  | .ppsEdgeMissing => Sys2Proof.Machine.execPpsEdgeMissing s
  | .todMessageReceive msg => Sys2Proof.Machine.execTodMessageReceive msg s
  | .ppsOutEdge rise => Sys2Proof.Machine.execPpsOutEdge rise s
  | .oamSessionSet h p => Sys2Proof.Machine.execOamSessionSet h p s
  | .oamSessionDel h p => Sys2Proof.Machine.execOamSessionDel h p s
  | .oamSessionRead h p => Sys2Proof.Machine.execOamSessionRead h p s
  | .oamChanges h p => Sys2Proof.Machine.execOamChanges h p s
  | .oamTxTimer k => Sys2Proof.Machine.execOamTxTimer k s
  | .oamDetectExpire k => Sys2Proof.Machine.execOamDetectExpire k s
  | .oamFrameReceive => Sys2Proof.Machine.execOamFrameReceive s
  | .flowCounterWrite m pc row found => Sys2Proof.Machine.execFlowCounterWrite m pc row found s
  | .cntProgram h p => Sys2Proof.Machine.execCntProgram h p s
  | .cntSnapshot h p => Sys2Proof.Machine.execCntSnapshot h p s
  | .cntSnapshotInstant space => Sys2Proof.Machine.execCntSnapshotInstant space s
  | .cntSnapshotComplete space => Sys2Proof.Machine.execCntSnapshotComplete space s
  | .cntRead h p => Sys2Proof.Machine.execCntRead h p s
  | .cntGrant h p => Sys2Proof.Machine.execCntGrant h p s
  | .portCntRead h p => Sys2Proof.Machine.execPortCntRead h p s
  | .ctailWrite n v => Sys2Proof.Machine.execCtailWrite n v s
  | .commandFetch n bytes => Sys2Proof.Machine.execCommandFetch n bytes s
  | .rheadWrite n v => Sys2Proof.Machine.execRheadWrite n v s
  | .oheadWrite m v => Sys2Proof.Machine.execOheadWrite m v s
  | .ringEnable n v => Sys2Proof.Machine.execRingEnable n v s
  | .ringDisable n v => Sys2Proof.Machine.execRingDisable n v s
  | .outRingEnable m v => Sys2Proof.Machine.execOutRingEnable m v s
  | .outRingDisable m v => Sys2Proof.Machine.execOutRingDisable m v s
  | .puntRecordWrite => Sys2Proof.Machine.execPuntRecordWrite s
  | .nop h p => Sys2Proof.Machine.execNop h p s
  | .waitAttn h p => Sys2Proof.Machine.execWaitAttn h p s
  | .waitAttnChange n => Sys2Proof.Machine.execWaitAttnChange n s
  | .waitAttnTimeout n => Sys2Proof.Machine.execWaitAttnTimeout n s
  | .modeSet h p => Sys2Proof.Machine.execModeSet h p s
  | .modeTransitionComplete => Sys2Proof.Machine.execModeTransitionComplete s
  | .ident h p => Sys2Proof.Machine.execIdent h p s
  | .ctrlIdlePowerDown => Sys2Proof.Machine.execCtrlIdlePowerDown s
  | .regRd h p => Sys2Proof.Machine.execRegRd h p s
  | .regWr h p => Sys2Proof.Machine.execRegWr h p s
  | .regWrMask h p => Sys2Proof.Machine.execRegWrMask h p s
  | .mbxRd h p => Sys2Proof.Machine.execMbxRd h p s
  | .mbxWr h p => Sys2Proof.Machine.execMbxWr h p s
  | .registerWrite off v => Sys2Proof.Machine.execRegisterWrite off v s
  | .barNarrowAccess write half off v => Sys2Proof.Machine.execBarNarrowAccess write half off v s
  | .barUnalignedAccess write off => Sys2Proof.Machine.execBarUnalignedAccess write off s
  | .barWideAccess write off dwords => Sys2Proof.Machine.execBarWideAccess write off dwords s
  | .barWindowPoweredOff write off v => Sys2Proof.Machine.execBarWindowPoweredOff write off v s
  | .mailboxRead v => Sys2Proof.Machine.execMailboxRead v s
  | .mailboxWrite v => Sys2Proof.Machine.execMailboxWrite v s
  | .mailboxDone => Sys2Proof.Machine.execMailboxDone s
  | .postedWriteDone block => Sys2Proof.Machine.execPostedWriteDone block s
  | .d2dRetrainRequest m => Sys2Proof.Machine.execD2dRetrainRequest m s
  | .tvCheck addr upA upB upC => Sys2Proof.Machine.execTvCheck addr upA upB upC s
  | .eventInject v => Sys2Proof.Machine.execEventInject v s
  | .eventInjectLog req => Sys2Proof.Machine.execEventInjectLog req s
  | .hostflagWrite v => Sys2Proof.Machine.execHostflagWrite v s
  | .ferrymanWindow uses buckets => Sys2Proof.Machine.execFerrymanWindow uses buckets s
  | .ferrymanDrainComplete => Sys2Proof.Machine.execFerrymanDrainComplete s
  | .ferrymanPowerOff slice => Sys2Proof.Machine.execFerrymanPowerOff slice s
  | .idleGate dom => Sys2Proof.Machine.execIdleGate dom s
  | .queueSlicePowerOff n => Sys2Proof.Machine.execQueueSlicePowerOff n s
  | .pwrPolicy h p => Sys2Proof.Machine.execPwrPolicy h p s
  | .pwrStatus h p => Sys2Proof.Machine.execPwrStatus h p s
  | .drainEmpty => Sys2Proof.Machine.execDrainEmpty s
  | .drainTimeout => Sys2Proof.Machine.execDrainTimeout s
  | .quiescentEntryComplete => Sys2Proof.Machine.execQuiescentEntryComplete s
  | .fwStage h p data => Sys2Proof.Machine.execFwStage h p data s
  | .fwVerify h p => Sys2Proof.Machine.execFwVerify h p s
  | .fwVerifyComplete img fails patches => Sys2Proof.Machine.execFwVerifyComplete img fails patches s
  | .fwStageTimeout obj => Sys2Proof.Machine.execFwStageTimeout obj s
  | .fwActivateAt h p => Sys2Proof.Machine.execFwActivateAt h p s
  | .fwRollback h p => Sys2Proof.Machine.execFwRollback h p s
  | .patchList h p => Sys2Proof.Machine.execPatchList h p s
  | .rolloutStart => Sys2Proof.Machine.execRolloutStart s
  | .controlRestart => Sys2Proof.Machine.execControlRestart s
  | .controlRestartQuiesceTimeout => Sys2Proof.Machine.execControlRestartQuiesceTimeout s
  | .controlRestartComplete => Sys2Proof.Machine.execControlRestartComplete s
  | .controlRestartFallback => Sys2Proof.Machine.execControlRestartFallback s
  | .slipwayOffer msg fails => Sys2Proof.Machine.execSlipwayOffer msg fails s
  | .slipwayData msg => Sys2Proof.Machine.execSlipwayData msg s
  | .slipwayDone msg => Sys2Proof.Machine.execSlipwayDone msg s
  | .slipwayAckTimer => Sys2Proof.Machine.execSlipwayAckTimer s
  | .slipwayArp mac senderIp targetIp => Sys2Proof.Machine.execSlipwayArp mac senderIp targetIp s
  | .slipwayIcmpEcho mac sourceIp destIp data => Sys2Proof.Machine.execSlipwayIcmpEcho mac sourceIp destIp data s
  | .eventLogEntry => Sys2Proof.Machine.execEventLogEntry s
  | .evtRead h p => Sys2Proof.Machine.execEvtRead h p s
  | .evtAck h p => Sys2Proof.Machine.execEvtAck h p s
  | .evtMask h p => Sys2Proof.Machine.execEvtMask h p s
  | .coreMachineCheck core journalLost => Sys2Proof.Machine.execCoreMachineCheck core journalLost s
  | .prbsCfg h p => Sys2Proof.Machine.execPrbsCfg h p s
  | .prbsRead h p found => Sys2Proof.Machine.execPrbsRead h p found s
  | .bistRun h p => Sys2Proof.Machine.execBistRun h p s
  | .bistComplete kind failing ms => Sys2Proof.Machine.execBistComplete kind failing ms s
  | .pcieLoopbackEnd => Sys2Proof.Machine.execPcieLoopbackEnd s
  | .tapReset => Sys2Proof.Machine.execTapReset s
  | .extest ext => Sys2Proof.Machine.execExtest ext s
  | .idcode => Sys2Proof.Machine.execIdcode s
  | .samplePreload ext data => Sys2Proof.Machine.execSamplePreload ext data s
  | .extestPulse ext => Sys2Proof.Machine.execExtestPulse ext s
  | .extestTrain ext => Sys2Proof.Machine.execExtestTrain ext s
  | .clamp => Sys2Proof.Machine.execClamp s
  | .highz => Sys2Proof.Machine.execHighz s
  | .bypass code => Sys2Proof.Machine.execBypass code s
  | .tollhouseSupplyLoss => Sys2Proof.Machine.execTollhouseSupplyLoss s
  | .hbmTemperatureChange m reading => Sys2Proof.Machine.execHbmTemperatureChange m reading s
  | .slewComplete => Sys2Proof.Machine.execSlewComplete s
  | .prbsCheckerLock type unit rx => Sys2Proof.Machine.execPrbsCheckerLock type unit rx s
  | .prbsCheckerLockLoss type unit bits errors => Sys2Proof.Machine.execPrbsCheckerLockLoss type unit bits errors s
  | .persistentCountersWrite => Sys2Proof.Machine.execPersistentCountersWrite s

end Sys2Proof.Machine
end

