-- ==== Sys2Proof/Machine/Tick.lean ====
section
/-! DEFINITION. One tick of the tollhouse's 50 MHz clock with no command at hand: what the part does by itself as time goes on
(R46, R327, R357, R370, R380, R400, R514, R546; log 80). -/

namespace Sys2Proof.Machine

/-- Ticks of a power-on hour. -/
def hourTicks : Nat := 180000000000

/-- An hour ends (R357, R370, R377): power-on hours count, and each stack's corrected errors of the hour stand. -/
def State.hourEnds (s : State) : State :=
  let s := { s with spares := { s.spares with poh := s.spares.poh + 1 } }
  (List.range 4).foldl (fun s m => s.putStack m { s.stack m with ce := (s.stack m).ceNow, ceNow := 0 }) s

/-- The 24 cycles of the 1.2 GHz clock in a tick, where the traffic die runs (R400). -/
def State.countCycles (s : State) : State :=
  if s.domain 7 = 0 then s.countN ⟨0x00, 0, 0, none, none, 0⟩ 24 else s

/-- One tick; without the tollhouse supply no clock runs (R564). -/
def State.tick (s : State) : State :=
  if s.dead then s else
  let s := { s with time := s.time.tick }
  let s := s.countCycles.tickRuns.flitTicks
  let s := if s.time.ticks % hourTicks = 0 then s.hourEnds else s
  let s := State.noteIdle (if s.pwr.wakeQ.isEmpty then s else s.surge)
  let s := if s.wr.waits.isEmpty then s else s.regResume
  s.judgeRole.restartLoads

end Sys2Proof.Machine
end

