-- ==== Sys2Proof/WellFormed.lean ====
section
/-! DEFINITION. What a command's operands must satisfy beyond their types, for its row to be what the spec describes. The
machine needs none of it: a meaning is total, and drops or refuses what the spec's own checks refuse. -/

namespace Sys2Proof

/-- Rows of an HBM pseudo-channel (R351, R375). -/
def pcRows : Nat := 589824

/-- Units of a PRBS type (R544). -/
def prbsUnitsOf (type : Nat) : Nat := [128, 192, 8, 24, 8, 1].getD type 0

/-- LEN of a command packet's first word, as it stands in ring memory (R423). -/
def packetLen : List Byte → Nat
  | a :: b :: _ => a.toNat + 256 * b.toNat
  | _ => 0

/-- A tether frame is of the row's TTYPE, and its reserved FLAGS bits are zero (R334). -/
def TetherFrame.isType (f : TetherFrame) (n : Nat) : Bool :=
  f.ttype.toNat == n && f.flags.toNat < (if n = 8 then 2 else 1) && f.payload.length < 65536

/-- A start report names a phase of R490 at which a start can fail (R492). -/
def StartReport.ok (r : StartReport) : Bool := r.failPhase != some 6

/-- The operands of a command are what its row carries. -/
def wellFormed : Instr → Bool
  | .start r | .railsOkRise r => r.ok
  | .tetherStatus f => f.isType 1
  | .tetherBucketSweep f => f.isType 2
  | .tetherOamState f => f.isType 3
  | .tetherMirroredCommand f => f.isType 4
  | .tetherMirroredReply f => f.isType 5
  | .tetherAlignment f => f.isType 6
  | .tetherManifestCheck f => f.isType 7
  | .tetherAck f => f.isType 8
  | .tetherSpanHandshake f => f.isType 9
  | .flitReceive _ _ flit => flit.length == 64
  | .hbmPatrolScrub _ _ row _ _ => row < pcRows
  | .hbmRedirectComplete _ _ row => row < pcRows
  | .commandFetch _ bytes => bytes.length == packetLen bytes
  | .fwStage _ p data => p.length < 3 || (p.getD 0 0).toNat / 2 ^ 30 != 1 || data.length == (p.getD 2 0).toNat
  | .prbsCheckerLock type unit _ | .prbsCheckerLockLoss type unit _ _ => unit.val < prbsUnitsOf type.val
  | .barWideAccess _ _ dwords => 0 < dwords.length
  | .fabricCellReceive _ _ payload => payload.length ≤ 256
  | .slipwayOffer msg _ | .slipwayData msg | .slipwayDone msg => 20 ≤ msg.length
  | _ => true

end Sys2Proof
end

