-- ==== Sys2Proof/Safety.lean ====
section
/-! DEFINITION. What counts as a safe run of the block, in the terms the statements use. -/

namespace Sys2Proof.Machine

/-- The block goes on: its step answers a next state, and never a fault or a refusal. -/
def Runs (s : State) : Prop := ∃ t, step s = .next t

/-- The tollhouse's domain is on, as it is from the moment its supply comes into range (R475, R476). -/
def TollhouseOn (s : State) : Prop := s.domain 0 = 0

/-- The canonical form of the bytes that the block has written into host memory: addresses strictly rising, each once. -/
def memWf (m : List Host.Cell) : Bool := trising m

/-- Every waiting command is well formed. -/
def QueueWellFormed (s : State) : Prop := ∀ c ∈ s.pending, Sys2Proof.wellFormed c = true

/-- The parts of the state, by which statements say what a command leaves alone. -/
inductive Part
  | pending | free | cfg | time | ev | host | wr | pwr | pins | fw | store | mem | spares | pair | test | line | oam | cnt | fd | td
  deriving DecidableEq, Repr

/-- Two states agree on a part. -/
def Part.same (s t : State) : Part → Prop
  | .pending => t.pending = s.pending
  | .free => t.free = s.free
  | .cfg => t.cfg = s.cfg
  | .time => t.time = s.time
  | .ev => t.ev = s.ev
  | .host => t.host = s.host
  | .wr => t.wr = s.wr
  | .pwr => t.pwr = s.pwr
  | .pins => t.pins = s.pins
  | .fw => t.fw = s.fw
  | .store => t.store = s.store
  | .mem => t.mem = s.mem
  | .spares => t.spares = s.spares
  | .pair => t.pair = s.pair
  | .test => t.test = s.test
  | .line => t.line = s.line
  | .oam => t.oam = s.oam
  | .cnt => t.cnt = s.cnt
  | .fd => t.fd = s.fd
  | .td => t.td = s.td

/-- From `s` to `t` nothing changes outside the parts `ps`. -/
def OnlyIn (ps : List Part) (s t : State) : Prop := ∀ p, p ∉ ps → p.same s t

/-- Command `c` with opcode `op`, header `h` and parameters `p` takes effect on `s`: the effect leads to `u`, and the
command then ends with code `code` and results `rs` (R338, R429). -/
def TakesEffect (c : Hdr → List Word → Instr) (op : Nat) (h : Hdr) (p : List Word) (s u : State) (code : Byte)
    (rs : List Word) : Prop :=
  exec (c h p) s = .next (u.finishDone op h p code rs)

/-- Thread `t` fetches `x`'s word, with good parity, and issues it within the limits of R203: `cost` issue cycles, `looks`
lookups (R200, R201, R203). -/
def Fetches (opc : Nat) (x : ActOp) (cost looks : Nat) (t : Thread) (s : State) : Prop :=
  s.ready x.thread = some t ∧ x.parity = true ∧ s.codeWord t.pc = insnWord x opc ∧ t.cycles + cost ≤ 1024 ∧ t.looks + looks ≤ 8

/-- A thread after it has issued `cost` cycles and `looks` lookups and goes to control-store address `pc`. -/
def Thread.goes (t : Thread) (cost looks pc : Nat) : Thread :=
  { t with cycles := t.cycles + cost, looks := t.looks + looks, pc := pc }

end Sys2Proof.Machine
end

