-- ==== Sys2Proof/Certificates/Slice0/Obligations.lean ====
section
/-! DEFINITION. What the model is to satisfy: for every command of the table where it completes and what it then changes, the order
in which checks decide, what reset leaves, and what no command and no tick changes. -/

open Sys2Proof Sys2Proof.Machine

/-- A step runs the command at the front of the queue with the queue's rest, and with no command waiting the 50 MHz clock
ticks once (the model's choice, log 80). -/
def Obligations.StepRunsTheFrontCommand : Prop :=
  (∀ (c : Instr) (rest : List Instr) (s : State),
    step { s with pending := c :: rest } = exec c { s with pending := rest }) ∧
  (∀ s : State, s.pending = [] → step s = .next s.tick ∧ s.tick.pending = [])

/-- R10, R285, R319, R477, R483, R488, and R263: the state after the tollhouse supply has come into range. -/
def Obligations.ResetLeaves : Prop :=
  let s := State.reset
  s.pwr.mode = .boot ∧ TollhouseOn s ∧ (∀ d, 1 ≤ d → d < 64 → s.domain d = 2) ∧ s.pending = [] ∧ s.ev.flight = [] ∧ s.ev.log = [] ∧
    s.cfg.pair.en = false ∧ s.cfg.pair.auto = false ∧ s.cfg.pair.refEn = false ∧ s.cfg.pair.mirror = false ∧
    s.cfg.pair.refTmo = 5 ∧ s.cfg.pair.yieldMask = 0 ∧ s.cfg.pair.peerNode = 0 ∧ s.cfg.pair.alignWin = 10 ∧ s.cfg.pair.pathOfs = 0 ∧
    s.store.warm = false ∧ s.store.resume = 0 ∧ (∀ n, s.holdMs n = 0) ∧ (∀ n, n < 8 → s.ringOn n = false) ∧
    (∀ q, s.queueCfg q = ⟨false, 7, q / 8, 1, 0⟩) ∧ (∀ g, s.groupCfg g = ⟨false, g / 8, 7, 1⟩) ∧
    idcodeWord = 0x1B2564E3#32 ∧ s.rf 0xBF220000 31 20 = 32 ∧ s.rf 0xBF220000 19 8 = 64

/-- Every command of the table has its effect in every state: none faults and none is refused, and so the block never stops. -/
def Obligations.EveryCommandIsServed : Prop :=
  (∀ (c : Instr) (s : State), ∃ t, exec c s = .next t) ∧ ∀ s : State, Runs s

/-- The tollhouse's domain, which R475 calls "Never off", stays on through every command and every tick. -/
def Obligations.EveryStepKeepsTheTollhouseOn : Prop :=
  (∀ (c : Instr) (s t : State), TollhouseOn s → exec c s = .next t → TollhouseOn t) ∧
  (∀ s t : State, TollhouseOn s → step s = .next t → TollhouseOn t)

/-- R580: of the conditions of a command, in its order, the first that holds decides the reply and the command has no other
effect; where none holds it takes effect. -/
def Obligations.ChecksDecideInOrder : Prop :=
  ∀ (op : Nat) (h : Hdr) (p : List Word) (bad perm mode : Bool) (rest : List (Bool × Byte))
      (eff : State → State × Byte × List Word) (s : State),
    let r := runCommand op h p bad perm mode rest eff s
    (bad = true → r = s.finish op h p.length codeBadParam []) ∧
    (bad = false → perm = true → r = s.finish op h p.length codeNotPermitted []) ∧
    (bad = false → perm = false → mode = true → r = s.finish op h p.length codeModeWrong []) ∧
    (bad = false → perm = false → mode = false → s.mirrorRefuses op h = true → r = s.finish op h p.length codeNotActing []) ∧
    (bad = false → perm = false → mode = false → s.mirrorRefuses op h = false →
      (∀ l1 c l2, rest = l1 ++ (true, c) :: l2 → (∀ x ∈ l1, x.1 = false) → r = s.finish op h p.length c []) ∧
      ((∀ x ∈ rest, x.1 = false) → r = (eff s).1.finishDone op h p (eff s).2.1 (eff s).2.2))

/-- R529: every occurrence of a listed source adds one to its 32-bit counter, wrapping to 0, though a once-a-second limit or a
mask keeps it from the log or the log is full; and no other source's counter changes. -/
def Obligations.EveryOccurrenceIsCounted : Prop :=
  ∀ (s : State) (r : EvRec) l, attnLevel r.src = some l →
    let t := s.takeEvent r
    t.ev.counts = tset z s.ev.counts r.src (tget z s.ev.counts r.src + 1) ∧
    (trising s.ev.counts = true → tget z t.ev.counts r.src = tget z s.ev.counts r.src + 1) ∧
    (∀ k, k ≠ r.src → tget z t.ev.counts k = tget z s.ev.counts k) ∧
    (r.limited = true ∨ s.ev.mask.getLsbD r.src = true → t.ev.log = s.ev.log ∧ t.ev.seq = s.ev.seq) ∧
    (r.limited = false → s.ev.mask.getLsbD r.src = false → 1024 ≤ s.unread → t.ev.log = s.ev.log ∧ t.ev.lost = s.ev.lost + 1) ∧
    (nextEvent s.ev.flight = some r → s.ev.owed = false → s.unread < 1024 → ∃ u, exec .eventLogEntry s = .next u ∧
      u.ev.counts = tset z s.ev.counts r.src (tget z s.ev.counts r.src + 1))

/-- R460: an access at an address that is no multiple of its size, or whose byte enables are not contiguous, is dropped where
it is a write, reads zero where it is a read, and logs event 0x1E5 with its offset, at most once in a DEVTIME second. -/
def Obligations.UnalignedAccessesAreDropped : Prop :=
  ∀ (off : BitVec 20) (s : State), s.pcieUp = true →
    let w := s.postOnce 0x1E5 0 [d32 off.toNat]
    let r := { w with host := { w.host with barData := [0, 0, 0, 0] } }
    w.ev.flight = s.ev.flight
      ++ [⟨0x1E5, evData [d32 off.toNat], s.time.dev, tget zn s.ev.once (0x1E5 * 2 ^ 32) == s.time.secNo + 1⟩] ∧
    tget zn w.ev.once (0x1E5 * 2 ^ 32) = s.time.secNo + 1 ∧ OnlyIn [.ev] s w ∧
    exec (.barUnalignedAccess true off) s = .next w ∧ exec (.barUnalignedAccess false off) s = .next r ∧
    (∀ v, off.toNat % 4 ≠ 0 → exec (.registerWrite off v) s = .next w) ∧
    (∀ v, off.toNat % 2 ≠ 0 →
      exec (.barNarrowAccess true true off v) s = .next w ∧ exec (.barNarrowAccess false true off v) s = .next r) ∧
    (∀ ds, ds ≠ [] → (off.toNat % (if ds.length = 1 then 4 else 8) ≠ 0 ∨ contiguous (enablesOf ds) = false) →
      exec (.barWideAccess true off ds) s = .next w ∧ exec (.barWideAccess false off ds) s = .next r)

/-- R428: with NORPLY a ring's command that ends with OK or OK_DEFERRED writes no reply, one that ends with another code does,
and either way the command has held its place until then. -/
def Obligations.QuietCommandsReplyOnFailureAlone : Prop :=
  ∀ (op : Nat) (h : Hdr) (np : Nat) (code : Byte) (rs : List Word) (s : State) (n : Fin 8), h.src = .ring n → h.norply = true →
    s.ringOn n = true → (s.ring n).orphans.contains h = false → trising s.host.rings = true →
    let t := s.finish op h np code rs
    (t.ring n).running = none ∧
    (code = codeOk ∨ code = codeDeferred → t.host.mem = s.host.mem ∧ (t.ring n).rtail = (s.ring n).rtail) ∧
    (code ≠ codeOk → code ≠ codeDeferred → ∃ ws, (t.ring n).last = ws ∧
      (t.ring n).rtail = ((s.ring n).rtail + roundUp (withTrailer ws).length 64) % s.ringSize n) ∧
    (∀ c, (s.ring n).running = some c → s.mayFetch n = false)

/-- R285: PORT_HOLD sets the node's HOLD at once, ends a hold whose time is over, leaves a node that is FLUSHING or DOWN to
its next hold, and at reset every HOLD is 0. -/
def Obligations.PortHoldTakesEffect : Prop :=
  (∀ (h : Hdr) (p : List Word) (s : State), tdWide h = true → p.length = 1 → pf p 0 13 0 = 0 → pf p 0 31 24 < 176 →
    pf p 0 23 14 ≤ 1000 → h.priv ≠ 2 → s.slipOrQuiet = false → s.mirrorRefuses 0x404 h = false →
    let n := pf p 0 31 24
    let u := s.setTdCfg { s.cfg.td with holds := tset zn s.cfg.td.holds n (pf p 0 23 14) }
    (trising s.cfg.td.holds = true → u.holdMs n = pf p 0 23 14) ∧ OnlyIn [.cfg] s u ∧
    ((s.pnode n).st = 1 → (s.pnode n).since + pf p 0 23 14 * 1000000 ≤ s.mono →
      TakesEffect .portHold 0x404 h p s (u.toPort n 2 0x142 []) codeOk []) ∧
    ((s.pnode n).st ≠ 1 ∨ s.mono < (s.pnode n).since + pf p 0 23 14 * 1000000 →
      TakesEffect .portHold 0x404 h p s u codeOk [])) ∧
  (∀ n, State.reset.holdMs n = 0)

/-- R449: a register read, and every command of the block that only reads, leaves the configuration, the pipelines, the
memories and the power state as they were. -/
def Obligations.ReadsChangeNothingElse : Prop :=
  ∀ (c : Hdr → List Word → Instr), c ∈ [Instr.nop, .ident, .regRd, .mbxRd, .lineStatus, .actRead, .tblSearch, .berthQlist,
      .mcGroupRead, .meterRead, .fabQmapRead, .pairHealth, .memHealth, .lifeRead, .patchList, .pwrStatus, .oamSessionRead] →
    ∀ (h : Hdr) (p : List Word) (s : State), ∃ t, exec (c h p) s = .next t ∧
      OnlyIn [.host, .cnt, .ev, .pair, .wr] s t

/-- R200, R201: each arithmetic, field and hash instruction, issued within the limits of R203, writes D with its result, costs
its issue cycles and goes on at the next word; no other part of the block changes. -/
def Obligations.ThreadArithmeticCompletes : Prop :=
  ∀ (x : ActOp) (t : Thread) (s : State),
    let op2 := if x.i then x.imm.setWidth 64 else t.reg x.b
    let w := bits x.imm 11 6 + 1
    let place := bits x.imm 5 0
    let sets (cost : Nat) (v : Word64) := Host.Outcome.next (s.putThread ((t.goes cost 0 (t.pc + 1)).setReg x.d v))
    (Fetches 0x01 x 1 0 t s → exec (.add x) s = sets 1 (t.reg x.a + op2)) ∧
    (Fetches 0x02 x 1 0 t s → exec (.sub x) s = sets 1 (t.reg x.a - op2)) ∧
    (Fetches 0x03 x 1 0 t s → exec (.and x) s = sets 1 (t.reg x.a &&& op2)) ∧
    (Fetches 0x04 x 1 0 t s → exec (.or x) s = sets 1 (t.reg x.a ||| op2)) ∧
    (Fetches 0x05 x 1 0 t s → exec (.xor x) s = sets 1 (t.reg x.a ^^^ op2)) ∧
    (Fetches 0x06 x 1 0 t s → exec (.shl x) s = sets 1 (t.reg x.a <<< bits op2 5 0)) ∧
    (Fetches 0x07 x 1 0 t s → exec (.shr x) s = sets 1 (t.reg x.a >>> bits op2 5 0)) ∧
    (Fetches 0x08 x 1 0 t s → exec (.movi x) s = sets 1 (x.imm.setWidth 64)) ∧
    (Fetches 0x09 x 1 0 t s →
      exec (.movh x) s = sets 1 ((x.imm.setWidth 64 <<< 32) ||| (t.reg x.d &&& 0xFFFFFFFF#64))) ∧
    (Fetches 0x0A x 1 0 t s → exec (.ext x) s = sets 1 ((t.reg x.a >>> place) &&& (BitVec.ofNat 64 (2 ^ w - 1)))) ∧
    (Fetches 0x0B x 2 0 t s →
      ∃ v : Word64, exec (.ins x) s = sets 2 v ∧ ∀ i < 64, v.getLsbD i
        = if place ≤ i ∧ i < place + w then (t.reg x.a).getLsbD (i - place) else (t.reg x.d).getLsbD i) ∧
    (Fetches 0x1A x 2 0 t s → exec (.ldh x) s = sets 2 (t.layerBytes x.imm)) ∧
    (Fetches 0x1B x 2 0 t s → exec (.hash x) s = sets 2 ((crc32cFrom (0xFFFFFFFF#32 ^^^ x.imm)
      (beBytes 8 (t.reg x.a).toNat ++ beBytes 8 (t.reg x.b).toNat)).setWidth 64))

/-- R199, R201, R202: LDF reads a selector that holds a value, STF writes an output field of an ingress thread, CNT puts one
packet and its LENGTH on their way to the counter A[23:0], EDIT appends to the edits of an egress thread, and PUNT with IMM[6]
= 1 hands a copy to the punt path; each costs 1 cycle and the thread goes on. -/
def Obligations.ThreadFieldsComplete : Prop :=
  ∀ (x : ActOp) (t : Thread) (s : State),
    let u := t.goes 1 0 (t.pc + 1)
    (∀ v, Fetches 0x18 x 1 0 t s → bits x.imm 7 0 < 0x20 → bits x.imm 7 0 ≠ 0x0B → tfind t.inputs (bits x.imm 7 0) = some v →
      exec (.ldf x) s = .next (s.putThread (u.setReg x.d v))) ∧
    (Fetches 0x18 x 1 0 t s → bits x.imm 7 0 = 0x0B → exec (.ldf x) s = .next (s.putThread (u.setReg x.d t.lkstat))) ∧
    (Fetches 0x19 x 1 0 t s → t.eg = none →
      (bits x.imm 7 0 = 0x20 → exec (.stf x) s = .next (s.putThread { u with queue := some (bits (t.reg x.a) 17 0) })) ∧
      (bits x.imm 7 0 = 0x22 →
        exec (.stf x) s = .next (s.putThread { u with colour := bits (t.reg x.a) 1 0, colSet := true })) ∧
      (bits x.imm 7 0 < 0x20 → exec (.stf x) s = .next (s.putThread u))) ∧
    (Fetches 0x29 x 1 0 t s → exec (.cnt x) s = .next (({ s with cnt := { s.cnt with incs := s.cnt.incs
        ++ [⟨bits (t.reg x.a) 23 0, t.pkt.pkt.bytes.length, 1, s.now⟩] } } : State).putThread
          { u with counter := some (bits (t.reg x.a) 23 0) })) ∧
    (Fetches 0x2A x 1 0 t s → t.eg.isSome → t.edits.length < 8 → exec (.edit x) s = .next (s.putThread { u with edits := t.edits
        ++ [⟨bits x.imm 31 28, t.reg x.a, t.reg x.b, t.regBytes x.a (bits (t.reg x.b) 4 0 + 1)⟩] })) ∧
    (Fetches 0x30 x 1 0 t s → bit x.imm 6 = true →
      exec (.punt x) s = .next ((s.punt ((t.goes 1 0 t.pc).puntRec (bits x.imm 5 0) true)).putThread u))

/-- R201, R288: each lookup and meter instruction costs 2 cycles and counts against the 8 of R203; a lookup that answers
leaves its result on the way to D, and ACTION_LOOKUP_COMPLETE delivers it, with LKSTAT, or COLOUR after a meter. -/
def Obligations.ThreadLookupsComplete : Prop :=
  ∀ (x : ActOp) (t : Thread) (s : State),
    let u := t.goes 2 1 (t.pc + 1)
    let answers (c : Instr) (r : LkRes × State) := ∀ st v s1, r = (.val st v, s1) → bits st 1 0 = 0 →
      exec c s = .next (s1.putThread { u with wait := some ⟨x.d, v, some st, none⟩ })
    let asked (tm k : Nat) := s.count 0x06 tm k (some (64 + t.slice)) none 0
    (Fetches 0x20 x 2 1 t s → answers (.lke x) ((asked (bits x.imm 5 0) 1).exactLookup t.slice (bits x.imm 5 0) t.pkt.pkt.port
      t.pkt.pkt.chan (t.regBytes x.a (if bit ((asked (bits x.imm 5 0) 1).tmap (bits x.imm 5 0)) 7 then 32 else 16)) false x.flt.exact)) ∧
    (Fetches 0x21 x 2 1 t s → answers (.lkl x) ((asked 0 0).lpmLookup t.pkt.pkt.chan (t.regBytes x.a 17) false x.flt.lpm)) ∧
    (Fetches 0x22 x 2 1 t s → answers (.lka x) ((asked (bits x.imm 5 0) 2).ascLookup ((asked (bits x.imm 5 0) 2).bankOf t.ver)
      (bits x.imm 5 0) (t.regBytes x.a 80) false x.flt.asc)) ∧
    (∀ col s1, Fetches 0x28 x 2 1 t s → (asked 0 3).meter (bits (t.reg x.a) 16 0) t.pkt.pkt.bytes.length (bit x.imm 0) t.colour
        x.flt.meter = (col, s1) →
      exec (.mtr x) s = .next (s1.putThread { u with meter := some (bits (t.reg x.a) 16 0, bit x.imm 0)
                                                     wait := some ⟨x.d, BitVec.ofNat 64 col, none, some col⟩ })) ∧
    (∀ id w, s.thread id = some t → t.wait = some w → exec (.actionLookupComplete id) s = .next (s.putThread
      { t.setReg w.d w.value with wait := none
                                  lkstat := w.lkstat.getD t.lkstat
                                  colour := if t.colSet then t.colour else w.colour.getD t.colour }))

/-- R201: a compare takes A against B, or against IMM[31:16] zero-extended when I is 1, unsigned; a branch taken costs 2
cycles and goes to IMM[13:0], one not taken costs 1 and goes on; JMP always branches. Nothing else changes. R201, R203: FWD
ends the program with the packet going on, DROP with the packet dropped and counted as ACT_DROP, PUNT with IMM[6] = 0 with the
packet punted. -/
def Obligations.ThreadControlCompletes : Prop :=
  (∀ (x : ActOp) (t : Thread) (s : State),
    let a := t.reg x.a
    let b := if x.i then (BitVec.ofNat 64 (bits x.imm 31 16)) else t.reg x.b
    let taken := Host.Outcome.next (s.putThread (t.goes 2 0 (bits x.imm 13 0)))
    let not := Host.Outcome.next (s.putThread (t.goes 1 0 (t.pc + 1)))
    ((Fetches 0x10 x 2 0 t s → a = b → exec (.beq x) s = taken) ∧ (Fetches 0x10 x 1 0 t s → a ≠ b → exec (.beq x) s = not)) ∧
    ((Fetches 0x11 x 2 0 t s → a ≠ b → exec (.bne x) s = taken) ∧ (Fetches 0x11 x 1 0 t s → a = b → exec (.bne x) s = not)) ∧
    ((Fetches 0x12 x 2 0 t s → a < b → exec (.blt x) s = taken) ∧ (Fetches 0x12 x 1 0 t s → b ≤ a → exec (.blt x) s = not)) ∧
    ((Fetches 0x13 x 2 0 t s → b ≤ a → exec (.bge x) s = taken) ∧ (Fetches 0x13 x 1 0 t s → a < b → exec (.bge x) s = not)) ∧
    (Fetches 0x14 x 2 0 t s → exec (.jmp x) s = taken)) ∧
  (∀ (x : ActOp) (t : Thread) (s : State),
    let u := t.goes 1 0 t.pc
    (Fetches 0x31 x 1 0 t s → (t.eg.isSome ∨ t.queue.isSome) →
      exec (.fwd x) s = .next ((s.putThread u).finishThread u .fwd)) ∧
    (Fetches 0x32 x 1 0 t s → exec (.drop x) s = .next (((u.bump 13 22 s).putThread u).finishThread u .drop)) ∧
    (Fetches 0x30 x 1 0 t s → bit x.imm 6 = false →
      exec (.punt x) s = .next ((s.putThread u).finishThread u (.punt (bits x.imm 5 0)))))

/-- R203: the five faults. A program that would issue more than 1,024 cycles, a ninth lookup or meter, EDIT on an ingress
thread, FWD there with QUEUE never written, and a ninth EDIT end the program: the packet is counted as ACT_FAULT and dropped.
R215: a fetch that fails parity drops the packet, and sets MCHK of a slice where it is clear, with event 0x0C0. -/
def Obligations.ThreadFaults : Prop :=
  (∀ (x : ActOp) (t : Thread) (s : State), s.ready x.thread = some t → x.parity = true →
    let faults (u : Thread) (cause : Nat) :=
      Host.Outcome.next (((u.bump 14 23 s).postOnce 0x0C7 0 [d16 t.slice, d16 cause]).finishThread u .drop)
    (s.codeWord t.pc = insnWord x 0x01 → 1024 ≤ t.cycles → exec (.add x) s = faults (t.goes 1 0 t.pc) 0) ∧
    (s.codeWord t.pc = insnWord x 0x20 → t.cycles + 2 ≤ 1024 → 8 ≤ t.looks → exec (.lke x) s = faults (t.goes 2 1 t.pc) 1) ∧
    (s.codeWord t.pc = insnWord x 0x28 → t.cycles + 2 ≤ 1024 → 8 ≤ t.looks → exec (.mtr x) s = faults (t.goes 2 1 t.pc) 1) ∧
    (Fetches 0x2A x 1 0 t s → t.eg = none → exec (.edit x) s = faults (t.goes 1 0 t.pc) 2) ∧
    (Fetches 0x31 x 1 0 t s → t.eg = none → t.queue = none → exec (.fwd x) s = faults (t.goes 1 0 t.pc) 3) ∧
    (Fetches 0x2A x 1 0 t s → t.eg.isSome → 8 ≤ t.edits.length → exec (.edit x) s = faults (t.goes 1 0 t.pc) 4)) ∧
  (∀ (x : ActOp) (t : Thread) (s : State), s.ready x.thread = some t → x.parity = false →
    exec (.add x) s = .next (((t.bump 18 26 s).finishThread t .drop).parityError t.slice t.pc) ∧
    ∀ u l pc, u.fd.eng.mchk.contains l = false → tget (fun _ => none) u.fd.eng.rewriting l = none →
      (u.parityError l pc).fd.eng.mchk = u.fd.eng.mchk ++ [l] ∧
      (u.parityError l pc).ev.flight = u.ev.flight ++ [⟨0x0C0, evData [d16 l, d16 pc], u.time.dev, false⟩] ∧
      OnlyIn [.ev, .fd] u (u.parityError l pc))

/-- R121 to R125: a version of the rule set is begun as a copy of the one in effect in the lowest free bank, staged object by
object, committed at once or at an instant, aborted, and switched at that instant; only the classifier's state changes before
the switch. -/
def Obligations.RuleVersionsComplete : Prop :=
  ∀ (h : Hdr) (p : List Word) (s : State), fdWide h = true → s.slipOrQuiet = false →
    (∀ k, p.length = 1 → pf p 0 15 0 = 0 → h.priv ≠ 2 → s.mirrorRefuses 0xD00 h = false → s.fd.rules.stage = none →
      s.freeBank = some k →
      ∃ u, TakesEffect .clsBegin 0xD00 h p s u codeOk [] ∧
        u.fd.rules.stage = some (k, { s.cfg.fd.rules with version := pf p 0 31 16 }) ∧ u.fd.rules.cur = s.fd.rules.cur ∧
        u.fd.rules.sched = s.fd.rules.sched ∧ OnlyIn [.fd] s u) ∧
    (∀ obj words count k b, obj = pf p 0 31 28 → objShape obj = some (count, words) → pf p 0 27 13 = 0 →
      pf p 0 12 0 + (par p 1).toNat ≤ count → p.length = 2 + (par p 1).toNat * words →
      ((cutObjs words (par p 1).toNat (p.drop 2)).all (objOk obj)) = true → s.fd.rules.stage = some (k, b) →
      s.fd.rules.sched = none → s.mirrorRefuses 0xD01 h = false →
      ∃ u, TakesEffect .clsStage 0xD01 h p s u codeOk [] ∧ u.fd.rules.stage
          = some (k, RuleBank.putAll obj (cutObjs words (par p 1).toNat (p.drop 2)) (pf p 0 12 0) b) ∧
        u.fd.rules.cur = s.fd.rules.cur ∧ OnlyIn [.fd] s u) ∧
    (∀ k b, p.length = 3 → pf p 0 15 0 = 0 → s.fd.rules.stage = some (k, b) → b.version = pf p 0 31 16 →
      s.verUsed b.version = false → s.fd.rules.sched = none → s.nearActivation (par64 p 1) = false →
      s.mirrorRefuses 0xD02 h = false →
      (s.reached (par64 p 1) = false → ∃ u, TakesEffect .clsCommit 0xD02 h p s u codeDeferred [] ∧
        u.fd.rules = { s.fd.rules with sched := some (par64 p 1) } ∧ OnlyIn [.fd] s u) ∧
      (s.reached (par64 p 1) = true → TakesEffect .clsCommit 0xD02 h p s s.switchRules codeOk [])) ∧
    (p = [] → s.mirrorRefuses 0xD03 h = false → ∃ u, TakesEffect .clsAbort 0xD03 h p s u codeOk [] ∧
      u.fd.rules = { s.fd.rules with stage := none, sched := none } ∧ OnlyIn [.fd] s u) ∧
    (∀ t, s.fd.rules.sched = some t → s.reached t = true →
      exec .clsSwitch s = .next (s.switchRules.post 0x082 [d16 s.switchRules.curVer])) ∧
    (∀ k b, s.fd.rules.stage = some (k, b) → s.switchRules.curVer = b.version ∧ s.switchRules.fd.rules.cur = k ∧
      s.switchRules.fd.rules.stage = none ∧ s.switchRules.fd.rules.sched = none ∧ OnlyIn [.cfg, .wr, .fd] s s.switchRules)

/-- R209, R211: ACT_LOAD writes a program into whole pages over the programs it overlaps, and ACT_READ answers instruction
words, high half first, and changes nothing. R207, R214, R198: a scrub read, in a slice with a half on, of a word that fails
parity logs event 0x0C3; a retired engine of a half that is on gives its place to a spare while one is left, and else the
slice goes on with one engine fewer. R24, R217 to R219, R512: a rollout begins at its instant with slice 0, and a step, due k
× 2.5 ms later for slice k, through the spare holds its slice, switches it to the spare when the old physical slice is empty,
and leaves the old slice, reloaded, as the spare. -/
def Obligations.ControlStoreCompletes : Prop :=
  (∀ (h : Hdr) (p : List Word) (s : State), fdWide h = true → s.slipOrQuiet = false →
    (∀ n page, n = pf p 0 12 0 → page = pf p 0 31 26 → p.length = 1 + 2 * n → 0 < n → n ≤ 4096 → pf p 0 25 13 = 0 →
      page + (n + 255) / 256 ≤ 48 → ((pairWords (p.drop 1)).all (s.insnOk (0x1000 + 256 * page) n)) = true → h.priv ≠ 2 →
      ((s.progHits page (pagesOf n)).any s.progUsed) = false → s.mirrorRefuses 0xD20 h = false →
      ∃ u, TakesEffect .actLoad 0xD20 h p s u codeOk [] ∧
        u.cfg.fd = s.cfg.fd.load page (s.progHits page (pagesOf n)) (pairWords (p.drop 1)) ∧ OnlyIn [.cfg] s u) ∧
    (∀ a n, a = pf p 0 31 18 → n = pf p 0 7 0 → p.length = 1 → pf p 0 17 8 = 0 → 0 < n → n ≤ 128 → 0x1000 ≤ a → a + n ≤ 0x4000 →
      s.mirrorRefuses 0xD21 h = false →
      ∃ rs, TakesEffect .actRead 0xD21 h p s s codeOk rs ∧ rs.length = 2 * n ∧
        ∀ i, i < n → rs.getD (2 * i) 0 ++ rs.getD (2 * i + 1) 0 = s.codeWord (a + i))) ∧
  (∀ (slice : Fin 16) (s : State),
    let d := ingressDomain (s.physOf slice)
    (∀ (a : BitVec 14) w, (s.domain d = 0 ∨ s.domain (d + 1) = 0) → parityOk w = false →
      exec (.csScrubRead slice a w) s = .next (s.post 0x0C3 [d16 slice, d16 a.toNat])) ∧
    (∀ (a : BitVec 14) w, parityOk w = true → exec (.csScrubRead slice a w) s = .next s) ∧
    (∀ eg, s.hasPhys slice = true → s.domain (d + b01 eg) = 0 → 0 < (s.engOf (s.physOf slice)).spares →
      ∃ t, exec (.engineCheckFail slice eg []) s = .next t ∧
        t.fd.eng.eng = tset restEng s.fd.eng.eng (s.physOf slice)
          { s.engOf (s.physOf slice) with spares := (s.engOf (s.physOf slice)).spares - 1 } ∧
        ∃ e, t.ev.flight = e ++ [⟨0x0C4, evData [d16 slice], s.time.dev, false⟩]) ∧
    (∀ eg, s.hasPhys slice = true → s.domain (d + b01 eg) = 0 → (s.engOf (s.physOf slice)).spares = 0 →
      ∃ t, exec (.engineCheckFail slice eg []) s = .next t ∧
        t.fd.eng.eng = tset restEng s.fd.eng.eng (s.physOf slice)
          { s.engOf (s.physOf slice) with ein := (s.engOf (s.physOf slice)).ein - 1 } ∧
        ∃ e, t.ev.flight = e ++ [⟨0x0C5, evData [d16 slice, d16 ((s.engOf (s.physOf slice)).ein - 1)], s.time.dev, false⟩])) ∧
  (∀ (s : State) (r : Roll), s.fd.eng.roll = some r →
    (r.stage = 0 → r.t0.toNat + r.step * 2500000 ≤ s.now.toNat → s.fd.gang.moves.any (·.drain) = false → s.hasPhys r.step = true →
      s.mcseq (s.physOf r.step) ≠ r.seq → s.sliceSt r.step ≠ 1 → s.sliceSt r.step ≠ 2 → s.spareSlice = true →
      ∃ t, exec .rolloutStepStart s = .next t ∧ t.fd.eng.roll = some { r with stage := 1, old := s.physOf r.step } ∧
        tget (fun _ => false) t.fd.gang.rot r.step = true ∧ t.fd.gang.phys = s.fd.gang.phys ∧ OnlyIn [.fd] s t) ∧
    (r.stage = 1 → s.halvesEmpty r.step = true → s.fd.gang.rollHeld = [] → s.spareSlice = true →
      ∃ t, exec .rolloutStepSwitch s = .next t ∧ t.fd.eng.roll = some { r with stage := 2, old := s.physOf r.step } ∧
        t.fd.gang.spare = 0x1F ∧ OnlyIn [.fd, .pwr] s t) ∧
    (r.stage = 2 → r.step < 15 →
      ∃ u, exec (.rolloutStepReload true) s = .next u.pumpMoves ∧ u.fd.gang.spare = r.old ∧
        u.fd.gang.gen = s.fd.gang.gen + 2 ∧ u.fd.eng.roll = some { r with step := r.step + 1, stage := 0, away := [] } ∧
        u.ev.flight = s.ev.flight ++ [⟨0x0C9, evData [d16 r.step], s.time.dev, false⟩] ∧ OnlyIn [.fd, .ev] s u))

/-- R151 to R153, R158 to R162, R164: the exact-match commands of a host that may give them, in a mode that takes them: an
insert writes its entry, a delete removes it, a search and an iterator answer entries, a flush starts, and a barrier ends at
once. -/
def Obligations.ExactCommandsComplete : Prop :=
  ∀ (h : Hdr) (p : List Word) (s : State), fdWide h = true → s.slipOrQuiet = false → h.priv ≠ 2 →
    (∀ r cl, tblRecords true p = some [r] → cl = clustersOf (pf p 0 31 30) → cl ≠ [] → s.mirrorRefuses 0x200 h = false →
      (∀ t k, insertRecord cl r s = .ok (t, k) → TakesEffect .tblInsert 0x200 h p s t codeOk [batchWord 1 0 k]) ∧
      (∀ c t, insertRecord cl r s = .error (c, t) → TakesEffect .tblInsert 0x200 h p s t c [batchWord 0 c 0])) ∧
    (∀ r, tblRecords false p = some [r] → pf p 0 31 30 = 1 → s.mirrorRefuses 0x201 h = false →
      (∀ place e, s.xFind 0 (pf r 0 31 26) (bit (par r 0) 25) (recKey r (bit (par r 0) 25)) = some (place, e) →
        (s.cluster 0).hides e = false → TakesEffect .tblDelete 0x201 h p s (s.xDel 0 place) codeOk [batchWord 1 0 0]) ∧
      (s.xFind 0 (pf r 0 31 26) (bit (par r 0) 25) (recKey r (bit (par r 0) 25)) = none →
        TakesEffect .tblDelete 0x201 h p s s codeOk [batchWord 1 0 1])) ∧
    (∀ r, cutRecords (tblLen false) 1 (p.drop 1) = some [r] → p ≠ [] → pf p 0 29 0 = 0 → pf p 0 31 30 = 2 →
      s.mirrorRefuses 0x202 h = false → TakesEffect .tblSearch 0x202 h p s s codeOk (searchWords 1
        ((s.xFind 1 (pf r 0 31 26) (bit (par r 0) 25) (recKey r (bit (par r 0) 25))).filter
          (fun x => !(s.cluster 1).hides x.2)))) ∧
    (p.length = 1 → pf p 0 31 30 = 1 → pf p 0 15 8 ≤ 32 → 0 < pf p 0 15 8 → pf p 0 17 16 = 0 → pf p 0 7 0 = 0 →
      bit (par p 0) 27 = true → s.mirrorRefuses 0x203 h = false →
      ∃ (es : List XEnt) (done : Bool) (i : Iter), TakesEffect .tblNext 0x203 h p s
          (s.setCluster 0 { s.cluster 0 with iters := tset dflt (s.cluster 0).iters (pf p 0 29 28) i }) codeOk
          (mkWord [(1, b01 done), (7, 0), (8, es.length), (16, 0)] :: es.flatMap nextRecord) ∧ es.length ≤ pf p 0 15 8) ∧
    (p.length = 1 → pf p 0 31 30 = 1 → pf p 0 14 0 = 0 → (s.cluster 0).flushes.length < 8 →
      (s.cluster 0).flushes.any (·.port == pf p 0 29 23) = false → s.mirrorRefuses 0x204 h = false →
      TakesEffect .tblFlushPort 0x204 h p s (s.setCluster 0 { s.cluster 0 with
        gens := tset zn (s.cluster 0).gens (pf p 0 29 23) ((tget zn (s.cluster 0).gens (pf p 0 29 23) + 1) % 4)
        flushes := (s.cluster 0).flushes
          ++ [⟨pf p 0 29 23, bit (par p 0) 22, pf p 0 21 16, bit (par p 0) 15, s.mono, 1⟩] }) codeDeferred []) ∧
    (p.length = 1 → pf p 0 22 0 = 0 → s.fd.look.sync = none → s.mirrorRefuses 0x205 h = false →
      (pf p 0 31 30 = 0 → TakesEffect .tblSync 0x205 h p s s.barrier codeOk []) ∧
      (pf p 0 31 30 = 1 → TakesEffect .tblSync 0x205 h p s (s.barrier.setLook { s.barrier.fd.look with
        sync := some ⟨1, bit (par p 0) 29, pf p 0 28 23⟩ }) codeDeferred []))

/-- R154 to R157, R160 to R164: the oldest learn of a cluster is written, counted and posted to the other cluster, a posted
change is applied there, an entry neither hit nor struck is struck by an aging pass that is due, an idle iterator is released,
and a flush and a sync end with their events. -/
def Obligations.ExactEngineCompletes : Prop :=
  (∀ (c : Fin 2) (s : State) move e r, (s.cluster c).learns = (move, e) :: r →
    let u := s.setCluster c { s.cluster c with learns := r }
    let f := u.learnEnt c e move
    (∀ t b, f.2.xPut c f.1 = some (t, b) →
      exec (.learnApply c) s = .next ((if move then t else t.xCount c 0).crossPost c ⟨false, e⟩)) ∧
    (f.2.xPut c f.1 = none → exec (.learnApply c) s = .next ((u.xCount c 1).noRoom c))) ∧
  (∀ (c : Fin 2) (s : State) x r, (s.cluster c).cross = x :: r →
    let u := s.setCluster c { s.cluster c with cross := r }
    let f := u.learnEnt c x.ent false
    (∀ t b, x.del = false → u.learnCase c x.ent = .write → f.2.xPut c f.1 = some (t, b) →
      exec (.crossPostApply c) s = .next t) ∧
    (∀ place e, x.del = true → u.xFind c x.ent.tid x.ent.wide x.ent.key = some (place, e) → e.static = false → e.learned = true →
      e.hit = false → exec (.crossPostApply c) s = .next (u.xDel c place))) ∧
  (∀ (c : Fin 2) (tid : Fin 64) (s : State) n place e, s.domain 5 = 0 → s.ageDue c tid = true →
    let u := s.ageFrom c tid
    u.ageKeys c tid = [n] → u.xFind c n.1 n.2.1 n.2.2 = some (place, e) → e.hit = false → e.strike = false →
    exec (.agingPass c tid []) s = .next (u.setXt (tins u.xt place { e with strike := true }))) ∧
  (∀ (c : Fin 2) (h : Fin 4) (s : State), (tget dflt (s.cluster c).iters h.val).inUse = true →
    (tget dflt (s.cluster c).iters h.val).last + 1000000000 ≤ s.mono →
    exec (.tblIteratorTimeout c h) s
      = .next (s.setCluster c { s.cluster c with iters := tset dflt (s.cluster c).iters h.val default })) ∧
  (∀ (port : Fin 128) (s : State) m, s.flushOf port = some m →
    exec (.flushComplete port) s
      = .next (((clustersOf m).foldl (fun s c => s.flushEnd c port) s).post 0x097 [d16 port.val])) ∧
  (∀ (s : State) r, s.fd.look.sync = some r → r.allTid = false →
    exec .tblSyncComplete s = .next ((((s.syncRun r).1.setLook { (s.syncRun r).1.fd.look with sync := none }).syncFrees
      r.mode).post 0x098 [d32 (s.syncRun r).2.1, d32 (s.syncRun r).2.2]))

/-- R137 to R141: LPM_ADD writes and LPM_DEL removes a prefix of the table and nothing else; while a rebuild runs they wait,
and run when the last rebuild ends. -/
def Obligations.LpmCommandsComplete : Prop :=
  ∀ (h : Hdr) (s : State) (head addr hi lo : Word), fdWide h = true → s.slipOrQuiet = false → h.priv ≠ 2 →
    bits head 31 28 = 4 → bits head 15 8 ≤ 32 → bits head 7 0 = 0 →
    let key := routeKey false (bits head 27 16) addr.toNat (bits head 15 8)
    let count : Word := BitVec.ofNat 32 0x01000000
    let wordAdd := [count, head, addr, hi, lo]
    let wordDel := [count, head, addr]
    (s.fd.look.rebuild = [] → resultOk (hi ++ lo) = true → lpmUnits s.cfg.fd.lpm < 6291456 → s.mirrorRefuses 0x210 h = false →
      TakesEffect .lpmAdd 0x210 h wordAdd s (s.setFdCfg { s.cfg.fd with lpm := tins s.cfg.fd.lpm key (hi ++ lo) })
        codeOk [batchWord 1 0 0]) ∧
    (s.fd.look.rebuild = [] → (tfind s.cfg.fd.lpm key).isSome = true → s.mirrorRefuses 0x211 h = false →
      TakesEffect .lpmDel 0x211 h wordDel s (s.setFdCfg { s.cfg.fd with lpm := tdel s.cfg.fd.lpm key }) codeOk
        [batchWord 1 0 0]) ∧
    (∀ p, s.fd.look.rebuild ≠ [] →
      exec (.lpmAdd h p) s = .next (s.setLook { s.fd.look with held := s.fd.look.held ++ [⟨0x210, h, p⟩] }) ∧
      exec (.lpmDel h p) s = .next (s.setLook { s.fd.look with held := s.fd.look.held ++ [⟨0x211, h, p⟩] })) ∧
    (∀ vrf : Fin 4096, s.fd.look.rebuild = [(vrf.val, 4)] → s.fd.look.held = [⟨0x211, h, wordDel⟩] →
      exec (.lpmRebuildComplete vrf false) s
        = exec (.lpmDel h wordDel) (s.setLook { s.fd.look with rebuild := [], held := [] }))

/-- R169, R184 to R188: with no ASC command running or waiting, an ASC command runs at once: a write changes a result, an
insert whose entry needs no move places it, a delete removes an entry, a search and a read answer one, and CHAIN_CFG
configures and empties a chain. R179 to R182, R190 to R194: a block move copies its next entry toward the free row, a
differing row is noted and logged, a row whose shadow fails loses its entry, a copied bank takes over and the copy of the next
bank that waits begins, and a millisecond of activations ends. -/
def Obligations.TernaryTablesComplete : Prop :=
  (∀ (h : Hdr) (p : List Word) (s : State), fdWide h = true → s.slipOrQuiet = false → h.priv ≠ 2 → s.asc.run = none →
    s.asc.waits = [] → p ≠ [] →
    (pf p 0 31 24 = 1 → pf p 0 23 0 = 0 →
      (∀ r a e, cutRecords (ascLen 3) 1 (p.drop 1) = some [r] → (s.chain (pf r 0 31 28)).en = true →
        resultOk (par r 1 ++ par r 2) = true → s.byHandle (pf r 0 31 28) (pf r 0 15 0) = some (a, e) →
        s.mirrorRefuses 0x300 h = false →
        TakesEffect .ascWrite 0x300 h p s (s.putRow (pf r 0 31 28) a { e with result := par r 1 ++ par r 2 }) codeOk
          [batchWord 1 0 0]) ∧
      (∀ r t k, s.cutInsert 1 (p.drop 1) = some [r] → s.insertOne r = .ok (t, none, k) → t.asc.waits = [] →
        s.mirrorRefuses 0x301 h = false →
        exec (.ascInsert h p) s = .next (t.insertEnd ⟨0x301, h, p⟩ 1 k 0 [(pf r 0 31 28, pf r 0 15 0)])) ∧
      (∀ r a e, cutRecords (ascLen 1) 1 (p.drop 1) = some [r] → (s.chain (pf r 0 31 28)).en = true →
        s.byHandle (pf r 0 31 28) (pf r 0 15 0) = some (a, e) → s.mirrorRefuses 0x302 h = false →
        TakesEffect .ascDelete 0x302 h p s (s.dropRow (pf r 0 31 28) a) codeOk [batchWord 1 0 0])) ∧
    (p.length = 21 → pf p 0 24 16 = 0 → bit (par p 0) 25 = true → s.mirrorRefuses 0x303 h = false →
      TakesEffect .ascSearch 0x303 h p s (s.activate (pf p 0 15 0) (2 ^ 64 - 1)) codeOk
        (ascSearchWords (s.chainsIn (pf p 0 15 0)).isEmpty (s.ascSearch (pf p 0 15 0) (2 ^ 64 - 1) (ascWords (p.drop 1))))) ∧
    (p.length = 1 → pf p 0 26 16 = 0 → bit (par p 0) 27 = true → s.mirrorRefuses 0x304 h = false →
      TakesEffect .ascRead 0x304 h p s s codeOk (ascReadWords (pf p 0 31 28) (s.byHandle (pf p 0 31 28) (pf p 0 15 0)))) ∧
    (∀ c (k : ChainCfg), c = pf p 0 31 28 → k = ⟨bit (par p 0) 27, pf p 0 26 25, pf p 0 24 21, pf p 0 20 15⟩ → p.length = 1 →
      pf p 0 14 0 = 0 → k.width ≠ 3 → k.first % k.w = 0 → k.first + k.w * (k.depthM1 + 1) ≤ 64 →
      (∀ d < 16, d ≠ c → (s.chain d).en = true → k.overlaps (s.chain d) = false) → modeOpensStatic s.pwr.mode = true →
      s.mirrorRefuses 0x305 h = false →
      TakesEffect .ascChainCfg 0x305 h p s (s.setFdCfg { s.cfg.fd with
        chains := tset dflt s.cfg.fd.chains c k, asc := s.cfg.fd.asc.filter (fun x => x.1 / 65536 != c) }) codeOk [])) ∧
  ((∀ (s : State) r a rest e, s.asc.run = some r → r.move.path = a :: rest → tfind s.ae (r.move.chain * 65536 + a) = some e →
    ∃ t, exec .ascBlockMoveStep s = .next t ∧ t.asc = { s.asc with run := some { r with move := { r.move with path := rest, dst := a } } } ∧
      t.cfg = (s.putRow r.move.chain r.move.dst e).cfg ∧ OnlyIn [.cfg, .fd] s t) ∧
  (∀ (bank : Fin 64) (row : Fin 4096) (s : State) c a e, s.domain 5 = 0 → s.rowEnt bank row = some (c, a, e) →
    exec (.ascScrubCompare bank row false true) s = .next ((s.dropRow c a).post 0x0A3 [d16 c, d16 e.handle])) ∧
  (∀ (bank : Fin 64) (row : Fin 4096) (s : State), s.domain 5 = 0 → s.asc.suspect.contains (bank.val, row.val) = false → s.asc.spares ≠ [] →
    (tget (fun _ => (0, 0)) s.asc.repairs bank.val).1 ≠ s.hour →
    ∃ t, exec (.ascScrubCompare bank row true false) s = .next t ∧ t.asc.suspect = s.asc.suspect ++ [(bank.val, row.val)] ∧
      t.asc.repairs = tset (fun _ => (0, 0)) s.asc.repairs bank.val (s.hour, 1) ∧ t.asc.swap = s.asc.swap ∧
      OnlyIn [.ev, .fd] s t) ∧
  (∀ (s : State) b sp rest, s.asc.swap = some b → s.asc.spares = sp :: rest →
    ∃ t, exec .ascSpareSwap s = .next t ∧ t.asc.phys = tset idn s.asc.phys b sp ∧ t.asc.spares = rest ∧
      t.asc.swap = (if rest.isEmpty then none else s.asc.failing.head?)) ∧
  (∀ (s : State), ∃ t, exec .ascActMsEnd s = .next t ∧ t.asc.actNow = 0 ∧
    t.asc.actMs = BitVec.ofNat 32 (min s.asc.actNow (2 ^ 32 - 1)) ∧
    t.ev.flight = s.ev.flight ++ (if 307200000 < s.asc.actNow then [⟨0x0A7, evData [], s.time.dev, false⟩] else []) ∧
    OnlyIn [.ev, .fd] s t))

/-- R247 to R253: a free of an allocated berth clears its state bit, gives its berth back to its pool's use and enters the
check ring; the oldest of the ring, owned as it says, is pushed, and one owned otherwise is quarantined; an audit is accepted,
rebuilds the stacks once every queue is empty, and reports what it found; QLIST answers the quarantine. -/
def Obligations.BerthsComplete : Prop :=
  (∀ (b : BitVec 28) (slice : Fin 16) (s : State) o p, s.br.ring.length < 32768 → s.br.inQuar b.toNat = false →
    tfind s.br.owner b.toNat = some (o, p) →
    ∃ t, exec (.berthFree b slice) s = .next t ∧ t.br.owner = tdel s.br.owner b.toNat ∧
      t.br.use = tset zn s.br.use p (s.poolUse p - 1) ∧ t.br.ring = s.br.ring ++ [(b.toNat, slice.val, o)] ∧ OnlyIn [.td, .cnt] s t) ∧
  (∀ (b : BitVec 28) (slice : Fin 16) (s : State), s.br.ring.length < 32768 → s.br.inQuar b.toNat = false →
    tfind s.br.owner b.toNat = none → s.br.quar.length < 4096 →
    ∃ t, exec (.berthFree b slice) s = .next t ∧ t.br.quar = s.br.quar ++ [(1, b.toNat, slice.val)] ∧ t.br.ring = s.br.ring ∧
      t.ev.flight = s.ev.flight ++ [⟨0x108, evData [d32 b.toNat, d16 slice], s.time.dev, false⟩] ∧ OnlyIn [.td, .ev] s t) ∧
  (∀ (s : State) b slice r, s.br.ring = (b, slice, slice) :: r → s.br.inQuar b = false → s.br.lost.contains b = false →
    s.onLostPc b = false →
    ∃ t, exec .checkRingResult s = .next t ∧ t.br.ring = r ∧
      t.br.pushed = tset nil0 s.br.pushed (tierOf b) (b :: tget nil0 s.br.pushed (tierOf b)) ∧ OnlyIn [.td] s t) ∧
  (∀ (s : State) b slice owner r, s.br.ring = (b, slice, owner) :: r → s.br.inQuar b = false → s.br.lost.contains b = false →
    owner ≠ slice → s.br.quar.length < 4096 →
    ∃ t, exec .checkRingResult s = .next t ∧ t.br.ring = r ∧ t.br.quar = s.br.quar ++ [(2, b, slice)] ∧
      t.ev.flight = s.ev.flight ++ [⟨0x109, evData [d32 b, d16 slice, d16 owner], s.time.dev, false⟩] ∧
      OnlyIn [.td, .ev] s t) ∧
  (∀ (h : Hdr) (s : State), tdWide h = true → h.priv ≠ 2 → (s.pwr.mode = .boot ∨ s.pwr.mode = .drain) → s.br.audit = 0 →
    s.mirrorRefuses 0x422 h = false →
    TakesEffect .berthAudit 0x422 h [] s (s.setBerths { s.br with audit := 1 }) codeDeferred []) ∧
  (∀ (s : State), s.br.audit = 1 → s.queuesEmpty = true →
    ∃ t, exec .berthAuditRebuild s = .next t ∧ t.br.audit = 2 ∧ t.br.found = s.br.quar.length + s.br.lost.length ∧
      t.br.quar = [] ∧ t.br.owner = [] ∧ t.br.ring = [] ∧ OnlyIn [.td, .wr] s t) ∧
  (∀ (s : State), s.br.audit = 2 → ∃ t, exec .berthAuditComplete s = .next t ∧ t.br.audit = 0 ∧
    t.ev.flight = s.ev.flight ++ [⟨0x10F, evData [d32 s.br.found], s.time.dev, false⟩] ∧ OnlyIn [.td, .ev] s t) ∧
  (∀ (h : Hdr) (p : List Word) (s : State), tdWide h = true → p.length = 1 → pf p 0 19 0 = 0 → s.pwr.mode ≠ .slipway →
    s.mirrorRefuses 0x423 h = false →
    let l := (s.br.quar.drop (pf p 0 31 20)).take 64
    TakesEffect .berthQlist 0x423 h p s s codeOk (mkWord [(13, s.br.quar.length), (11, 0), (8, l.length)]
      :: l.flatMap (fun q => [mkWord [(2, q.1), (2, 0), (28, q.2.1)], BitVec.ofNat 32 q.2.2])))

/-- R277, in the order of its tests: a landed packet with a bad tail, a held or flushed port, a disabled queue and a full one
each drop the packet under their own counter before any berth is asked for. -/
def Obligations.AdmissionTestsInOrder : Prop :=
  ∀ (s : State) (q : Nat) (p : TdPkt),
    (s.nodeOf q = none → s.decide q p = (.noPort, s)) ∧
    (∀ n, s.nodeOf q = some n →
      (p.landed = true → p.tail = some true → s.decide q p = (.drop 11, s)) ∧
      (p.tail ≠ some true → 2 ≤ (s.pnode n).st → s.decide q p = (.drop 2, s)) ∧
      (p.tail ≠ some true → (s.pnode n).st < 2 → (s.queueCfg q).en = false → s.decide q p = (.drop 3, s)) ∧
      (p.tail ≠ some true → (s.pnode n).st < 2 → (s.queueCfg q).en = true → (s.qrun q).ents ≠ [] →
        s.limit256 q p.colour < ((s.qrun q).depth + p.bytes.length) * 256 → s.decide q p = (.drop 4, s)))

/-- R231, R232, R256, R277: a packet that has crossed is admitted to its queue when its tests and its berths allow it, and is
counted as dropped otherwise; a multicast packet goes to its queue slice's copies; a tail status reaches the packet wherever
it stands. R237 to R239, R241 to R244: packets and multicast bodies too long in the SRAM tier are marked; marked chunks begin
their write into a new DRAM berth, or count their packets under PROMO_FAIL where there is none; the oldest write ends with its
berths linked; and a queue's next DRAM berth is read into the staging area, waits its turn while the area is full, or is lost
to its packets when its BCRC or its link is bad. -/
def Obligations.QueueAdmissionCompletes : Prop :=
  ((∀ (slice : Fin 16) (bad : Nat) (replBad : List Nat) (s : State) (p : TdPkt) r,
    tget nil0 s.td.xb.arrived slice = p :: r →
    let u : State := { s with td := { s.td with xb := { s.td.xb with arrived := tset nil0 s.td.xb.arrived slice r } } }
    let n := if p.part then cutChunks else chunksOf p.bytes.length
    (∀ ce u2 t, p.mc = false → u.decide p.queue p = (.ok ce, u2) → u2.enqueue p.queue n bad p none 0 ce = some t →
      ∃ v, exec (.queueAdmit slice bad replBad) s = .next v ∧ v.td.q = t.td.q ∧ v.br = t.br ∧ OnlyIn [.td] t v ∧
        (p.part = false → v = t)) ∧
    (∀ ce u2, p.mc = false → u.decide p.queue p = (.ok ce, u2) → u2.enqueue p.queue n bad p none 0 ce = none →
      exec (.queueAdmit slice bad replBad) s = .next ((u2.enqueueFail p.queue n bad).qcount p.queue 7 p.bytes.length)) ∧
    (∀ i u2, p.mc = false → u.decide p.queue p = (.drop i, u2) →
      exec (.queueAdmit slice bad replBad) s = .next (u2.qcount p.queue i p.bytes.length)) ∧
    (p.mc = true → exec (.queueAdmit slice bad replBad) s = .next (u.admitMc slice p bad replBad))) ∧
  (∀ (id : Nat) (bad : Bool) (s : State), s.fd.eng.tx = [] →
    ∃ t, exec (.tailStatusReceive id bad) s = .next t ∧ t.td.q = tmapv dflt (fun r => { r with ents := r.ents.map (fun e =>
        if e.id = id && e.pkt.tail.isNone then { e with pkt := { e.pkt with tail := some bad } } else e) }) s.td.q ∧
      t.fd.eng.threads = s.fd.eng.threads.map (fun x => { x with eg := x.eg.map (·.tailed id bad) }) ∧ OnlyIn [.td, .fd] s t)) ∧
  (∀ (q : Fin 262144) (s : State),
    (let old (e : QEnt) : Bool := e.slot.isNone && e.born + s.promoAge ≤ s.mono && e.inDram + e.writing < chunksOf e.len
     s.mayPromote q = true → (s.qrun q).ents.any old = true →
      exec (.promoAgeExpire q) s = .next ((s.ageBodies q).putQ q { s.qrun q with
        ents := (s.qrun q).ents.map (fun e => if old e then { e with marked := true } else e), urgent := true })) ∧
    (∀ parts b u, parts = gather 32 (s.qrun q).ents → s.mayPromote q = true → (parts.map (·.2)).sum ≠ 0 →
      (32 ≤ (parts.map (·.2)).sum ∨ (s.qrun q).urgent = true) →
      s.allocBerth (sliceOfQ q) (bits (s.prof q 0) 3 0) 0 = (some b, u) →
      exec (.promotionWrite q 0) s = .next (u.putQ q { s.qrun q with
        ents := (s.qrun q).ents.map (fun e =>
          { e with writing := e.writing + ((parts.find? (·.1 == e.id)).map (·.2)).getD 0 })
        writes := (s.qrun q).writes ++ [⟨b, parts, (parts.map (·.2)).sum⟩], urgent := false })) ∧
    (∀ parts u, parts = gather 32 (s.qrun q).ents → s.mayPromote q = true → (parts.map (·.2)).sum ≠ 0 →
      (32 ≤ (parts.map (·.2)).sum ∨ (s.qrun q).urgent = true) →
      s.allocBerth (sliceOfQ q) (bits (s.prof q 0) 3 0) 0 = (none, u) →
      exec (.promotionWrite q 0) s = .next (u.bump 4 0 3 parts.length)) ∧
    (∀ w ws, (s.qrun q).writes = w :: ws → exec (.promotionWriteComplete q) s
      = .next (((s.putQ q { s.qrun q with writes := ws, ents := linkParts w.berth 0 w.parts (s.qrun q).ents }).hbmBerth 1
          (sliceOfQ q)).unref q
          (w.berth :: (s.qrun q).ents.flatMap (fun e => e.segs.map (·.berth))))) ∧
    (∀ b data trailer, s.nextRead q = some b →
      let w := s.setBerths { s.br with reads := s.br.reads.filter (fun x => (s.nextRead x).isSome) }
      let waits := 4096 ≤ s.stagedOf (sliceOfQ q) ∨ ∃ x ∈ w.br.reads.takeWhile (· != q.val), sliceOfQ x = sliceOfQ q
      let u := (w.setBerths { w.br with reads := w.br.reads.filter (· != q.val) }).hbmBerth 0 (sliceOfQ q)
      (waits → exec (.berthStagingRead q data trailer) s = .next (w.setBerths { w.br with
        reads := if w.br.reads.contains q.val then w.br.reads else w.br.reads ++ [q.val] })) ∧
      (¬ waits → trailer.extractLsb' 0 16 = berthCrc b data trailer → trailer.extractLsb' 72 28 = ~~~ trailer.extractLsb' 100 28 →
        exec (.berthStagingRead q data trailer) s = .next (u.setBerths { u.br with staged := u.br.staged ++ [b] })) ∧
      (¬ waits → trailer.extractLsb' 0 16 ≠ berthCrc b data trailer → tierOf b = 1 →
        exec (.berthStagingRead q data trailer) s = .next ((u.dropBerth q b 14).post 0x104 [d32 b])) ∧
      (¬ waits → trailer.extractLsb' 0 16 = berthCrc b data trailer → trailer.extractLsb' 72 28 ≠ ~~~ trailer.extractLsb' 100 28 →
        exec (.berthStagingRead q data trailer) s = .next (u.linkLost q b))))

/-- R254, R255, R264, R282, R291, R482: the commands of queues and multicast groups write the configuration they name and
nothing else but the instant from which a queue slice counts as idle, or answer what it holds; one that enables a queue of a
slice that is off wakes the slice and waits. R281, R282, R284, R286, R476: the sampler records a queue's depth, packets and
head age, a flushed port goes on with its link as it is, and a waking domain is on. -/
def Obligations.QueueControlCompletes : Prop :=
  (∀ (h : Hdr) (p : List Word) (s : State), tdWide h = true → s.slipOrQuiet = false → h.priv ≠ 2 →
    (∀ q c, queueCfgBad h p = false → s.mirrorRefuses 0x402 h = false → q = pf p 0 31 14 →
      c = (⟨bit (par p 0) 13, pf p 0 12 10, pf p 1 31 17, pf p 1 16 5, pf p 2 31 22⟩ : QueueCfg) →
      ((s.domain (queueDomain (sliceOfQ q)) < 2 ∨ c.en = false) → (s.queueCfg q).group = c.group → (s.queueCfg q).prio = c.prio →
        let u := s.setTdCfg { s.cfg.td with queues := tset restQueue s.cfg.td.queues q c }
        TakesEffect .queueCfg 0x402 h p s
          (if c.en then { u with pwr := { u.pwr with quietAt := tdel u.pwr.quietAt (sliceOfQ q) } } else u) codeOk []) ∧
      (2 ≤ s.domain (queueDomain (sliceOfQ q)) → c.en = true →
        ∃ t, exec (.queueCfg h p) s = .next t ∧ t.domain (queueDomain (sliceOfQ q)) = 3 ∧
          t.pwr.qwaits = s.pwr.qwaits ++ [⟨0x402, h, p⟩] ∧ OnlyIn [.pwr] s t)) ∧
    (∀ q n, q = pf p 0 31 14 → n = pf p 0 13 9 + 1 → p.length = 1 → pf p 0 7 0 = 0 → q + n ≤ 262144 → bit (par p 0) 8 = false →
      s.mirrorRefuses 0x405 h = false →
      TakesEffect .queueStat 0x405 h p s s codeOk (((List.range n).map (· + q)).flatMap (fun q => statWords (s.qrun q)))) ∧
    (∀ g n, g = pf p 0 31 16 → n = pf p 0 15 8 → p.length = 1 + 2 * n → n ≤ 128 → pf p 0 7 0 = 0 →
      (∀ k < n, pf p (1 + 2 * k) 12 0 = 0) →
      ((s.cfg.td.mc.filter (·.1 != g)).map (fun x => x.2.length)).sum + n ≤ 262144 → s.mirrorRefuses 0x420 h = false →
      TakesEffect .mcGroupSet 0x420 h p s (s.setTdCfg { s.cfg.td with mc := tset nil0 s.cfg.td.mc g (mcList (p.drop 1)) })
        codeOk []) ∧
    (∀ g, g = pf p 0 31 16 → p.length = 1 → pf p 0 15 0 = 0 → s.mirrorRefuses 0x421 h = false →
      TakesEffect .mcGroupRead 0x421 h p s s codeOk ([BitVec.ofNat 32 (tget nil0 s.cfg.td.mc g).length,
        tget z s.td.mcCnt (g * 4), tget z s.td.mcCnt (g * 4 + 1), tget z s.td.mcCnt (g * 4 + 2)]
        ++ (tget nil0 s.cfg.td.mc g).flatMap (fun e => [mkWord [(18, e.queue), (1, b01 e.emeta.isSome), (13, 0)], e.emWord])))) ∧
  ((∀ (q : Fin 262144) (s : State), (s.qrun q).ents = [] → exec (.queueSamplerVisit q) s
      = .next (s.putQ q { s.qrun q with sDepth := (s.qrun q).depth, sPkts := 0, sHead := 0 })) ∧
  (∀ (q : Fin 262144) (s : State) e rest, (s.qrun q).ents = e :: rest → s.age e ≤ s.maxAge q →
    exec (.queueSamplerVisit q) s = .next (s.putQ q { s.qrun q with
      sDepth := (s.qrun q).depth, sPkts := rest.length + 1, sHead := s.age e * 4 / 1000 })) ∧
  (∀ (node : Fin 176) (s : State), (s.pnode node).st = 2 →
    let f := (s.flushWhere 9 (· == some node.val)).2
    let up := f.nodeLink node
    exec (.portFlushComplete node) s = .next ((f.putPnode node { f.pnode node with link := up }).toPort node (if up then 0 else 3)
      0x143 [d32 (s.flushWhere 9 (· == some node.val)).1])) ∧
  (∀ (dom : Fin 64) (s : State), dom.val < 14 → s.domain dom = 3 → (∀ x ∈ s.pwr.wakeQ, x.1 ≠ dom.val) →
    exec (.domainWakeComplete dom) s = .next (s.setDomain dom 0)))

/-- R266 to R271: a port node that is UP, has an allowance, a shaper and a FIFO that let it, releases the head packet of the
queue chosen top down; due timetable entries retire; and a node that may not release changes nothing. R272, R287: one refill
slot adds four times the rate to a bucket's fraction, a million of which are a byte, and stops at the burst; a shaper of rate
0 has no bucket to fill. -/
def Obligations.SchedulingCompletes : Prop :=
  ((∀ (node : Fin 176) (low : List Nat) (read : HeadRead) (s : State),
    (∀ c g q e u, (s.pnode node).st = 0 → (s.pnode node).unsent < s.allowance node → s.shaperOk (nodeKey 3 node) = true →
      low.contains (4096 + node.val) = false → s.pick node (s.td.q.filterMap (s.servable node low)) = some (c, g, q, e, u) →
      exec (.schedRelease node low read none) s = .next (u.dequeue node c g q e read)) ∧
    ((s.pnode node).st ≠ 0 → exec (.schedRelease node low read none) s = .next s)) ∧
  (∀ (s : State) (node c g q : Nat) (e : QEnt) (ce : Bool), e.ce = ce → e.slot = none → s.age e ≤ s.maxAge q →
    e.pkt.tail ≠ some true → ce = true → s.dequeue node c g q e .good = s.release node c g q e true) ∧
  (∀ (s : State) k e, s.td.sched.tt = [(k, some e)] → e.slot ≤ s.slot → e.wheel = false → s.slot - e.slot ≤ 250 →
    exec .timetableRetire s = .next (({ s with td := { s.td with sched := { s.td.sched with tt := [] } } } : State).hwPeak
      0xBF240400 31 16 (s.slot - e.slot) 0xFFFF))) ∧
  ((∀ (kind : Fin 4) (node : Fin 262144) (s : State),
    let k := nodeKey kind node
    let c := s.shaperCfg k
    let b := s.bucket k
    (c.rate = 0 → exec (.shaperRefill kind node) s = .next s) ∧
    (c.rate ≠ 0 → s.domain 7 = 0 → b.b + ((b.f + c.rate * 4) / 1000000 : Nat) ≤ c.burst → exec (.shaperRefill kind node) s
      = .next (s.putBucket k ⟨b.b + ((b.f + c.rate * 4) / 1000000 : Nat), (b.f + c.rate * 4) % 1000000⟩)) ∧
    (c.rate ≠ 0 → s.domain 7 = 0 → (c.burst : Int) < b.b + ((b.f + c.rate * 4) / 1000000 : Nat) →
      exec (.shaperRefill kind node) s = .next (s.putBucket k ⟨c.burst, 0⟩))) ∧
  (∀ (m : Fin 131072) (s : State), s.domain 5 = 0 →
    let c := s.meterCfg m
    let r := s.meterRun m
    ∃ a b fa fb, exec (.meterRefill m) s = .next (s.setMeter m ⟨a, b, fa, fb⟩) ∧
      (r.tc + (r.fc + c.cir * 4) / 1000000 ≤ c.cbs →
        a = r.tc + (r.fc + c.cir * 4) / 1000000 ∧ fa = (r.fc + c.cir * 4) % 1000000) ∧
      (c.cbs < r.tc + (r.fc + c.cir * 4) / 1000000 → a = c.cbs ∧ fa = 0) ∧
      (r.te + (r.fe + c.pir * 4) / 1000000 ≤ c.pbs →
        b = r.te + (r.fe + c.pir * 4) / 1000000 ∧ fb = (r.fe + c.pir * 4) % 1000000) ∧
      (c.pbs < r.te + (r.fe + c.pir * 4) / 1000000 → b = c.pbs ∧ fb = 0)))

/-- R288: a meter's buckets only fall by the packet's length, a packet that comes in red or finds no bucket that holds it is
red and takes nothing, and none goes out of a colour-aware meter with a better colour than it came with. -/
def Obligations.MeterColoursAreSound : Prop :=
  ∀ (c : MeterCfg) (r : MeterRun) (n inc : Nat),
    let d := meterDecide c r n inc
    d.1 ≤ 2 ∧ min inc 2 ≤ d.1 ∧ d.2.fc = r.fc ∧ d.2.fe = r.fe ∧
    (d.2.tc = r.tc ∨ (d.2.tc + n = r.tc ∧ d.1 = 0)) ∧ (d.2.te = r.te ∨ (d.2.te + n = r.te ∧ d.1 ≤ 1)) ∧
    (d.1 = 2 → d.2 = r) ∧ (d.1 = 0 → n ≤ r.tc)

/-- R274, R275, R285, R287, R290, R262, R264: the commands of shapers, nodes, holds and meters write what they name, and
METER_READ answers a meter's configuration and buckets. R283, R284: a port node whose link falls holds for its HOLD time, or
is flushed at once where that is 0; its hold expires into a flush; and a link that returns in a hold, or to a node that is
DOWN, brings it UP, each with its event. -/
def Obligations.ShapingCommandsComplete : Prop :=
  (∀ (h : Hdr) (p : List Word) (s : State), s.slipOrQuiet = false → h.priv ≠ 2 →
    (∀ kind n rate burst, kind = pf p 0 31 30 → n = pf p 0 29 12 → rate = pf p 1 27 0 → burst = pf p 2 26 0 → tdWide h = true →
      p.length = 4 → pf p 0 9 0 = 0 → pf p 1 31 28 = 0 → pf p 2 31 27 = 0 → pf p 3 31 8 = 0 → n < kindSize kind →
      0 < rate → rate ≤ 200000000 → 1024 ≤ burst → burst ≤ 67108864 → 0 ≤ (s.bucket (nodeKey kind n)).b →
      s.mirrorRefuses 0x400 h = false → s.shaperRate kind n rate ≠ 0 →
      let k := nodeKey kind n
      let adj : Int := (BitVec.ofNat 8 (pf p 3 7 0)).toInt
      adj ≤ 63 → -64 ≤ adj →
      let shapers := tset restShaper s.cfg.td.shapers k ⟨s.shaperRate kind n rate, burst, adj⟩
      TakesEffect .shaperSet 0x400 h p s (((s.setTdCfg { s.cfg.td with shapers := shapers }).putBucket k
        ⟨if bit (par p 0) 11 then burst else 0, 0⟩).timetable k) codeOk [bucketWord (s.bucket k).b]) ∧
    (∀ n, n = pf p 0 29 15 → pf p 0 31 30 = 1 → tdWide h = true → p.length = 2 → pf p 0 10 0 = 0 → pf p 1 7 0 = 0 →
      pf p 1 19 8 ≠ 0 → (s.groupCfg n).parent = pf p 1 31 20 → (s.groupCfg n).prio = pf p 0 13 11 → s.mirrorRefuses 0x403 h = false →
      let groups := tset restGroup s.cfg.td.groups n ⟨bit (par p 0) 14, pf p 1 31 20, pf p 0 13 11, pf p 1 19 8⟩
      TakesEffect .nodeCfg 0x403 h p s (s.setTdCfg { s.cfg.td with groups := groups }) codeOk []) ∧
    (∀ n, n = pf p 0 31 24 → tdWide h = true → p.length = 1 → pf p 0 13 0 = 0 → n < 176 → pf p 0 23 14 ≤ 1000 →
      (s.pnode n).st ≠ 1 → s.mirrorRefuses 0x404 h = false →
      TakesEffect .portHold 0x404 h p s (s.setTdCfg { s.cfg.td with holds := tset zn s.cfg.td.holds n (pf p 0 23 14) })
        codeOk []) ∧
    (∀ m (c : MeterCfg), m = pf p 0 31 15 → c = ⟨bit (par p 0) 14, pf p 1 27 0, pf p 2 27 0, pf p 3 26 0, pf p 4 26 0⟩ →
      fdWide h = true → p.length = 5 → pf p 0 13 0 = 0 → pf p 1 31 28 = 0 → pf p 2 31 28 = 0 → pf p 3 31 27 = 0 → pf p 4 31 27 = 0 →
      c.cir ≤ 200000000 → c.pir ≤ 200000000 → burstOk c.cbs = true → burstOk c.pbs = true → (c.type = true ∨ c.cir ≤ c.pir) →
      s.mirrorRefuses 0x401 h = false →
      TakesEffect .meterSet 0x401 h p s ((s.setTdCfg { s.cfg.td with meters := tset dflt s.cfg.td.meters m c }).setMeter m
        ⟨c.cbs, c.pbs, 0, 0⟩) codeOk []) ∧
    (∀ m, m = pf p 0 31 15 → fdWide h = true → p.length = 1 → pf p 0 14 0 = 0 → s.mirrorRefuses 0x406 h = false →
      ∃ r1 r2 r3 r4 r5 r6 r0, TakesEffect .meterRead 0x406 h p s s codeOk [r0, r1, r2, r3, r4, r5, r6] ∧
        r1 = BitVec.ofNat 32 (s.meterCfg m).cir ∧ r2 = BitVec.ofNat 32 (s.meterCfg m).pir ∧
        r3 = BitVec.ofNat 32 (s.meterCfg m).cbs ∧ r4 = BitVec.ofNat 32 (s.meterCfg m).pbs ∧
        r5 = BitVec.ofNat 32 (s.meterRun m).tc ∧ r6 = BitVec.ofNat 32 (s.meterRun m).te)) ∧
  (∀ (node : Fin 176) (s : State),
    let up := s.nodeLink node
    let u := s.putPnode node { s.pnode node with link := up }
    ((u.pnode node).st = 0 → up = false → u.nodeAdmin node = true → 0 < u.holdMs node →
      exec (.portLinkChange node) s = .next (u.toPort node 1 0x140 [])) ∧
    ((u.pnode node).st = 0 → up = false → u.holdMs node = 0 → exec (.portLinkChange node) s = .next (u.toPort node 2 0x142 [])) ∧
    ((u.pnode node).st = 1 → u.holdOver node = true → exec (.portLinkChange node) s = .next (u.toPort node 2 0x142 [])) ∧
    ((u.pnode node).st = 1 → u.holdOver node = false → up = true → exec (.portLinkChange node) s = .next (u.toPort node 0 0x141 [d16 0])) ∧
    ((u.pnode node).st = 3 → up = true → exec (.portLinkChange node) s = .next (u.toPort node 0 0x141 [d16 1])) ∧
    ((s.pnode node).st = 1 → (s.pnode node).since + ms (s.holdMs node) ≤ s.mono →
      exec (.portHoldExpire node) s = .next (s.toPort node 2 0x142 [])) ∧
    (∀ st ev, (s.toPort node st ev []).ev.flight = s.ev.flight ++ [⟨ev, evData [d16 node], s.time.dev, false⟩] ∧
      OnlyIn [.td, .ev] s (s.toPort node st ev [])))

/-- R36, R39: a descriptor that fails its check is dropped with its event; one that is next in its source slice's order is
delivered; one ahead of it within 1,024 is held; and a gap open for 4 µs is skipped with its event. -/
def Obligations.DescriptorsComplete : Prop :=
  (∀ (desc : BitVec 256) (data : List Byte) (tail : Option Bool) (mapBad : Bool) (s : State),
    let slice := bits desc 118 115
    let bad := crc8From 0xFF#8 (beBytes 31 (desc.toNat / 256)) != desc.extractLsb' 0 8
    let pseq := bits desc 114 99
    let u := s.setD2d { s.fd.d2d with flight := [] }
    s.domain 4 = 0 → s.domain 7 = 0 → s.fd.d2d.flight = [] →
    (bad = true → exec (.ingressDescriptorReceive desc data tail mapBad) s
      = .next ((u.drop 0 (bits desc 139 133) 24 slice (bits desc 132 119)).post 0x101 [d16 slice])) ∧
    (bad = false → bits desc 255 238 + bits desc 237 220 = 2 ^ 18 - 1 →
      (pseq = (s.order slice).next → (s.order slice).next < 65536 →
        exec (.ingressDescriptorReceive desc data tail mapBad) s
          = .next (State.orderDrain slice 1025 ((u.putOrder slice { s.order slice with next := (pseq + 1) % 65536 }).deliverD2d
              ⟨desc, data, none, false, tail, mapBad⟩))) ∧
      (0 < (pseq + 65536 - (s.order slice).next) % 65536 → (pseq + 65536 - (s.order slice).next) % 65536 < 1024 →
        (s.order slice).held = [] →
        exec (.ingressDescriptorReceive desc data tail mapBad) s
          = .next (u.putOrder slice { s.order slice with
              held := [(pseq, ⟨desc, data, none, false, tail, mapBad⟩)], gap := some ((s.order slice).gap.getD s.mono) })))) ∧
  (∀ (slice : Fin 16) (s : State) q x since, (s.order slice).held = [(q, x)] → (s.order slice).gap = some since → since + 4000 ≤ s.mono →
    let n := (q + 65536 - (s.order slice).next) % 65536
    exec (.d2dGapTimeout slice) s = .next (State.orderDrain slice 1025
      (((s.putOrder slice { s.order slice with next := q, gap := none }).bump 4 0 5 n).post 0x103 [d16 slice, d32 n])))

/-- R34, R37, R38, R41: a flit whose check holds and whose FSEQ is next is taken, one that has come before is acknowledged
again and one still to come is discarded; a failing one is discarded and asked for again, and the eighth failure of one FSEQ
in a row begins a retrain; a module that retrains comes back, with its faulty lanes repaired. R224 to R230: a cell whose wait
is over joins its VOQ with the next sequence number of its stream, the multicast heads of an input age, a matching moves
matched cells toward their outputs, and a cell whose header fails is lost with its event. -/
def Obligations.CrossingCompletes : Prop :=
  (∀ (m : Fin 24) (dir : Dir) (s : State),
    let x := s.d2dDir m dir
    let put (y : D2dDir) := tset dflt s.fd.d2d.dirs (m * 2 + (if dir = .tdToFd then 1 else 0)) y
    (∀ flit, s.domain 4 = 0 → s.fd.d2d.retired.contains m.val = false → s.fd.d2d.training.contains m.val = false →
      let seq := bits (BitVec.ofNat 32 (beNat (flit.take 4)) : Word) 26 16
      (flitOk m flit = false → x.fails < 7 → ∃ t, exec (.flitReceive m dir flit) s = .next t ∧
        t.fd.d2d.dirs = put { x with discard := true, fails := x.fails + 1, nak := some x.expect } ∧
        t.fd.d2d.training = s.fd.d2d.training ∧ OnlyIn [.fd] s t) ∧
      (flitOk m flit = false → 7 ≤ x.fails → ∃ t, exec (.flitReceive m dir flit) s = .next t ∧
        t.fd.d2d.training = s.fd.d2d.training ++ [m.val] ∧ OnlyIn [.fd] s t) ∧
      (flitOk m flit = true → seq = x.expect → ∃ t y, exec (.flitReceive m dir flit) s = .next t ∧ t.fd.d2d.dirs = put y ∧
        y.expect = (x.expect + 1) % 2048 ∧ y.discard = false ∧ y.fails = 0 ∧ OnlyIn [.fd, .cnt] s t) ∧
      (flitOk m flit = true → seq ≠ x.expect →
        exec (.flitReceive m dir flit) s = .next (if serialLe 2048 513 seq x.expect then s.linkSay m dir (.ack x.expect) else s))) ∧
    (s.fd.d2d.retired.contains m.val = false → s.fd.d2d.training.contains m.val = false →
      ∃ t, exec (.d2dRetrain m) s = .next t ∧ t.fd.d2d.training = s.fd.d2d.training ++ [m.val] ∧
        t.fd.d2d.retired = s.fd.d2d.retired ∧ OnlyIn [.fd] s t) ∧
    (s.fd.d2d.training.contains m.val = true →
      (∃ t, exec (.d2dRetrainEnd m true []) s = .next t ∧ t.fd.d2d.training = s.fd.d2d.training.filter (· != m.val) ∧
        t.fd.d2d.retired = s.fd.d2d.retired ∧ OnlyIn [.fd] s t) ∧
      (∀ up lane, tget zn s.spares.lanes (m * 2 + b01 up) < 4 →
        ∃ t, exec (.d2dRetrainEnd m true [(up, lane)]) s = .next t ∧
          t.spares.lanes = tset zn s.spares.lanes (m * 2 + b01 up) (tget zn s.spares.lanes (m * 2 + b01 up) + 1) ∧
          t.spareUsed 8 = s.spareUsed 8 + 1 ∧ t.fd.d2d.retired = s.fd.d2d.retired ∧
          t.fd.d2d.training = s.fd.d2d.training.filter (· != m.val) ∧ OnlyIn [.fd, .spares, .ev] s t))) ∧
  ((∀ (input out : Fin 32) (cls : Fin 3) (s : State) c, tget none0 s.td.xb.packs (voqKey input cls out) = some c →
    c.since + 8 * s.rf 0xBF210000 31 24 ≤ s.mono →
    ∃ t, exec (.xbarPackTimeout input out cls) s = .next t ∧ t.td.xb.packs = tset none0 s.td.xb.packs (voqKey input cls out) none ∧
      t.td.xb.voqs = tset nil0 s.td.xb.voqs (voqKey input cls out) (tget nil0 s.td.xb.voqs (voqKey input cls out)
        ++ [{ c with seq := tget zn s.td.xb.seqs (voqKey input cls out), since := s.mono }]) ∧ OnlyIn [.td] s t) ∧
  (∀ (input : Fin 32) (s : State), ∃ t, exec (.xbarMcAge input) s = .next t ∧
    (∀ v ∈ t.td.xb.voqs, v.1 / 96 = input.val → v.1 % 96 / 32 = 2 → ∀ c r, v.2 = c :: r →
      c.since + 1000 * max 1 (s.rf 0xBF210000 23 12) ≤ s.mono → c.aged = true) ∧
    t.td.xb.voqs.map (fun v => (v.1, v.2.map (fun c => { c with aged := false })))
      = s.td.xb.voqs.map (fun v => (v.1, v.2.map (fun c => { c with aged := false }))) ∧ OnlyIn [.td] s t) ∧
  (∀ (s : State) (i o : Nat) (c : Cell), i < 32 → o < 16 → c.cls = 1 → c.outs = [o] → s.td.fab.ready = [] → s.fd.d2d.stalled = [] →
    s.td.xb.voqs = [(voqKey i 1 o, [c])] →
    ∃ t, exec .xbarMatching s = .next t ∧ t.td.xb.voqs = [] ∧ t.td.xb.crossing = s.td.xb.crossing ++ [(o, c)] ∧ OnlyIn [.td] s t) ∧
  (∀ (out : Fin 32) (s : State) c rest, s.td.xb.crossing = (out.val, c) :: rest → c.chunks = [] →
    (tget dflt s.td.xb.rx (voqKey c.input c.cls out)).pid = none →
    ∃ t, exec (.xbarCellReceive out false) s = .next t ∧ t.td.xb.crossing = rest ∧
      t.td.xb.rx = tset dflt s.td.xb.rx (voqKey c.input c.cls out) ⟨(c.seq + 1) % 65536, none, 0⟩ ∧
      t.ev.flight = s.ev.flight ++ [⟨0x100, evData [d16 out, d16 c.input], s.time.dev, false⟩] ∧ OnlyIn [.td, .ev] s t) ∧
  (∀ (out : Fin 32) (s : State) c rest, s.td.xb.crossing = (out.val, c) :: rest → c.chunks = [] →
    (c.cls = 2 ∨ c.seq = (tget dflt s.td.xb.rx (voqKey c.input c.cls out)).expect) →
    ∃ t, exec (.xbarCellReceive out true) s = .next t ∧ t.td.xb.crossing = rest ∧
      t.td.xb.rx = tset dflt s.td.xb.rx (voqKey c.input c.cls out)
        { tget dflt s.td.xb.rx (voqKey c.input c.cls out) with expect := (c.seq + 1) % 65536 } ∧ OnlyIn [.td] s t))

/-- R40: of the flits that wait on a module with credit to send them, VC7 goes first, then VC0 to VC3 in turn, then VC6, then
VC4 and VC5 in turn, which come before VC0 to VC3 where 63 flits have passed without them; and a flit asked for again goes
before a new one. -/
def Obligations.FlitsAreServedByClass : Prop :=
  ∀ (t : D2dTx) (m : Nat),
    let data := (List.range 4).any t.ready
    let low := t.ready 4 || t.ready 5
    (t.ready 7 = true → t.pick = some 7) ∧
    (t.ready 7 = false → t.starved < 63 ∨ low = false → data = true →
      ∃ v i, t.pick = some v ∧ v < 4 ∧ t.ready v = true ∧ i < 4 ∧ v = (tget zn t.turns 0 + i) % 4 ∧
        ∀ j < i, t.ready ((tget zn t.turns 0 + j) % 4) = false) ∧
    (t.ready 7 = false → t.starved < 63 ∨ low = false → data = false → t.ready 6 = true → t.pick = some 6) ∧
    (t.ready 7 = false → low = true → (63 ≤ t.starved ∨ data = false ∧ t.ready 6 = false) →
      ∃ v, t.pick = some v ∧ (v = 4 ∨ v = 5) ∧ t.ready v = true) ∧
    (∀ k seq f b, t.again = k + 1 → t.again ≤ t.replay.length → t.replay[t.replay.length - t.again]? = some (seq, f, b) →
      (t.slot m).sent = b ∧ (t.slot m).fseq = t.fseq ∧ (t.slot m).waits = t.waits) ∧
    (∀ v, t.again = 0 → t.replay.length < 512 → t.pick = some v → t.slot m = t.emit m v)

/-- R295 to R298, R304, R305, R307: a cell whose HEC holds on a link in SYNC is taken, six in a row bring a link from its
check to SYNC, seven failures take it back; a link comes into service with its credits, and a stop falls when its time is
over. R300, R303, R306: a transmit group sends the cell of the first class, in its order, that has a stream ready, and an idle
cell otherwise. R301: FAB_QMAP_SET writes consecutive entries of the fabric queue map and FAB_QMAP_READ answers them. -/
def Obligations.FabricCompletes : Prop :=
  (∀ (link : Fin 192) (s : State),
    let x := s.flink link
    (∀ (head : BitVec 128) (payload : List Byte), s.linkOn link = true →
      (x.st = 3 → cellHec head = head.extractLsb' 0 8 → exec (.fabricCellReceive link head payload) s
        = .next ((s.putFlink link { x with run := 0 }).goodCell link ⟨head, cellBytes payload⟩)) ∧
      (x.st = 3 → cellHec head ≠ head.extractLsb' 0 8 → x.run + 1 < 7 → exec (.fabricCellReceive link head payload) s
        = .next ((s.landCount 3 1).putFlink link { x with run := x.run + 1 })) ∧
      (x.st = 2 → cellHec head = head.extractLsb' 0 8 → x.run + 1 = 6 → exec (.fabricCellReceive link head payload) s
        = .next (s.putFlink link { x with st := 3, run := 0, since := s.mono })) ∧
      (x.st < 2 → cellHec head = head.extractLsb' 0 8 →
        exec (.fabricCellReceive link head payload) s = .next (s.putFlink link { x with st := 2, run := 0 }))) ∧
    (s.linkOn link = true → x.st = 3 → x.inServ = false → x.since + 1000000 ≤ s.mono →
      exec (.fabricLinkService link) s = .next ((s.putFlink link
        { x with inServ := true, owed := [s.rxCred, s.rxCred, s.rxCred] }).post 0x181 [d16 link])) ∧
    (∀ (k : Fin 1536) t, tget zn x.stops k = t + 1 → t + 100000 ≤ s.mono →
      exec (.fabricStopExpire link k) s = .next (s.putFlink link { x with stops := tset zn x.stops k 0 })) ∧
    (∀ y, OnlyIn [.td] s (s.putFlink link y))) ∧
  (∀ (g : Fin 16) (s : State),
    (∀ d l cs, s.nextStream g 0 = some (d, l, cs) → exec (.fabricCellTransmit g) s = .next (s.sendCell g 0 d l cs)) ∧
    (∀ d l cs, s.nextStream g 0 = none → tget zn s.td.fab.altern g = 0 → s.nextStream g 1 = some (d, l, cs) →
      exec (.fabricCellTransmit g) s = .next (s.sendCell g 1 d l cs)) ∧
    (∀ d l cs, s.nextStream g 0 = none → tget zn s.td.fab.altern g ≠ 0 → s.nextStream g 2 = some (d, l, cs) →
      exec (.fabricCellTransmit g) s = .next (s.sendCell g 2 d l cs)) ∧
    (s.nextStream g 0 = none → s.nextStream g 1 = none → s.nextStream g 2 = none →
      exec (.fabricCellTransmit g) s = .next (s.sendIdle g))) ∧
  (∀ (h : Hdr) (p : List Word) (s : State), qmapBad h p = false → s.slipOrQuiet = false →
    (∀ n first, n = pf p 0 13 8 + 1 → first = pf p 0 31 14 → (p.drop 1).length = n → (∀ w ∈ p.drop 1, bits w 3 0 = 0) →
      h.priv ≠ 2 → s.mirrorRefuses 0x430 h = false →
      ∃ u, TakesEffect .fabQmapSet 0x430 h p s u codeOk [] ∧ OnlyIn [.cfg] s u ∧
        (∀ i, i < first ∨ first + n ≤ i → tget dflt u.cfg.td.qmap i = tget dflt s.cfg.td.qmap i)) ∧
    (p.length = 1 → s.mirrorRefuses 0x431 h = false →
      ∃ rs, TakesEffect .fabQmapRead 0x431 h p s s codeOk rs ∧ rs.length = pf p 0 13 8 + 1 ∧
        ∀ i, i < rs.length → bits (rs.getD i 0) 30 22 = (tget dflt s.cfg.td.qmap (pf p 0 31 14 + i)).dest % 512))

/-- R308, R311: a gap held past REORD_TMO is skipped, an idle context is freed after 1 ms, and a duplicate entry is removed at
the end of its life. R310: of two packets alike in SSID, OSRC and MANIFEST with DC set, the first is entered and delivered,
and the second, within its life, is counted and not delivered. -/
def Obligations.LandingCompletes : Prop :=
  ((∀ (src : Fin 512) (g : Fin 16) (cls : Fin 3) (dest : BitVec 16) (s : State) x,
    let key := ctxKey src g cls dest.toNat
    tfind s.td.fab.ctxs key = some x →
    (tget dflt s.td.fab.ctxs key = x → x.held.any (fun h => h.2.1 + s.reordTmo ≤ s.mono) = true →
      exec (.landingGapTimeout src g cls dest) s = .next (s.skipGap key src g cls)) ∧
    (x.held = [] → x.part = none → x.last + 1000000 ≤ s.mono →
      ∃ t, exec (.landingContextFree src g cls dest) s = .next t ∧ t.td.fab.ctxs = tdel s.td.fab.ctxs key ∧ OnlyIn [.td] s t)) ∧
  (∀ (ssid : BitVec 16) (osrc : Option (BitVec 16)) (man : BitVec 48) (s : State) e,
    let key := dupKey ssid.toNat osrc.isSome (osrc.getD 0).toNat man.toNat
    tfind s.td.fab.dups key = some e → e.time + e.ttl ≤ s.mono →
    ∃ t, exec (.dupEntryExpire ssid osrc man) s = .next t ∧ t.td.fab.dups = tdel s.td.fab.dups key ∧ OnlyIn [.td] s t)) ∧
  (∀ (s : State) (g : Nat) (p : TdPkt), p.dc = true →
    let k := dupKey p.ssid p.ov p.osrc.toNat p.manifest.toNat
    (∀ e, tfind s.td.fab.dups k = some e → s.mono < e.time + e.ttl →
      (s.dupCheck g p).td.xb = s.td.xb ∧ (s.dupCheck g p).td.fab.ready = s.td.fab.ready ∧
      (s.dupCheck g p).td.fab.dups = tdel s.td.fab.dups k) ∧
    (tfind s.td.fab.dups k = none → s.td.fab.dups.length < 1048576 → s.dupCheck g p
      = ((s.setFab { s.td.fab with dups := tins s.td.fab.dups k ⟨s.mono, s.dupTtl⟩ }).landCount 1 1).land g p))

/-- R65: codeword lock is gained by the fourth codeword in a row that decodes and lost by the eighth in a row that does not;
any other codeword moves one count. -/
def Obligations.CodewordLock : Prop :=
  ∀ (c : CwLock) (mono : Nat),
    (c.lock = false → c.good = 3 → c.take true mono = ⟨true, 0, 0, mono⟩) ∧
    (c.lock = false → c.good < 3 → c.take true mono = { c with good := c.good + 1 }) ∧
    (c.lock = false → c.take false mono = { c with good := 0 }) ∧
    (c.lock = true → c.bad = 7 → c.take false mono = ⟨false, 0, 0, mono⟩) ∧
    (c.lock = true → c.bad < 7 → c.take false mono = { c with bad := c.bad + 1 }) ∧
    (c.lock = true → c.take true mono = { c with bad := 0 })

/-- R57, R65, R66 to R68, R72: on a powered lane of an enabled Span port a codeword moves the lock and a locked lane reads its
20 blocks, a hit begins a candidate, a frame period without candidates left returns to HUNT, a fifth errored period leaves it
from FLYWHEEL, and dLOCW enters and leaves by its timers. -/
def Obligations.LanesComplete : Prop :=
  ∀ (lane : Fin 128) (s : State) (p : Nat) (c : PortCfg), s.portAt lane = some (p, c) → c.type = 4 → c.up = true →
    s.lineOn = true →
    (∀ ok n message,
      let x := s.lane lane
      let cw := x.cw.take ok s.mono
      (x.cw.lock = false ∨ cw.lock = true) →
      ∃ t, exec (.codewordReceive false lane ok n message) s = .next t ∧ OnlyIn [.line] s t ∧
        t.line.lanes = tset (fun _ => default) s.line.lanes lane (if cw.lock then
            { x with cw, got := if ok then readBlocks message else [], blocks := if x.cw.lock then (x.blocks + 20) % 4096 else 20 }
          else { x with cw, got := [], blocks := 0 })) ∧
    (∀ (pos : Fin 4096) oh, (s.lane lane).cw.lock = true → (s.lane lane).fsm = .hunt → (s.lane lane).cands = [] →
      BitVec.ofNat 48 (beNat (oh.take 6)) = fasPattern → oh.length = 64 →
      ohOk (unscramble (beNat ((oh.drop 6).take 1)) (beNat ((oh.drop 7).take 2)) oh) = true →
      ∃ k, exec (.spanBlockReceive lane pos oh) s = .next (s.putLane lane { s.lane lane with cands := [k], fsm := .confirm }) ∧
        k.pos = pos.val ∧ k.age = 0 ∧ k.mf = beNat ((oh.drop 6).take 1) ∧ k.sf = beNat ((oh.drop 7).take 2)) ∧
    (∀ seen, (s.lane lane).cw.lock = true → (s.lane lane).fsm = .confirm → (s.lane lane).cands.filterMap (·.next seen) = [] →
      exec (.spanFramePeriodEnd lane seen) s
        = .next (s.putLane lane { s.lane lane with fsm := .hunt, cands := [], track := [] })) ∧
    ((s.lane lane).cw.lock = true → (s.lane lane).fsm = .flywheel → (s.lane lane).errs = 4 →
      exec (.spanFramePeriodEnd lane []) s = .next ((s.cleanCount p lane c true).laneLost p lane c)) ∧
    ((s.lane lane).locw = true → (s.lane lane).cw.lock = true → (s.lane lane).cw.since + 1000000 ≤ s.mono →
      exec (.dlocwExitTimer lane) s = .next (((s.putLane lane { s.lane lane with locw := false }).post 0x050 []).portJudge p)) ∧
    ((s.lane lane).locw = false → (s.lane lane).cw.lock = false → (s.lane lane).cw.since + 200000 ≤ s.mono →
      exec (.dlocwLockTimeout lane) s
        = .next (((s.putLane lane { s.lane lane with locw := true }).defectIn p 8 0x040).markStop p))

/-- R50, R53, R59, R73 to R75, R88: a defect of a port's own standard enters and leaves with its events, an OTUCn frame with a
BIP-8 violation counts as errored, a degraded second is judged with its counts restarted, entries that wait come into effect
at their boundary, and holdover ends with codeword lock. -/
def Obligations.LinePortsComplete : Prop :=
  ∀ (port : Fin 128) (s : State) (c : PortCfg), s.port port = some c → s.lineOn = true →
    (∀ d : PortDefect, d.fits c.type c.lanes = true → d ≠ .otnBip8 → (∀ ch, d ≠ .clientLock ch) →
      let ev := if d.isGroup then 0x047 else if c.type = 3 then 0x048 else 0x046
      (d ∉ (s.portRun port).std → ∃ t, exec (.portStandardDefect port d true) s = .next t ∧
        (t.portRun port).std = (s.portRun port).std ++ [d] ∧ ⟨ev, evData [], s.time.dev, false⟩ ∈ t.ev.flight) ∧
      (d ∈ (s.portRun port).std → exec (.portStandardDefect port d false) s
        = .next ((s.putPortRun port { s.portRun port with std := (s.portRun port).std.erase d }).post (ev + 0x010) []))) ∧
    (c.type = 3 → exec (.portStandardDefect port .otnBip8 true) s
      = .next (s.putPortRun port { s.portRun port with errs := (s.portRun port).errs + 1 })) ∧
    (max 1 (s.rf (0x7F021400 + 4 * port) 31 8) ≤ (s.portRun port).errs → (s.portRun port).deg = false →
      max 2 (min 10 (s.rf (0x7F021400 + 4 * port) 7 4)) ≤ (s.portRun port).badRun + 1 →
      exec (.degSecondEnd port) s = .next ((s.putPortRun port { s.portRun port with
        badRun := (s.portRun port).badRun + 1, goodRun := 0, lastErrs := (s.portRun port).errs, lastFec := (s.portRun port).fec
        errs := 0, fec := 0, stopped := s.portStops port c, deg := true }).defectIn port 13 0x045)) ∧
    (∀ es, (s.portRun port).entries = some es →
      (c.type = 2 → ∃ t, exec (.flexeCalendarSwitch port) s = .next t ∧ t.port port = some { c with entries := es } ∧
        (trising s.line.ports = true → (t.portRun port).entries = none)) ∧
      (c.type = 3 → ∃ t, exec (.otnEntryCommit port) s = .next t ∧ t.port port = some { c with entries := es } ∧
        (trising s.line.ports = true → (t.portRun port).entries = none))) ∧
    ((s.lane port).cw.lock = true → (s.portRun port).justHeld = false → (s.portRun port).hold = true →
      exec (.holdoverExit port) s = .next ((s.putPortRun port { s.portRun port with hold := false }).post 0x059 [])) ∧
    ((s.lane port).cw.lock = false → (s.portRun port).justHeld = true → exec (.justHoldoverRelease port) s
      = .next (s.putPortRun port { s.portRun port with justHeld := false, justRun := 0 }))

/-- R47, R54, R55, R81, R85, R86: a frame on an enabled channel that is too short, too long or a MAC control frame is counted
and dropped, any other is handed in with its position; the framer sends the frame at the head of a port node with its FCS, or
begins one whose tail status is still to come and cuts it off where it is late; LINE_STATUS answers a port. -/
def Obligations.LineFramesComplete : Prop :=
  (∀ (chan : Fin 4096) (units : Nat) (frame : List Byte) (s : State) p c,
    s.portList.find? (fun x => x.2.channels.contains chan.val) = some (p, c) →
    s.lineOn = true → c.up = true → s.portStops p c = false →
    (s.portRun p).seek.contains (.clientLock chan) = false →
    let s1 := s.putPos chan (s.chanPos chan + units)
    (frame.length < 64 → exec (.frameReceive chan units frame) s = .next (s1.bump 0 p 2 1)) ∧
    (64 ≤ frame.length → c.maxFrame < frame.length → exec (.frameReceive chan units frame) s = .next (s1.bump 0 p 3 1)) ∧
    (64 ≤ frame.length → frame.length ≤ c.maxFrame → be16 frame 12 = 0x8808 →
      exec (.frameReceive chan units frame) s = .next (s1.bump 0 p 4 1)) ∧
    (64 ≤ frame.length → frame.length ≤ c.maxFrame → be16 frame 12 ≠ 0x8808 →
      ∃ f, exec (.frameReceive chan units frame) s = .next (s1.handIn f) ∧ f.port = p ∧ f.chan = chan.val ∧
        f.manifest = BitVec.ofNat 48 (s.chanPos chan + units) ∧ f.bytes = frame ∧ f.time = s1.now ∧
        (f.bad = true ↔ frame ≠ withFcs (frame.take (frame.length - 4)) false))) ∧
  (∀ (node : Fin 176) (s : State) f e r, tget nil0 s.fd.eng.tx node = (f, e) :: r → e.tailIn = true → node.val < 144 →
    s.drives node = true →
    let s1 := (s.setEng { s.fd.eng with tx := tset nil0 s.fd.eng.tx node r }).unsend node f.length
    let b := if e.begun then (f.take (f.length - 4), s1) else s1.tsAction node e (f.take (f.length - 4))
    exec (.egressFrameTransmit node) s
      = .next (b.2.setEng { b.2.fd.eng with sent := tset nil0 b.2.fd.eng.sent node (withFcs b.1 e.stomp) })) ∧
  (∀ (node : Fin 176) (s : State) f e r, tget nil0 s.fd.eng.tx node = (f, e) :: r → e.tailIn = false →
    (e.begun = false →
      let b := s.tsAction node e (f.take (f.length - 4))
      exec (.egressFrameTransmit node) s = .next (b.2.setEng { b.2.fd.eng with
        tx := tset nil0 b.2.fd.eng.tx node ((withFcs b.1 false, { e with begun := true }) :: r) })) ∧
    (e.begun = true → node.val < 144 → s.drives node = true →
      let s1 := (s.setEng { s.fd.eng with tx := tset nil0 s.fd.eng.tx node r }).unsend node f.length
      ∃ k u, u = (s1.draw.2.bump 1 node 13 1).postOnce 0x110 0 [d16 node] ∧ exec (.egressFrameTransmit node) s
        = .next (u.setEng { u.fd.eng with sent := tset nil0 u.fd.eng.sent node (withFcs ((f.take (f.length - 4)).take k) true) }))) ∧
  (∀ (h : Hdr) (p : List Word) (s : State) c, targetIs h 1 0x3F = true → p.length = 1 → pf p 0 24 0 = 0 →
    s.port (pf p 0 31 25) = some c → s.pwr.mode ≠ .slipway → s.lineOn = true → s.mirrorRefuses 0x503 h = false →
    TakesEffect .lineStatus 0x503 h p s s codeOk (s.lineStatus (pf p 0 31 25) c))

/-- R51 to R53, R78, R79, R92, R93: a port's or a Span group's configuration is written to its shadow, or comes into effect at
once where APPLY is set; a resize is accepted with its sequence number and begins its handshake. -/
def Obligations.PortAndGroupCommandsComplete : Prop :=
  ∀ (h : Hdr) (p : List Word) (s : State),
    (s.portCfgBad h p = false → h.priv ≠ 2 → s.slipOrQuiet = false → s.portLimit (pf p 0 31 25) (portCfgOf p) (bit (par p 0) 24) = false →
      s.mirrorRefuses 0x500 h = false →
      (bit (par p 0) 24 = false →
        TakesEffect .linePortCfg 0x500 h p s (s.shadowPort (pf p 0 31 25) (portCfgOf p)) codeOk []) ∧
      (bit (par p 0) 24 = true → ((s.port (pf p 0 31 25)).map (·.up)).getD false = false →
        (s.takes (pf p 0 31 25) (portCfgOf p)).any (fun x => x.2.up) = false →
        TakesEffect .linePortCfg 0x500 h p s (s.commitPort (pf p 0 31 25) (portCfgOf p)) codeOk [])) ∧
    (s.spanCfgBad h p = false → h.priv ≠ 2 → s.slipOrQuiet = false → s.deskewFits (pf p 0 31 27) (spanCfgOf p) = true →
      s.mirrorRefuses 0x501 h = false →
      (bit (par p 0) 26 = false → s.span (pf p 0 31 27) = none → TakesEffect .spanGroupCfg 0x501 h p s { s with
        cfg := { s.cfg with spanShadow := tset (fun _ => none) s.cfg.spanShadow (pf p 0 31 27) (some (spanCfgOf p)) } }
        codeOk []) ∧
      (bit (par p 0) 26 = true → s.span (pf p 0 31 27) = none → TakesEffect .spanGroupCfg 0x501 h p s
        (s.commitSpan (pf p 0 31 27) (spanCfgOf p) false) codeOk [])) ∧
    (∀ c, p.length = 5 → pf p 0 26 0 = 0 → s.span (pf p 0 31 27) = some c → c.resizeBad (resizeCounts p) = false →
      modeForwards s.pwr.mode = true → (s.pwr.mode ≠ .standby ∨ c.prot = true) → (s.spanRun (pf p 0 31 27)).txShake.ph = 0 →
      s.mirrorRefuses 0x502 h = false →
      let g := pf p 0 31 27
      let r := s.spanRun g
      let seq := (r.txShake.seq + 1) % 16
      TakesEffect .spanResize 0x502 h p s ((s.putSpanRun g { r with
        txShake := ⟨1, seq, c.txCounts, (resizeCounts p).take c.carriers.length, 0⟩, reqAt := s.mono }).shakeStep g 1)
        codeDeferred [BitVec.ofNat 32 seq])

/-- R69 to R71, R83, R87, R90: an instance not yet accepted is checked on its FAS and counts, and its fifth frame without FAS
restarts it with dLOF; a block is read at its time or replaced by lost words; three headers in a row bring delineation to
SYNC. -/
def Obligations.SpanReceiveCompletes : Prop :=
  (∀ (port : Fin 128) (inst : Fin 64) (frame : List Byte) (s : State) pc, s.port port = some pc → s.lineOn = true →
    pc.type = 4 → pc.up = true → inst.val < 8 * pc.lanes → frame.length = 16384 →
    (s.lane (port.val + inst.val % pc.lanes)).fsm = .inFrame →
    let x := s.inst port inst
    let seen : BitVec 48 := BitVec.ofNat 48 (beNat (frame.take 6))
    (x.acc = false → exec (.spanInstanceFrameReceive port inst frame) s = .next (s.putInst port inst
      (x.check (seen == fasPattern) (beNat ((frame.drop 6).take 1)) (beNat ((frame.drop 7).take 2))))) ∧
    (x.acc = true → 2 < diffBits seen fasPattern → x.fasBad = 4 →
      exec (.spanInstanceFrameReceive port inst frame) s = .next ((s.putInst port inst x.restart).lofIn port inst))) ∧
  (∀ (g : Fin 32) (s : State) c t ts, s.span g = some c → (s.spanRun g).reading = true →
    let r := s.spanRun g
    let c1 := (s.readCal g c).1
    let e := (r.rdG - (s.readCal g c).2) % c1.krx
    let times := (s.cycleTimes c1 (r.rdG - e)).filterMap (·.2)
    let lo := ts.foldl min t
    let hi := ts.foldl max t
    (times = t :: ts → readTime c1 (t :: ts) lo hi ≤ s.mono →
      let s1 := s.takeBlock g (s.blockAt g c1 e (readTime c1 (t :: ts) lo hi))
      (e + 1 < c1.krx → exec (.spanBlockRead g) s = .next s1) ∧
      (c1.krx ≤ e + 1 → exec (.spanBlockRead g) s = .next (s1.endCycle g c1))) ∧
    (∀ late, times = [] → s.laterTime c (r.rdG - e + c1.krx) = some late → late + 9240 ≤ s.mono →
      exec (.spanBlockRead g) s = .next (s.takeBlock g none))) ∧
  (∀ (g : Fin 32) (s : State) c w ws, s.span g = some c → (s.spanRun g).words = some w :: ws →
    let r := s.spanRun g
    let r1 := { r with words := ws, wordPos := r.wordPos + 1 }
    (r.delin = .hunt → headerOk w = false → exec (.spanWordReceive g) s = .next (s.putSpanRun g r1)) ∧
    (r.delin = .hunt → headerOk w = true → exec (.spanWordReceive g) s
      = .next (s.putSpanRun g { r1 with delin := .presync, valids := 1, skip := headerExtra w, back := [] })) ∧
    (r.delin = .presync → r.skip = 0 → headerOk w = true → r.valids = 2 → exec (.spanWordReceive g) s
      = .next (s.putSpanRun g
        { r1 with delin := .sync, valids := 0, skip := headerExtra w, back := [], pkt := none, delinAt := s.mono })) ∧
    (r.delin = .sync → r.skip = 0 → r.pkt = none → headerOk w = false → exec (.spanWordReceive g) s
      = .next ((s.putSpanRun g { r1 with delin := .hunt, delinAt := s.mono }).bump 3 g 3 1)))

/-- R94, R95, R97, R99: the group defects enter and leave by their timers; a resize switches at its multiframe, ends one
multiframe later, and fails when its time is over; mirrored counts are taken at the member's own multiframe. -/
def Obligations.SpanResizeCompletes : Prop :=
  ∀ (g : Fin 32) (s : State) c, s.span g = some c →
    let r := s.spanRun g
    (s.lineOn = true → c.up = true → r.delin ≠ .sync → r.delinAt + 1000000 ≤ s.mono → exec (.dglosEntryTimer g) s = .next (s.glosIn g)) ∧
    (r.glos = true → r.delin = .sync → max r.delinAt r.clearAt + 10000000 ≤ s.mono → s.noneLost g c = true →
      exec (.dglosExitTimer g) s = .next ((s.putSpanRun g { r with glos := false }).post 0x070 [])) ∧
    (r.gpart = true → max r.lastLoss r.clearAt + 10000000 ≤ s.mono → s.noneLost g c = true →
      exec (.dgpartExitTimer g) s = .next ((s.putSpanRun g { r with gpart := false }).post 0x071 [])) ∧
    (r.txShake.ph = 2 → r.txShake.new ≠ [] → (s.lead c).mf = 0 → (s.lead c).sf = r.txShake.sfc →
      (s.pwr.mode ≠ .standby ∨ c.prot = true) → exec (.spanSwitchMultiframe g) s = .next (((s.switchTx g c r.txShake.new).putSpanRun g
        { (s.switchTx g c r.txShake.new).spanRun g with txShake := { r.txShake with new := [] } }).shakeStep g 4)) ∧
    (∀ new, r.mirror = some new → (s.lead c).mf = 0 →
      exec (.standbySpanApply g) s = .next (((s.switchTx g c (new.take c.carriers.length)).putSpanRun g
        { (s.switchTx g c (new.take c.carriers.length)).spanRun g with mirror := none }).shakeDrop g)) ∧
    (∀ b, (s.leadIn c).acc = true → (s.leadIn c).mf = 1 → r.rxShake.new ≠ [] → (s.leadIn c).firstG = some b →
      ((r.rxShake.ph = 3 ∧ (s.leadIn c).sf = r.rxShake.sfc) ∨
        (r.rxShake.ph = 2 ∧ c.carriers.map (fun q => beNat (((s.inst q.port 0).oh.drop 3).take 1) % 128) = r.rxShake.new)) →
      let s1 := (s.setSpan g (some (c.withRx r.rxShake.new))).renumberAll c (c.withRx r.rxShake.new) b
      exec (.spanResizeApplyRx g) s = .next (s1.putSpanRun g
        { s1.spanRun g with rxEpoch := b, rxOld := some (r.rxEpoch, c.rxCounts), skewOf := none, skewSeen := []
                            rxShake := { r.rxShake with ph := 3, new := [], sfc := (s.leadIn c).sf } })) ∧
    (r.txShake.ph = 2 → r.txShake.new = [] → (s.lead c).sf = (r.txShake.sfc + 1) % 65536 → r.rxShake.ph ≠ 3 →
      exec (.spanResizeDone g) s = .next (s.txDone g)) ∧
    (r.rxShake.ph = 3 → r.rxShake.new = [] → (s.leadIn c).sf = (r.rxShake.sfc + 1) % 65536 → r.txShake.ph ≠ 2 →
      exec (.spanResizeDone g) s = .next (s.rxDone g c)) ∧
    (r.txShake.ph = 1 → r.reqAt + c.tmo * 1000000 ≤ s.mono → (s.pwr.mode ≠ .standby ∨ c.prot = true) →
      exec (.spanResizeTimeout g) s = .next (s.shakeFail g 0)) ∧
    (∀ (port : Fin 128) pc ci k fill, s.port port = some pc → s.carrierOf port = some (g.val, ci, c, k) → s.lineOn = true →
      pc.up = true → r.rxShake.ph ≠ 1 → exec (.spanFrameTransmit port fill) s
        = .next ((s.carrierFrames port g ci c k pc (justAction fill)).countJust port (s.tx port 0).jnext))

/-- R28, R104, R111, R113, R129 to R131, R197, R199: the packet at the head of a staging FIFO goes to its fragment entry or is
classified, one at the head of an egress half is dropped where its header does not fit and otherwise starts its thread; a
fragment entry ends and its held fragments are handled; the punt buckets fill at their rates. R105 to R108: GANGWAY_MOVE
begins its range of moves; a bucket whose old slice holds none of its packets is moved, and one that holds some after 10 µs is
abandoned with event 0x081. -/
def Obligations.SlicesComplete : Prop :=
  ((∀ (slice : Fin 16) (flt : ReadFaults) (s : State) p q, tget nil0 s.fd.gang.staging slice = p :: q →
    s.hasPhys slice = true → s.domain (ingressDomain (s.physOf slice)) = 0 → s.xbarHeld slice = false →
    s.busyThreads slice false < (s.engOf (s.physOf slice)).ein * 4 →
    let s1 := s.setGang { s.fd.gang with staging := tset nil0 s.fd.gang.staging slice q }
    ((s.rf 0x7F060600 31 31 = 0 ∨ bit ((s1.bankOf s1.curVer).profile p.pkt.chan 0) 7 = false) →
      exec (.ingressDispatch slice flt) s = .next (s1.classify slice p none flt)) ∧
    (∀ i, s.rf 0x7F060600 31 31 = 1 → bit ((s1.bankOf s1.curVer).profile p.pkt.chan 0) 7 = true →
      fragInfo (s.cfgReg 0x7F040000) p.pkt.bytes = some i →
      exec (.ingressDispatch slice flt) s = .next (s1.fragment slice p i flt))) ∧
  (∀ (slice : Fin 16) (s : State) p e q st ls c, tget nil0 s.fd.eng.egress slice = (p, e) :: q → s.hasPhys slice = true →
    s.domain (ingressDomain (s.physOf slice) + 1) = 0 → s.busyThreads slice true < (s.engOf (s.physOf slice)).eeg * 4 →
    let s1 := s.setEng { s.fd.eng with egress := tset nil0 s.fd.eng.egress slice q }
    let b := s1.bankOf s1.curVer
    parsePacket b.states b.trans p.pkt.bytes (bits (b.profile e.chan 0) 31 22) = (st, ls, c) →
    (st = .short → exec (.egressDispatch slice) s = .next ((s1.bump 1 e.node 21 1).unsend e.node p.pkt.bytes.length)) ∧
    (st ≠ .short → exec (.egressDispatch slice) s = .next (s1.enterEgress slice p e st ls))) ∧
  (∀ (i : Nat) (s : State) f, s.fd.frags[i]? = some f → f.created + ms 2 ≤ s.mono → ∃ t, exec (.fragEntryExpire i) s = .next t ∧
    (f.held = [] → t.fd.frags = s.fd.frags.filter (fun x => !(x.chan == f.chan && x.key == f.key)) ∧ OnlyIn [.fd] s t)) ∧
  (∀ s : State, s.domain 5 = 0 → ∃ t, exec .puntBucketRefill s = .next t ∧ t.fd.filled = s.mono ∧ OnlyIn [.fd] s t ∧
    t.fd.agg = min 2048000000 (s.fd.agg + tokensOver (max 1 (min 20000 (s.rf 0x7F060500 31 16))) (s.mono - s.fd.filled)))) ∧
  ((∀ (h : Hdr) (p : List Word) (s : State),
    let first := pf p 0 31 20
    let last := first + pf p 0 19 8
    let l := pf p 0 7 4
    fdWide h = true → p.length = 1 → pf p 0 2 0 = 0 → last ≤ 4095 → (s.deepOn = false ∨ last < 0xF00 ∨ s.deepSlices.contains l = true) → s.slipOrQuiet = false →
    s.hasPhys l = true → s.fd.gang.cmd = none → s.rollStep = false → s.fenceRuns = false → s.mirrorRefuses 0xD10 h = false →
    TakesEffect .gangwayMove 0xD10 h p s (State.pumpMoves ((s.stopDrain l).setGang
      { (s.stopDrain l).fd.gang with cmd := some ⟨first, first, last, l, bit (par p 0) 3⟩ })) codeDeferred []) ∧
  (∀ (b : Fin 4096) (s : State) m, s.fd.gang.holding b = some m →
    (tget zn s.fd.gang.counts b = 0 → exec (.gangwayMoveDrained b) s = .next (s.finishMove m)) ∧
    (tget zn s.fd.gang.counts b ≠ 0 → m.since + 10000 ≤ s.mono →
      m.drain = false → exec (.gangwayMoveAbandon b) s = .next ((s.dropMove m).post 0x081 [d16 2]).pumpMoves)))

/-- R340 to R342: alignment of a channel begins and is answered by PAIR_ALIGN, a marker sets the channel's position and tells
the peer of its lock, the holder's marker goes to the peer 100 µs after both had lock, refusals are tried again after their
wait, and samples without a partner go. -/
def Obligations.AlignmentCompletes : Prop :=
  (∀ (chan : Fin 4096) (t : Word64) (pos : BitVec 48) (s : State), s.lineOn = true →
    let s1 := s.putPos chan pos.toNat
    let a := s1.align chan
    let a1 := { a with markers := (a.markers ++ [(t, pos.toNat)]).drop (a.markers.length - 63) }
    (a.enabled = false → exec (.alignMarker chan t pos) s = .next (s1.putAlign chan a1)) ∧
    (a.enabled = true → a.lock = false → exec (.alignMarker chan t pos) s = .next ((s1.putAlign chan
      { a1 with lock := true, began := if a.peerLock then some s.now else none }).tellAlign chan 3 t pos.toNat)) ∧
    (a.enabled = true → a.lock = true → a.began = none → exec (.alignMarker chan t pos) s = .next (s1.putAlign chan a1)) ∧
    (∀ b, a.enabled = true → a.lock = true → a.began = some b → b.toNat + 100000 ≤ t.toNat → s.pair.formed = true → s1.holds a1 = true →
      a.sent = none → a.retryAt = none → exec (.alignMarker chan t pos) s
        = .next ((s1.putAlign chan { a1 with sent := some (t, pos.toNat) }).tetherPut 6 (alignFrame chan 1 t pos.toNat 0)))) ∧
  (∀ (chan : Fin 4096) (s : State) t, (s.align chan).retryAt = some t → t ≤ s.mono → exec (.alignRetryTimer chan) s
    = .next (s.putAlign chan { s.align chan with retryAt := none, sent := none, began := some s.now })) ∧
  (∀ s : State, ∃ t, exec .manifestSampleExpire s = .next t ∧ OnlyIn [.pair] s t ∧
    t.pair.mine = s.pair.mine.filter (fun x => s.mono < x.time + 1000000) ∧
    t.pair.theirs = s.pair.theirs.filter (fun x => s.mono < x.time + 1000000)) ∧
  (∀ (h : Hdr) (p : List Word) (s : State),
    let first := pf p 0 31 20
    let n := pf p 0 19 8 + 1
    p.length = 1 → pf p 0 5 0 = 0 → first + n ≤ 4096 → s.pair.act = true → s.pair.formed = true →
    s.mirrorRefuses 0x601 h = false →
    (pf p 0 7 6 = 0 → ∃ u, TakesEffect .pairAlign 0x601 h p s u codeDeferred [] ∧ OnlyIn [.pair] s u ∧
      (∀ c, c < first ∨ first + n ≤ c → u.align c = s.align c) ∧
      (∀ c, first ≤ c → c < first + n → s.spanChan c = false → (u.align c).enabled = true)) ∧
    (pf p 0 7 6 = 1 → ∃ u, TakesEffect .pairAlign 0x601 h p s u codeOk [] ∧ OnlyIn [.pair, .ev] s u ∧
      (∀ c, c < first ∨ first + n ≤ c → u.align c = s.align c)) ∧
    (pf p 0 7 6 = 2 → n ≤ 64 → TakesEffect .pairAlign 0x601 h p s s codeOk (((List.range n).map (first + ·)).map (fun c =>
      mkWord [(1, b01 (s.align c).enabled), (1, b01 (s.align c).aligned), (30, 0)]))))

/-- R334, R335, R337, R338, R341, R342, R397: a good frame that comes in its order does what its TTYPE says, one ahead of its
order waits, one with a bad TCRC is counted, and one already delivered only acknowledges; every good one shows the tether
alive. R333 to R338: the tether comes up and goes down by its timers with their events, a lane enters after 1 ms of lock, a
gap is answered by a NAK, status frames and sweeps are sent, and a mirrored command whose reply has not come within 1 ms ends. -/
def Obligations.TetherCompletes : Prop :=
  (∀ (c : TetherFrame → Instr) (k : Nat) (eff : State → List Byte → State), (c, k, eff) ∈
      [(Instr.tetherStatus, 1, State.takeStatus), (Instr.tetherBucketSweep, 2, State.takeSweep),
       (Instr.tetherOamState, 3, fun s b => takeEach 48 (fun r s => s.takeOam r) 84 b s),
       (Instr.tetherMirroredCommand, 4, State.takeCommand), (Instr.tetherMirroredReply, 5, State.takeReply),
       (Instr.tetherAlignment, 6, State.takeAlign), (Instr.tetherManifestCheck, 7, State.takeSamples),
       (Instr.tetherAck, 8, fun s _ => s),
       (Instr.tetherSpanHandshake, 9, fun s b => takeEach 32 (fun r s => s.takeShake r) 127 b s)] →
    ∀ (f : TetherFrame) (s : State), s.tetherOn = true →
    (f.tcrc ≠ TetherFrame.crc f → exec (c f) s = .next ((s.setPair { s.pair with statusFrom := none }).pairCount 0 1)) ∧
    (f.tcrc = TetherFrame.crc f →
      let u := s.takeAck f
      let s1 := u.setPair { u.pair with
        goodAt := s.mono, statusFrom := if s.pair.goodAt + 100000 ≤ s.mono then none else u.pair.statusFrom }
      let d := (f.lseq - s1.pair.rxSeq).toNat
      (d = 0 → f.ttype.toNat = k →
        let s2 := eff (s1.setPair { s1.pair with rxSeq := f.lseq + 1 }) f.payload
        s2.pair.ahead.find? (·.lseq == s2.pair.rxSeq) = none →
        exec (c f) s = .next (s2.noteGap s1.pair.ahead s1.pair.rxSeq)) ∧
      (0 < d → d < 1024 → s1.pair.ahead.any (·.lseq == f.lseq) = false →
        exec (c f) s = .next ((s1.setPair { s1.pair with ahead := s1.pair.ahead ++ [f] }).noteGap
          s1.pair.ahead s1.pair.rxSeq)) ∧
      (1024 ≤ d → s1.pair.tetherUp = true → exec (c f) s = .next s1))) ∧
  (∀ s : State,
    (∀ from_, s.tetherOn = true → s.pair.tetherUp = false → s.pair.statusFrom = some from_ → from_ + 1000000 ≤ s.mono →
      s.mono < s.pair.goodAt + 100000 → exec .tetherUp s = .next ((s.setPair { s.pair with tetherUp := true }).post 0x198 []).form) ∧
    (s.pair.tetherUp = true → s.pair.goodAt + 100000 ≤ s.mono → exec .tetherDownTimeout s = .next ((s.setPair
      { s.pair with tetherUp := false, statusFrom := none, formed := false, refused := 0 }).post 0x197 []).judgeRole) ∧
    (∀ lane : Fin 8, s.domain 9 = 0 → (tget dflt s.pair.locks lane).lock = true →
      (tget dflt s.pair.locks lane).since + 1000000 ≤ s.mono → s.pair.lanes.getLsbD lane = false →
      ∃ t, exec (.tetherLaneService lane true) s = .next t ∧ t.pair.lanes = putBits s.pair.lanes lane lane 1 ∧
        t.ev.flight = s.ev.flight ++ [⟨0x199, evData [d16 lane, d16 1], s.time.dev, false⟩] ∧ OnlyIn [.pair, .ev] s t) ∧
    (s.pair.ahead ≠ [] → s.pair.gapAt + 2000 ≤ s.mono →
      exec .tetherGapTimeout s = .next ((s.setPair { s.pair with gapAt := s.mono }).tetherSend 8 1 s.pair.rxSeq [])) ∧
    (∃ f, f.length = 16 ∧ f.take 8 = beBytes 8 s.healthWord.toNat ∧ exec .tetherStatusSend s = .next (s.tetherPut 1 f)) ∧
    (s.tetherOn = true → s.pair.act = true →
      let s1 := s.sweep s.pair.sweepNo.toNat
      exec .tetherSweepSend s = .next (s1.setPair { s1.pair with sweepNo := s1.pair.sweepNo + 1 })) ∧
    (∀ w ws, s.pair.waits = w :: ws → w.since + 1000000 ≤ s.mono →
      exec .mirrorReplyTimeout s = .next ((s.diverge w.cmd.op w.code 0).endMirror w)))

/-- R318 to R332, R348, R349: the interlock's line is seen and judged, the hold-off's end takes the role, a verdict that
passes its checks sets ALLOW and one that does not is counted, the self-test's rounds are kept, and the pair's commands take
effect. -/
def Obligations.RoleCompletes : Prop :=
  (∀ (level : Bool) (s : State), exec (.ilkPeerChange level) s = .next (State.judgeRole (State.judgeConflict
    { s with pair := { s.pair with peerIlk := level }, pins := { s.pins with ilkPeer := level } }))) ∧
  (∀ (s : State), (s.pair.oselFault = false ∨ s.pair.act = true) → exec (.ilkReadbackFault true) s = .next
    (((((s.setPair { s.pair with oselFault := true }).post 0x193 [d16 1]).dropRole 6).itemFails 5).judgeRole)) ∧
  (∀ (s : State) t, s.cfg.pair.en = true → s.pair.act = false → s.claimConds = true → s.pair.holdoff = some t →
    t + (if s.pair.sideB then 3000 else 2000) ≤ s.mono →
    (s.claimCmd = none → s.autoClaims = true → exec .interlockHoldoffExpire s = .next (s.takeRole 0)) ∧
    (∀ r, s.claimCmd = some r → r.prepared = true →
      exec .interlockHoldoffExpire s = .next ((s.takeRole 1).endModeReq r codeOk))) ∧
  (∀ (s : State), s.pair.yielded = true → s.pair.yieldAt + 10000000 ≤ s.mono →
    exec .yieldBlockExpire s = .next (s.setPair { s.pair with yielded := false }).judgeRole) ∧
  (∀ (s : State), s.refOn = true →
    exec .refereeHealthSend s = .next (s.setPair { s.pair with health := s.healthWord, healthSeq := s.pair.healthSeq + 1 }) ∧
    (s.pair.refLost = false → s.pair.verdictAt + ms s.cfg.pair.refTmo ≤ s.mono → exec .refereeTimeout s
      = .next ((s.setPair { s.pair with refOk := false, refLost := true }).post 0x194 []).judgeRole) ∧
    (∀ w why, verdictBad w = some why → exec (.refereeVerdictReceive w) s = .next ((s.setPair { s.pair with
      counts := tset z s.pair.counts 2 (tget z s.pair.counts 2 + 1) }).postOnce 0x196 0 [d16 why])) ∧
    (∀ w, verdictBad w = none → s.pair.refLost = false → s.pair.allow = BitVec.ofNat 2 (bits w 55 54) →
      s.allowsSide = true → exec (.refereeVerdictReceive w) s = .next (s.setPair
        { s.pair with refOk := true, verdictAt := s.mono, verdict := w }).judgeRole)) ∧
  (∀ (item : Fin 9) (pass : Bool) (s : State), s.cfg.pair.en = true →
    (s.pwr.mode = .standby ∨ (s.pwr.mode = .active ∧ item.val ≠ 3 ∧ item.val ≠ 8)) →
    let s1 := s.setPair { s.pair with
      rounds := min 65535 (s.pair.rounds + 1), mirrorOff := if item.val = 8 then false else s.pair.mirrorOff }
    let good := if item.val = 8 then !s.pair.mirrorOff else pass
    let rest := s1.pair.failing.filter (· != item.val + 1)
    (good = false → exec (.standbySelftestRound item pass) s = .next (s1.itemFails (item.val + 1)).judgeRole) ∧
    (good = true → item.val ≠ 4 →
      exec (.standbySelftestRound item pass) s = .next (s1.setPair { s1.pair with failing := rest }).judgeRole) ∧
    (good = true → item.val = 4 → exec (.standbySelftestRound item pass) s
      = .next (s1.setPair { s1.pair with failing := rest, ownFault := false, oselFault := false }).judgeRole)) ∧
  (∀ (h : Hdr) (p : List Word) (s : State),
    (devWide h = true → p.length = 2 → pf p 0 6 0 = 0 → pf p 1 24 16 = 0 → 2 ≤ (pairCfgOf p).refTmo →
      1 ≤ (pairCfgOf p).alignWin → (pairCfgOf p).alignWin ≤ 100 → hdrUser h = false → s.slipOrQuiet = false →
      s.mirrorRefuses 0x600 h = false → (pairCfgOf p).refEn = s.cfg.pair.refEn →
      let s1 := { s with cfg := { s.cfg with pair := pairCfgOf p } }
      ((pairCfgOf p).en = s.cfg.pair.en → (pairCfgOf p).mirror = s.cfg.pair.mirror →
        (pairCfgOf p).peerNode = s.cfg.pair.peerNode → TakesEffect .pairCfg 0x600 h p s s1.form codeOk []) ∧
      ((pairCfgOf p).en ≠ s.cfg.pair.en → modeOpensStatic s.pwr.mode = true → TakesEffect .pairCfg 0x600 h p s
        ((s1.setPair { s1.pair with refOk := false, refLost := false, verdictAt := s.mono, allow := 0 }).pairEnable (pairCfgOf p).en).form codeOk [])) ∧
    (p = [] → s.pwr.mode ≠ .slipway → s.mirrorRefuses 0x602 h = false → ∃ rs, rs.length = 8 ∧
      TakesEffect .pairHealth 0x602 h p s s codeOk rs) ∧
    (p.length = 1 → pf p 0 30 0 = 0 → s.cfg.pair.en = true → s.pair.act = true → bit (par p 0) 31 = true →
      s.mirrorRefuses 0x603 h = false → TakesEffect .pairYield 0x603 h p s
        ((s.dropRole 1).setPair { (s.dropRole 1).pair with yielded := true, yieldAt := (s.dropRole 1).mono }) codeOk []))

/-- R355 to R358, R360, R361, R371 to R377: refresh debt grows and is cleared by the all-bank refresh, a patrol scrub counts
what it finds, redirects and pseudo-channel swaps complete, the life log is written and read, and spares are applied. -/
def Obligations.MemoryUpkeepCompletes : Prop :=
  (∀ (m : Fin 4) (pc : Fin 64) (bank : Fin 128) (n : Nat) (s : State), (s.stack m).selfRefresh = false →
    s.domain (10 + m.val) = 0 →
    let c := (s.stack m).pc pc
    let need := if 85 < tget zn s.pwr.hbmTemp m then 2 else 1
    let debt := tget zn c.debt bank + (need - n) * (2 / need)
    (debt < 16 → exec (.hbmRefreshWindow m pc bank n) s
      = .next (s.putStack m ((s.stack m).putPc pc { c with debt := tset zn c.debt bank debt }))) ∧
    (16 ≤ debt → exec (.hbmRefreshWindow m pc bank n) s
      = .next (s.putStack m ((s.stack m).putPc pc { c with debt := [] })))) ∧
  (∀ (m : Fin 4) (pc : Fin 64) (row region : Nat) (s : State), 2 ≤ region → region ≤ 9 → row ≤ 589823 →
    s.domain (10 + m.val) = 0 → (s.stack m).serves pc = true →
    let k := s.stack m
    let c := k.pc pc
    let ces := c.ces.filter (fun e => s.spares.poh < e.2 + 24) ++ [(row, s.spares.poh)]
    let u := s.hbm region 6 191
    exec (.hbmPatrolScrub m pc row region .clean) s = .next u ∧
    ((ces.filter (·.1 == row)).length < 3 → exec (.hbmPatrolScrub m pc row region .corrected) s
      = .next (u.putStack m (({ k with ceNow := k.ceNow + 1 }).putPc pc { c with ces }))) ∧
    (3 ≤ (ces.filter (·.1 == row)).length → exec (.hbmPatrolScrub m pc row region .corrected) s
      = .next ((u.putStack m (({ k with ceNow := k.ceNow + 1 }).putPc pc { c with ces })).rowFails m pc row)) ∧
    (c.ues = [] → exec (.hbmPatrolScrub m pc row region .uncorrectable) s
      = .next ((((u.putStack m (k.putPc pc { c with ues := [(row, s.mono)] })).post 0x1C1 [d16 m, d16 region]).regionError
          region).rowFails m pc row))) ∧
  (∀ (m : Fin 4) (pc : Fin 64) (row : Nat) (s : State), ((s.stack m).pc pc).copying.contains row = true →
    (s.stack m).serves pc = true → exec (.hbmRedirectComplete m pc row) s = .next (s.redirect m pc row 0)) ∧
  (∀ (m : Fin 4) (s : State) pc cause, (s.stack m).swap = some (pc, cause) → (s.stack m).waits = [] →
    let k := { s.stack m with swap := none, waits := [], spare := false }
    exec (.hbmPcSwap m) s = .next (((s.putStack m (k.putPc pc { k.pc pc with gone := true })).post 0x1C3
      [d16 m, d16 pc]).substitute 7 cause (pcLoc m pc 0) pc 63)) ∧
  (∀ (s : State) r rest, s.domain 2 = 0 → s.spares.unwritten = r :: rest → ∃ t, exec .lifeLogWrite s = .next t ∧
    t.spares.log = s.spares.log ++ [r] ∧ t.spares.unwritten = rest ∧ OnlyIn [.spares] s t) ∧
  (∀ (h : Hdr) (p : List Word) (s : State), p.length = 2 → 1 ≤ pf p 1 4 0 → pf p 1 4 0 ≤ 16 → pf p 1 31 5 = 0 →
    s.mirrorRefuses 0xC03 h = false → ∃ rs, TakesEffect .lifeRead 0xC03 h p s s codeOk rs ∧
      rs.head? = some (BitVec.ofNat 32 s.spares.log.length)) ∧
  (∀ (h : Hdr) (p : List Word) (s : State), p.length = 1 → pf p 0 29 0 = 0 → s.pwr.mode ≠ .slipway →
    s.mirrorRefuses 0xC00 h = false →
    (pf p 0 31 30 = 0 → TakesEffect .memHealth 0xC00 h p s s codeOk
      ((List.range 12).map (fun i => mkWord [(4, i + 1), (14, provided (i + 1)), (14, s.spareLeft (i + 1))]))) ∧
    (pf p 0 31 30 = 1 → TakesEffect .memHealth 0xC00 h p s s codeOk ((List.range 4).map s.stackStat)) ∧
    (2 ≤ pf p 0 31 30 → ∃ rs, TakesEffect .memHealth 0xC00 h p s s codeOk rs)) ∧
  (∀ (h : Hdr) (p : List Word) (s : State),
    let f := s.spareApply (pf p 0 31 28) (pf p 1 29 24) (pf p 1 23 0) (par p 2).toNat
    p.length = 3 → pf p 0 27 0 = 0 → spareUnitOk (pf p 0 31 28) (pf p 1 31 30) (pf p 1 29 24) (pf p 1 23 0) (par p 2).toNat = true →
    hdrUser h = false → s.slipOrQuiet = false → s.mirrorRefuses 0xC02 h = false →
    (f.1.1 = true → TakesEffect .spareApply 0xC02 h p s s codeOk []) ∧
    (f.1 = (false, false, false) → TakesEffect .spareApply 0xC02 h p s (f.2 s).1 (f.2 s).2.1 (f.2 s).2.2))

/-- R364 to R370, R373: a block is retired, the retention pass reads a block, rewrites an old or weak one, and gives up one
that is weak again after that, the journal's bucket fills, and a checkpoint is asked for, taken to staging at its instant, and
completes or fails with its event. -/
def Obligations.StoreCompletes : Prop :=
  (∀ (b : Nat) (s : State), s.domain 2 = 0 → b < 61440 → exec (.storeBlockRetire b) s
    = .next (s.retireBlock b (((s.mem.retiring.find? (·.1 == b)).map Prod.snd).getD 0))) ∧
  (∀ (b n : Nat) (s : State), s.domain 2 = 0 → b < 61440 → s.ckptBusy = false → s.mem.retiring = [] →
    let s1 := { s with mem := s.mem.passOver b s.spares.poh }
    let old := 8760 ≤ s.spares.poh - tget zn s.mem.wroteAt b
    let again := 16 < n ∧ (tfind s.mem.moved b).isSome = true
    (24 < n → exec (.retentionPass b n) s = .next (s1.post 0x1D1 [d16 b])) ∧
    (n ≤ 24 → again → exec (.retentionPass b n) s = .next { s1 with mem := { s1.mem with retiring := [(b, 0)] } }) ∧
    (n ≤ 24 → ¬ again → (8 < n ∨ old) → ∃ t place, exec (.retentionPass b n) s = .next t ∧ OnlyIn [.mem, .free] s t ∧ t.mem =
      { s1.mem with rewritten := s.mem.rewritten + 1, wroteAt := tset zn s.mem.wroteAt b s.spares.poh
                    moved := tins s.mem.moved b place }) ∧
    (n ≤ 8 → ¬ old → exec (.retentionPass b n) s = .next s1)) ∧
  (∀ s : State, s.domain 2 = 0 → s.mem.reported + 86400000000000 ≤ s.mono → ∃ t, exec .retentionProgressLog s = .next t ∧ t.mem.rewritten = 0 ∧ OnlyIn [.mem, .ev] s t ∧
    t.ev.flight = s.ev.flight ++ [⟨0x1D0, evData [d32 s.mem.rewritten], s.time.dev, false⟩]) ∧
  (∀ s : State, s.domain 2 = 0 → ∃ t, exec .journalBucketRefill s = .next t ∧ t.mem.refilled = s.mono ∧ OnlyIn [.mem] s t ∧
    t.mem.tokens = min (268435456 * jByte) (s.mem.tokens + (s.mono - s.mem.refilled) * 114688)) ∧
  (∀ s : State, s.domain 2 = 0 → s.pwr.fwRuns = true → s.mem.pcAt + 10000000000 ≤ s.mono → ∃ t, exec .persistentCountersWrite s = .next t ∧ t.mem.pcSets = s.mem.pcSets + 1 ∧ t.mem.pcAt = s.mono ∧
    t.mem.written = tset zn s.mem.written 2 (tget zn s.mem.written 2 + 8192) ∧ OnlyIn [.mem] s t) ∧
  (∀ (h : Hdr) (p : List Word) (s : State), p.length = 3 → pf p 0 29 0 = 0 → targetIs h 3 4 = true → h.priv ≠ 2 →
    s.slipOrQuiet = false → s.pwr.mode ≠ .test → s.mirrorRefuses 0xC01 h = false →
    (pf p 0 31 30 = 0 → s.tooSoon (s.tickOf (par64 p 1)) = false → s.mem.run = none → s.nearActivation (par64 p 1) = false →
      TakesEffect .storeCheckpoint 0xC01 h p s { s with mem := { s.mem with run := some ⟨false, par64 p 1, none, false⟩ } }
        codeDeferred []) ∧
    (pf p 0 31 30 = 1 → s.store.ckpts ≠ [] → 1048576 * jByte ≤ s.mem.tokens → s.mem.run = none →
      s.nearActivation (par64 p 1) = false →
      TakesEffect .storeCheckpoint 0xC01 h p s { s with mem := { s.mem with run := some ⟨true, par64 p 1, none, false⟩ } }
        codeDeferred []) ∧
    (pf p 0 31 30 = 2 → s.ckptBusy = false →
      TakesEffect .storeCheckpoint 0xC01 h p s { s with mem := { s.mem with run := none } } codeOk [])) ∧
  (∀ (kib : Nat) (s : State) r, s.mem.run = some r → r.kib = none → s.reached r.due = true →
    (r.incr = true → kib * 1024 * jByte ≤ s.mem.tokens → ∃ t, exec (.checkpointInstant kib) s = .next t ∧
      t.store.staged = some s.cfg ∧ t.mem.run = some { r with kib := some kib } ∧
      t.mem.tokens = s.mem.tokens - kib * 1024 * jByte ∧ OnlyIn [.mem, .store] s t) ∧
    (r.incr = true → s.mem.tokens < kib * 1024 * jByte → exec (.checkpointInstant kib) s = .next (s.ckptFails 2)) ∧
    (r.incr = false → s.tooSoon s.time.ticks = false → ∃ t, exec (.checkpointInstant kib) s = .next t ∧
      t.store.staged = some s.cfg ∧ t.mem.run = some { r with kib := some kib } ∧
      t.mem.lastFull = some s.time.ticks ∧ OnlyIn [.mem, .store] s t)) ∧
  (∀ (fail : Option (Fin 2)) (s : State) r img k, s.mem.run = some r → s.store.staged = some img → r.kib = some k →
    (∀ f, fail = some f → exec (.checkpointComplete fail) s = .next (s.ckptFails f)) ∧
    (fail = none → ∃ t, exec (.checkpointComplete fail) s = .next t ∧ t.mem.run = none ∧ t.store.staged = none ∧
      t.store.ckpts = keepCkpts r.incr img s.store.ckpts ∧ OnlyIn [.mem, .store, .ev, .free] s t))

/-- R381 to R384, R388: DEVTIME is set, stepped, slewed or its rate corrected by TIME_ADJ, a slew whose offset is applied
ends, PPS edges move the servo, an edge that is 10 µs late is missed, a TOD message gives the next edge's second, the PPS
output rises at a whole second once DEVTIME is set and falls at its width, and TIME_READ answers the time or takes captures
from the FIFO. -/
def Obligations.TimeCompletes : Prop :=
  (∀ (h : Hdr) (p : List Word) (s : State), devWide h = true → p.length = 3 → pf p 0 29 0 = 0 → hdrUser h = false →
    s.pwr.mode ≠ .slipway → s.rf 0x3F020000 31 31 = 0 → s.mirrorRefuses 0x910 h = false →
    (pf p 0 31 30 = 0 → TakesEffect .timeAdj 0x910 h p s ((s.setTime (s.time.step (par64 p 1))).post 0x018 [d16 0]) codeOk []) ∧
    (pf p 0 31 30 = 1 →
      TakesEffect .timeAdj 0x910 h p s ((s.setTime (s.time.step (s.now + par64 p 1))).post 0x018 [d16 0]) codeOk []) ∧
    (pf p 0 31 30 = 2 → (par64 p 1).toInt.natAbs ≤ 10000000 →
      TakesEffect .timeAdj 0x910 h p s (s.setTime (s.time.beginSlew (par64 p 1).toInt)) codeOk []) ∧
    (pf p 0 31 30 = 3 → (par64 p 1).toInt.natAbs ≤ 65536000 →
      TakesEffect .timeAdj 0x910 h p s (s.setTime { s.time with freq := (par64 p 1).toInt }) codeOk [])) ∧
  (∀ (s : State), s.time.slew = some 0 → exec .slewComplete s = .next (s.setTime { s.time with slew := none })) ∧
  (∀ s : State, s.ppsOn = true →
    (∀ t, s.servo = .holdover → s.edgeLabel = (some t, true) → exec .ppsEdge s = .next (((s.noteTod (some t) true).setTime
      { (s.noteTod (some t) true).time with lastEdge := some s.now, missed := 0, servo := .acquiring, good := 0, bad := 0 }))) ∧
    (∀ x, s.time.lastEdge = some x → s.servo = .locked →
      let gap : Int := (s.now.toNat : Int) - x.toNat
      let u := (s.bump 4 0 6 1).setTime { s.time with discarded := s.time.discarded + 1 }
      (1000010000 < gap → exec .ppsEdge s = .next u.edgeLost) ∧ (gap < 999990000 → exec .ppsEdge s = .next u)) ∧
    (∀ x, s.time.lastEdge = some x → x.toNat + 1000010000 < s.now.toNat → exec .ppsEdgeMissing s = .next s.edgeLost) ∧
    (∀ x msg, s.time.lastEdge = some x → todValid msg = true → 100000000 ≤ s.now.toNat - x.toNat →
      s.now.toNat - x.toNat ≤ 900000000 → exec (.todMessageReceive msg) s = .next (s.setTime { s.time with
        todNext := some (beNat ((msg.drop 4).take 6)), utcOff := BitVec.ofNat 16 (beNat ((msg.drop 10).take 2)) }))) ∧
  (∀ (s : State), s.test.tapHolds = false →
    ((s.time.tset = false ∨ s.pwr.mode = .slipway) → ∀ rise,
      exec (.ppsOutEdge rise) s = .next { s with pins := { s.pins with ppsOut := false } }) ∧
    (s.time.tset = true → s.pwr.mode ≠ .slipway → s.wholeSecond = true → exec (.ppsOutEdge true) s
      = .next { s.setTime { s.time with ppsRose := s.mono } with pins := { s.pins with ppsOut := true } }) ∧
    (s.time.tset = true → s.pwr.mode ≠ .slipway → s.time.ppsRose + s.ppsWidth ≤ s.mono →
      exec (.ppsOutEdge false) s = .next { s with pins := { s.pins with ppsOut := false } })) ∧
  (∀ (h : Hdr) (p : List Word) (s : State), devWide h = true → p.length = 1 → pf p 0 29 0 = 0 → s.pwr.mode ≠ .slipway →
    s.mirrorRefuses 0x911 h = false →
    (pf p 0 31 30 = 0 → TakesEffect .timeRead 0x911 h p s s codeOk
      [s.now.extractLsb' 0 32, s.now.extractLsb' 32 32, BitVec.ofInt 32 s.time.freq, s.timeStat, s.time.utcOff.setWidth 32]) ∧
    (pf p 0 31 30 = 1 → ∃ rs, TakesEffect .timeRead 0x911 h p s (s.setTime { s.time with fifo := s.time.fifo.drop 32 }) codeOk
      (BitVec.ofNat 32 (s.time.fifo.take 32).length :: rs)))

/-- R391 to R397: an OAM session is made, changed and removed, sends by its timer, judges its detection time, takes its frames
from its sink queue, and is read, and the change bitmap is read and cleared. -/
def Obligations.OamCompletes : Prop :=
  (∀ (h : Hdr) (p : List Word) (s : State), s.oamBad h p = false → h.priv ≠ 2 → s.slipOrQuiet = false →
    s.mirrorRefuses 0x900 h = false → s.oamCfg (pf p 0 31 18) = none →
    TakesEffect .oamSessionSet 0x900 h p s (State.oamStart
      { s with cfg := { s.cfg with oam := tset none0 s.cfg.oam (pf p 0 31 18) (some (oamOfWords p)) } }
      (pf p 0 31 18) (oamOfWords p)) codeOk []) ∧
  (∀ (h : Hdr) (p : List Word) (s : State), tdWide h = true → p.length = 1 → pf p 0 17 0 = 0 → h.priv ≠ 2 →
    s.slipOrQuiet = false → s.mirrorRefuses 0x901 h = false →
    (s.oamCfg (pf p 0 31 18) = none → TakesEffect .oamSessionDel 0x901 h p s s codeOk []) ∧
    (∀ c, s.oamCfg (pf p 0 31 18) = some c → c.ccm = true →
      TakesEffect .oamSessionDel 0x901 h p s (s.freeOam (pf p 0 31 18)) codeOk []) ∧
    (∀ c, s.oamCfg (pf p 0 31 18) = some c → c.ccm = false →
      let s1 := s.bfdTo (pf p 0 31 18) 0 7
      TakesEffect .oamSessionDel 0x901 h p s (s1.setOam (pf p 0 31 18) { s1.oamRun (pf p 0 31 18) with leaving := 3 })
        codeOk [])) ∧
  (∀ (k : Fin 16384) (s : State) c, s.oamCfg k = some c → s.oamSends = true →
    let r := s.oamRun k
    (∀ at_, r.nextTx = some at_ → at_ ≤ s.mono → (c.en = true ∨ 0 < r.leaving ∨ c.ccm = false) →
      let s1 := s.oamSend k c false
      let r1 := s1.oamRun k
      let n := s1.nextTx c r1 (r1.nextTx.getD s1.mono)
      (r1.leaving = 1 → exec (.oamTxTimer k) s = .next (s1.freeOam k)) ∧
      (r1.leaving ≠ 1 → exec (.oamTxTimer k) s
        = .next (n.2.setOam k { n.2.oamRun k with nextTx := n.1, leaving := r1.leaving - 1 }))) ∧
    (c.ccm = false → r.rxAt + detectNs c r ≤ s.mono → 2 ≤ r.state →
      exec (.oamDetectExpire k) s = .next ((s.putOam k { r with remote := 0 }).bfdTo k 1 1)) ∧
    (c.ccm = true → r.rxAt + detectNs c r ≤ s.mono →
      exec (.oamDetectExpire k) s = .next ((s.putOam k { r with good := [] }).ccmTo k (putBits (r.lapse s.mono) 4 4 1))) ∧
    (c.ccm = true → s.mono < r.rxAt + detectNs c r → exec (.oamDetectExpire k) s = .next (s.ccmTo k (r.lapse s.mono)))) ∧
  (∀ (s : State) e rest, s.oamOn = true → modeForwards s.pwr.mode = true →
    let q := s.rf 0xBF2A0000 30 13
    (s.qrun q).ents = e :: rest → s.headReady e = true →
    (e.pkt.tail = some true → exec .oamFrameReceive s = .next (s.dropQ q 11 e)) ∧
    (e.pkt.tail = some false →
      let v := s.leaveQ q e
      let n := if v.oam.gotSec = v.time.secNo then v.oam.got else 0
      let u : State := { v with oam := { v.oam with got := n + 1, gotSec := v.time.secNo } }
      (∀ t, n < 8000000 → u.oamTake (oamSession e.pkt) e.pkt.bytes = some t → u.oamSends = true →
        exec .oamFrameReceive s = .next t) ∧
      (n < 8000000 → u.oamTake (oamSession e.pkt) e.pkt.bytes = none →
        exec .oamFrameReceive s = .next (u.oamPunt e.pkt.chan (some e) e.pkt.bytes)) ∧
      (8000000 ≤ n → exec .oamFrameReceive s = .next ((v.bump 4 0 8 1).post 0x07C [])))) ∧
  (∀ (h : Hdr) (p : List Word) (s : State), p.length = 1 → pf p 0 17 0 = 0 → s.mirrorRefuses 0x902 h = false →
    let r := s.oamRun (pf p 0 31 18)
    TakesEffect .oamSessionRead 0x902 h p s s codeOk
      [mkWord [(2, r.state), (5, r.defects.toNat), (5, r.diag.toNat), (20, 0)], r.remote, r.rTx, r.rRx,
       r.lastRx.extractLsb' 0 32, r.lastRx.extractLsb' 32 32, r.sent, r.rcvd]) ∧
  (∀ (h : Hdr) (p : List Word) (s : State),
    let first := pf p 0 31 23
    let n := pf p 0 22 16
    p.length = 1 → pf p 0 15 0 = 0 → 1 ≤ n → n ≤ 64 → first + n ≤ 512 → s.mirrorRefuses 0x903 h = false →
    TakesEffect .oamChanges 0x903 h p s
      { s with oam := { s.oam with changes := s.oam.changes.filter (fun x => x.1 < first || first + n ≤ x.1) } } codeOk
      ((List.range n).map (fun i => tget z s.oam.changes (first + i))))

/-- R398 to R408: coalesced increments reach memory, grants and programmable counters are set, a snapshot is asked for, cut at
its instant and ends with its event, and counters are read and, where CLR is set, cleared. -/
def Obligations.CountersComplete : Prop :=
  (∀ (m : Fin 4) (pc : Fin 64) (row : Nat) (found : LineCheck) (s : State), s.domain (10 + m.val) = 0 → row ≤ 589823 →
    (s.stack m).serves pc = true →
    let u := if s.cutDue.cnt.incs.isEmpty then s.cutDue else s.cutDue.lineRead m pc row 6 found
    exec (.flowCounterWrite m pc row found) s = .next (u.setCnt (u.cnt.flush (fun _ => true)))) ∧
  (∀ (h : Hdr) (p : List Word) (s : State), tdWide h = true → s.slipOrQuiet = false →
    (p.length = 3 → pf p 0 25 24 = 0 → pf p 0 12 0 = 0 → pf p 1 31 24 = 0 → pf p 2 31 25 = 0 → pf p 2 24 0 ≠ 0 →
      pf p 1 23 0 + pf p 2 24 0 ≤ spaceSize (pf p 0 13 13) → hdrUser h = false → s.mirrorRefuses 0x803 h = false →
      let g := ⟨BitVec.ofNat 8 (pf p 0 23 16), BitVec.ofNat 2 (pf p 0 15 14), pf p 0 13 13 == 1, pf p 1 23 0, pf p 2 24 0⟩
      TakesEffect .cntGrant 0x803 h p s
        (s.setCnt { s.cnt with grants := tset none0 s.cnt.grants (pf p 0 31 26) (some g) }) codeOk []) ∧
    (p.length = 4 → pf p 0 16 0 = 0 → pf p 1 10 8 = 0 → (cntOfWords p).event ≤ 14 → (cntOfWords p).byLen = false →
      h.priv ≠ 2 → s.mirrorRefuses 0x800 h = false →
      let s1 := State.cutDue { s with cfg := { s.cfg with cnts := tset restProg s.cfg.cnts (pf p 0 31 20) (cntOfWords p) } }
      TakesEffect .cntProgram 0x800 h p s (if bit (par p 0) 17 then
        s1.setCnt { s1.cnt with prog := tset z s1.cnt.prog (pf p 0 31 20) 0 } else s1) codeOk []) ∧
    (p.length = 5 → pf p 0 29 0 = 0 → 1 ≤ (par p 4).toNat → (par p 4).toNat ≤ (if pf p 0 31 31 = 0 then 4096 else 1048576) →
      (par p 3).toNat + (par p 4).toNat ≤ spaceSize (pf p 0 31 31) →
      s.noGrant h 0 (pf p 0 31 31) (par p 3).toNat (par p 4).toNat = false → tget none0 s.cnt.snaps (pf p 0 31 31) = none →
      s.nearActivation (par64 p 1) = false → s.mirrorRefuses 0x801 h = false →
      let due := if s.reached (par64 p 1) then s.now else par64 p 1
      let x := ⟨bit (par p 0) 30, due, (par p 3).toNat, (par p 4).toNat, false⟩
      TakesEffect .cntSnapshot 0x801 h p s
        (s.setCnt { s.cnt with snaps := tset none0 s.cnt.snaps (pf p 0 31 31) (some x) }) codeDeferred []) ∧
    (p.length = 2 → pf p 0 28 8 = 0 → (bit (par p 0) 30 && bit (par p 0) 29) = false → 1 ≤ pf p 0 7 0 → pf p 0 31 31 = 0 →
      pf p 0 7 0 ≤ 64 → (par p 1).toNat + pf p 0 7 0 ≤ spaceSize 0 → s.noGrant h 0 0 (par p 1).toNat (pf p 0 7 0) = false →
      s.mirrorRefuses 0x802 h = false →
      let u := s.cutDue
      TakesEffect .cntRead 0x802 h p s
        (if bit (par p 0) 29 then u.setCnt { u.cnt with prog := tOutside u.cnt.prog (par p 1).toNat (pf p 0 7 0) } else u) codeOk
        (((List.range (pf p 0 7 0)).map ((par p 1).toNat + ·)).flatMap (fun k =>
          words64 (tget z (if bit (par p 0) 30 then u.cnt.snapProg else u.cnt.prog) k)))) ∧
    (p.length = 1 → pf p 0 27 8 = 0 → pf p 0 7 0 < (scopeSize (pf p 0 31 29)).2 → (bit (par p 0) 28 = false ∨ h.priv ≠ 2) → s.mirrorRefuses 0x804 h = false →
      let n := (scopeSize (pf p 0 31 29)).1
      ∃ rs, TakesEffect .portCntRead 0x804 h p s (if bit (par p 0) 28 then s.setCnt { s.cnt with
        ports := tOutside s.cnt.ports (pf p 0 31 29 * 65536 + pf p 0 7 0 * 32) n } else s) codeOk (mkWord [(24, 0), (8, n)] :: rs))) ∧
  (∀ (space : Fin 2) (s : State) x, tget none0 s.cnt.snaps space = some x →
    (x.cut = false → s.reached x.due = true → space = 0 → ∃ t, exec (.cntSnapshotInstant space) s = .next t ∧
      t.cnt.snapProg = tCopy s.cnt.prog s.cnt.snapProg x.first x.count ∧ OnlyIn [.cnt] s t ∧
      (x.clr = false → t.cnt.prog = s.cnt.prog)) ∧
    (x.cut = false → s.reached x.due = true → space = 1 →
      let c := s.cnt.flush (fun i => i.time.toNat < x.due.toNat)
      ∃ t, exec (.cntSnapshotInstant space) s = .next t ∧ t.cnt.snapFlow = tCopy c.flow c.snapFlow x.first x.count ∧
        OnlyIn [.cnt] s t ∧ (x.clr = false → t.cnt.flow = c.flow)) ∧
    (x.cut = true → exec (.cntSnapshotComplete space) s
      = .next ((s.setCnt { s.cnt with snaps := tset none0 s.cnt.snaps space none }).post 0x1D8 [d16 space, d32 x.first])))

/-- R415 to R417, R422, R424 to R428, R440: a write of a ring's index or enable takes effect where the endpoint answers; a
fetched command that passes every check becomes its ring's running one, and one of a bad length or trailer stops the ring.
R18, R431, R432, R433, R435, R439, R440: NOP and IDENT, an attention wait that is held until the attention state differs or
its time is over, the control complex's power-down, and a punt record's way into its ring or to the counters. -/
def Obligations.HostRingsComplete : Prop :=
  ((∀ (n : Fin 8) (v : Word) (s : State), s.pcieUp = true →
    exec (.ctailWrite n v) s
      = .next ((s.setCfgReg (ctailAddr n) (cfgBits (ctailAddr n) v)).countReg (ctailAddr n) true 0 1) ∧
    exec (.rheadWrite n v) s
      = .next ((s.setCfgReg (rheadAddr n) (cfgBits (rheadAddr n) v)).countReg (rheadAddr n) true 0 1) ∧
    exec (.ringEnable n v) s = .next ((s.rcfgWrite n (putBits v 31 31 1)).countReg (rcfgAddr n) true 0 1) ∧
    exec (.ringDisable n v) s = .next ((s.rcfgWrite n (putBits v 31 31 0)).countReg (rcfgAddr n) true 0 1)) ∧
  (∀ (m : Fin 5) (v : Word) (s : State), s.pcieUp = true →
    exec (.oheadWrite m v) s
      = .next ((s.setCfgReg (oheadAddr m) (cfgBits (oheadAddr m) v)).countReg (oheadAddr m) true 0 1) ∧
    exec (.outRingEnable m v) s = .next ((s.ocfgWrite m (putBits v 31 31 1)).countReg (ocfgAddr m) true 0 1) ∧
    exec (.outRingDisable m v) s = .next ((s.ocfgWrite m (putBits v 31 31 0)).countReg (ocfgAddr m) true 0 1)) ∧
  (∀ (n : Fin 8) (s : State), s.ringOn n = true → ∀ v, bit v 31 = false →
    (s.rcfgWrite n v).ring n = { s.ring n with held := none, running := none
                                               orphans := (s.ring n).orphans ++ ((s.ring n).running.map (·.hdr)).toList }) ∧
  (∀ (n : Fin 8) (bytes : List Byte) (s : State), s.mayFetch n = true →
    let p := packetOf bytes
    ((p.len % 4 ≠ 0 ∨ p.len < 20 ∨ 65532 < p.len ∨ s.cmdBytes n < p.len) →
      exec (.commandFetch n bytes) s = .next (s.ringError n p codeBadParam 1)) ∧
    (p.len % 4 = 0 → 20 ≤ p.len → p.len ≤ 65532 → p.len ≤ s.cmdBytes n →
      let s1 := s.passCommand n p.len
      (trailerBad bytes p.len = true → exec (.commandFetch n bytes) s = .next (s1.ringError n p codeCrcError 2)) ∧
      (trailerBad bytes p.len = false → p.prio = n → (s1.ring n).expect = none →
        let s2 := s1.setRing n { s1.ring n with expect := some (p.w3 + 1) }
        s2.headCheck p (p.priv == 3 || p.priv < s2.topPriv n) s2.romServes = none → exec (.commandFetch n bytes) s
          = .next ((s2.wakeCtrl p.op).setRing n
            { (s2.wakeCtrl p.op).ring n with running := some ⟨p.op, p.hdr (.ring n), p.pars⟩ }))))) ∧
  ((∀ (h : Hdr) (s : State), s.mirrorRefuses 0x000 h = false → TakesEffect .nop 0x000 h [] s s codeOk []) ∧
  (∀ (h : Hdr) (s : State), s.mirrorRefuses 0x003 h = false → TakesEffect .ident 0x003 h [] s s codeOk
    [idcodeWord, Config.uid.extractLsb' 0 32, Config.uid.extractLsb' 32 32, Config.romVersion, s.fwVersion]) ∧
  (∀ (h : Hdr) (p : List Word) (s : State), p.length = 1 → 1 ≤ pf p 0 31 22 → pf p 0 31 22 ≤ 1000 → pf p 0 1 0 = 0 →
    (s.ring (srcRing h)).held = none →
    (s.differs (par p 0) = false → exec (.waitAttn h p) s = .next (s.setRing (srcRing h) { s.ring (srcRing h) with
      running := none, held := some (⟨0x001, h, p⟩, s.mono + pf p 0 31 22 * 1000000) })) ∧
    (s.differs (par p 0) = true → s.mirrorRefuses 0x001 h = false → TakesEffect .waitAttn 0x001 h p s s codeOk [1])) ∧
  (∀ (n : Fin 8) (s : State) c t, (s.ring n).held = some (c, t) →
    (s.differs (par c.par 0) = true → exec (.waitAttnChange n) s = .next (s.endWait n c true)) ∧
    (t ≤ s.mono → exec (.waitAttnTimeout n) s = .next (s.endWait n c (s.differs (par c.par 0))))) ∧
  (∀ s : State, s.pwr.mode = .quiescent → s.host.ctrlAwake = true → s.host.ctrlAt + 10000000 ≤ s.mono →
    (∀ n, n < 8 → (s.ring n).running = none ∧ (s.ring n).doneAt + 10000000 ≤ s.mono) →
    exec .ctrlIdlePowerDown s = .next { s.setDomain 3 2 with host := { s.host with ctrlAwake := false } }) ∧
  (∀ (s : State) r rest, s.host.punts = r :: rest →
    let s1 := { s with host := { s.host with punts := rest } }
    (s1.outOn r.ring = false → exec .puntRecordWrite s = .next (s1.puntNoRoom r 0)) ∧
    (s1.outOn r.ring = true → s1.outRoom r.ring 64 < (s1.puntBytes r).length →
      exec .puntRecordWrite s = .next (s1.puntNoRoom r 1)) ∧
    (s1.outOn r.ring = true → (s1.puntBytes r).length ≤ s1.outRoom r.ring 64 → exec .puntRecordWrite s
      = .next ((s1.putOut r.ring (s1.puntBytes r)).count 0x0E r.reason r.ring (some (64 + r.slice)) none r.bytes.length))))

/-- R442, R443, R450, R457, R459 to R461: an aligned 32-bit write reaches its register where the offset is one, and else has
no effect; a window into a block that is off answers with event 0x1E7; narrow reads take their byte lanes and narrow writes
are rejected, and an unaligned access only logs. R13, R245, R462 to R467, R469, R470: a row that names one register writes
that register; a mailbox operation runs to its status, an injected event is logged and its request cleared, a finished write
port is free and the register commands that wait for it go on, and copies that differ are reported. -/
def Obligations.BarCompletes : Prop :=
  (∀ (off : BitVec 20) (s : State), s.pcieUp = true →
    (∀ v a w, off.toNat % 4 = 0 → s.barAddr off.toNat = some (a, w) → (w && s.blockOff (a / 65536)) = false →
      exec (.registerWrite off v) s = .next (s.barWrite a v w)) ∧
    (∀ v, off.toNat % 4 = 0 → s.barAddr off.toNat = none → exec (.registerWrite off v) s = .next s) ∧
    (∀ v a, off.toNat % 4 = 0 → s.barAddr off.toNat = some (a, true) → s.blockOff (a / 65536) = true →
      exec (.barWindowPoweredOff true off v) s = .next (s.postOnce 0x1E7 0 [d16 (a / 65536)]) ∧
      ∃ t, exec (.barWindowPoweredOff false off v) s = .next t ∧ t.host.barData = [0, 0, 0, 0] ∧ OnlyIn [.ev, .host] s t) ∧
    (∀ half v, off.toNat % (if half then 2 else 1) = 0 →
      exec (.barNarrowAccess true half off v) s
        = .next (s.postOnce 0x1E4 0 [d32 off.toNat, d16 (2 ^ (if half then 2 else 1) - 1)])) ∧
    (∀ v, ∃ t, exec (.barNarrowAccess false false off v) s = .next t ∧
      t.host.barData = lanesOf (s.barDword false (off.toNat / 4 * 4) v).1 (off.toNat % 4) 1) ∧
    (exec (.barUnalignedAccess true off) s = .next (s.postOnce 0x1E5 0 [d32 off.toNat]) ∧
      ∃ t, exec (.barUnalignedAccess false off) s = .next t ∧ t.host.barData = [0, 0, 0, 0] ∧ OnlyIn [.ev, .host] s t) ∧
    (∀ v w, off.toNat % 8 = 0 → exec (.barWideAccess true off [(15, v), (15, w)]) s
      = .next ((s.barDword true off.toNat v).2.barDword true (off.toNat + 4) w).2)) ∧
  ((∀ (v : Word) (s : State), s.pcieUp = true →
    exec (.hostflagWrite v) s = .next (s.barWrite 0x3F010020 v false) ∧
    (s.blockOff 0x7F08 = false → exec (.exactHashcfgWrite v) s = .next (s.barWrite 0x7F080000 v true)) ∧
    (∀ pool : Fin 16, s.blockOff 0xBF22 = false →
      exec (.berthPoolcfgWrite pool v) s = .next (s.barWrite (0xBF220040 + 4 * pool.val) v true)) ∧
    (s.blockOff 0x3F05 = false → exec (.eventInject v) s = .next (s.barWrite 0x3F050020 v true)) ∧
    (∀ m : BitVec 5, s.blockOff 0xBF2C = false →
      exec (.d2dRetrainRequest m) s = .next (s.barWrite 0xBF2C0100 (m.setWidth 32) true)) ∧
    exec (.mailboxRead v) s = .next (s.barWrite 0x3F070404 (putBits (putBits v 31 31 1) 30 30 0) false) ∧
    exec (.mailboxWrite v) s = .next (s.barWrite 0x3F070404 (putBits (putBits v 31 31 1) 30 30 1) false)) ∧
  (∀ (i : Fin 8) (s : State), bit (s.hwReg 0x3F050020) i = true → exec (.eventInjectLog i) s
    = .next ((s.post (0x1F8 + i.val) [d16 (s.rf 0x3F050020 31 16)]).setHw 0x3F050020 (putBits (s.hwReg 0x3F050020) i i 0))) ∧
  (∀ (b : BitVec 16) (s : State), (b ≠ 0xBF2C#16 ∨ s.fd.d2d.training.contains (s.rf 0xBF2C0100 4 0) = false) →
    exec (.postedWriteDone b) s = .next (State.regResume { s with wr := { s.wr with busy := s.wr.busy.filter (· != b.toNat) } })) ∧
  (∀ s : State, s.wr.waits = [] → s.regResume = s) ∧
  (∀ s : State, s.mbxGo = true → s.mbxCode (s.cfgReg 0x3F070400).toNat (s.rf 0x3F070404 3 0 + 1) ≠ codeOk →
    exec .mailboxDone s = .next (State.regResume (s.setHw 0x3F070404 (mkWord [(1, 0), (1, 0), (1, 0), (5, 0),
      (8, (s.mbxCode (s.cfgReg 0x3F070400).toNat (s.rf 0x3F070404 3 0 + 1)).toNat), (16, 0)])))) ∧
  (∀ (a u v w : Word) (s : State) r, regRowAt a.toNat = some r → r.mask .tv = 0 → exec (.tvCheck a u v w) s = .next s) ∧
  (∀ (a u v w : Word) (s : State) r, regRowAt a.toNat = some r → r.mask .tv ≠ 0 → ∃ t, exec (.tvCheck a u v w) s = .next t ∧
    (t.ev.flight = s.ev.flight ∨ t.ev.flight = s.ev.flight ++ [⟨0x1E8, evData [d32 a.toNat], s.time.dev, false⟩])))

/-- R454 to R456, R462, R466: the register commands read, write and write under a mask, and answer what was read, how many
writes were applied, or the value before the write; one that meets a busy block, or whose posted work outlasts it, waits. -/
def Obligations.RegisterCommandsComplete : Prop :=
  ∀ (h : Hdr) (p : List Word) (s : State), devWide h = true → h.priv ≠ 2 → (par p 0).toNat % 4 = 0 →
    let a := (par p 0).toNat
    (p.length = 2 → pf p 1 31 9 = 0 → 1 ≤ pf p 1 8 0 → pf p 1 8 0 ≤ 256 → rangePast a (pf p 1 8 0) = false →
      (addrsFrom a (pf p 1 8 0)).any inMb = false → (s.romServes = false ∨ a < 2 ^ 30) → s.mirrorRefuses 0x100 h = false →
      TakesEffect .regRd 0x100 h p s
        (((addrsFrom a (pf p 1 8 0)).filter isReg).foldl (fun s a => s.countReg a false 1 h.priv.toNat) s) codeOk
        ((addrsFrom a (pf p 1 8 0)).map s.regValue)) ∧
    (pf p 1 31 7 = 0 → 1 ≤ pf p 1 6 0 → pf p 1 6 0 ≤ 64 → p.length = 2 + pf p 1 6 0 → rangePast a (pf p 1 6 0) = false →
      inPcie a = false → (s.romServes = false ∨ a < 2 ^ 30) → s.mirrorRefuses 0x101 h = false →
      let r := s.regWrites h.priv.toNat a 0 (p.drop 2)
      (r.2.2 ≠ codeTimeout → (r.2.2 ≠ 0 ∨ r.1.pwRuns a (pf p 1 6 0) = false) →
        TakesEffect .regWr 0x101 h p s r.1 (batchCode (pf p 1 6 0) r.2.1 r.2.2) [batchWord r.2.1 r.2.2 0]) ∧
      (s.cmdBars a (par p 2) 0xFFFFFFFF#32 = some codeTimeout →
        exec (.regWr h p) s = .next (s.regHold ⟨⟨0x101, h, p⟩, 0, s.mono, 0⟩))) ∧
    (p.length = 3 → hasMk a = false → inPcie a = false → inMb a = false → s.staticBars a (par p 2) (par p 1) = false →
      s.romServes = false → s.mirrorRefuses 0x102 h = false →
      let u := s.cmdWrite h.priv.toNat a (par p 2) (par p 1)
      (s.blockBusy (a / 65536) = false → u.pwRuns a 1 = false →
        TakesEffect .regWrMask 0x102 h p s u codeOk [s.regValue a]) ∧
      (s.blockBusy (a / 65536) = false → u.pwRuns a 1 = true →
        exec (.regWrMask h p) s = .next (u.regHold ⟨⟨0x102, h, p⟩, 1, s.mono, s.regValue a⟩)) ∧
      (s.blockBusy (a / 65536) = true → exec (.regWrMask h p) s = .next (s.regHold ⟨⟨0x102, h, p⟩, 0, s.mono, 0⟩))) ∧
    (p.length = 2 → pf p 1 31 4 = 0 → pf p 1 3 0 ≠ 0 → mbRegs.contains (a, pf p 1 3 0 + 1) = true →
      s.romServes = false → s.mirrorRefuses 0x103 h = false →
      TakesEffect .mbxRd 0x103 h p s (s.countReg a false 1 h.priv.toNat) codeOk (mbWords (pf p 1 3 0 + 1))) ∧
    (pf p 1 31 4 = 0 → pf p 1 3 0 ≠ 0 → p.length = 2 + (pf p 1 3 0 + 1) → inPcie a = false →
      mbRegs.contains (a, pf p 1 3 0 + 1) = true → s.blockBusy (a / 65536) = false → s.romServes = false → s.mirrorRefuses 0x104 h = false →
      TakesEffect .mbxWr 0x104 h p s (s.countReg a true 1 h.priv.toNat) codeOk [])

/-- R485 to R487: a MODE_SET that passes its checks is accepted, naming the current mode answers OK at once, its preparation's
end enters the mode or, of a claim, begins the hold-off's conditions, leaving TEST stops its runs, and DRAIN ends when every
queue is empty or by flushing what is left 1 s after it was entered. -/
def Obligations.ModesComplete : Prop :=
  (∀ (h : Hdr) (p : List Word) (s : State),
    let m := modeOf (pf p 0 31 29)
    p.length = 1 → pf p 0 28 0 = 0 → h.priv ≠ 2 → s.modeWrong m = false → s.modeBusy m = false →
    (m = .quiescent → m ≠ s.pwr.mode → s.quiesceRefused = false) →
    exec (.modeSet h p) s = .next (s.modeAccept h p m) ∧
    (m = s.pwr.mode → exec (.modeSet h p) s = .next (s.finish 0x002 h 1 codeOk []))) ∧
  (∀ (s : State) r c, s.pwr.modeReq = some r → r.cmd = some c →
    (s.isClaim r.target = true →
      exec .modeTransitionComplete s = .next (s.setModeReq (some { r with prepared := true })).noteHoldoff) ∧
    (s.isClaim r.target = false → r.target = .slipway → exec .modeTransitionComplete s
      = .next ((s.enterSlipway 2).finish c.op c.hdr c.par.length codeOk [])) ∧
    (s.isClaim r.target = false → r.target ≠ .slipway →
      let s1 := if s.pwr.mode = .test then s.leaveTest else s
      exec .modeTransitionComplete s
        = .next (((s1.setPwr { s1.pwr with drainSaid := false }).enterMode r.target).endModeReq r codeOk).judgeRole)) ∧
  (∀ s : State, s.pwr.quiescing = true → s.mem.run = none →
    exec .quiescentEntryComplete s = .next (s.powerDown.enterMode .quiescent)) ∧
  (∀ s : State, s.pwr.mode = .drain → s.pwr.drainSaid = false →
    (s.queuesEmpty = true →
      exec .drainEmpty s = .next ((s.setPwr { s.pwr with drainSaid := true }).post 0x005 [d32 0])) ∧
    (s.pwr.drainAt + ms 1000 ≤ s.mono →
      let r := s.flushWhere 10 (fun _ => true)
      exec .drainTimeout s = .next ((r.2.setPwr { r.2.pwr with drainSaid := true }).post 0x005 [d32 r.1])))

/-- R478 to R483, R494: the measurement of a window that has ended is kept, once, and wakes or marks time by it; a drained
half is gated and powered off OFF_MS later, a half idle for 2 µs is gated, a queue slice quiet for 1 ms is powered off, and
the power commands set the policy and answer the state. -/
def Obligations.FerrymanCompletes : Prop :=
  (∀ (uses : List SliceUse) (buckets : List (Nat × Nat)) (s : State),
    let w := s.now.toNat / 100000
    let s1 := (s.setPwr { s.pwr with window := w }).ferryMeasure uses buckets
    let need := s1.ferryNeed (slices.map (tget zn s1.fd.gang.use)).sum
    let n := s1.inService.length + s1.fd.gang.wakes.length
    (w = s.pwr.window → exec (.ferrymanWindow uses buckets) s = .next s) ∧
    (s.domain 5 = 0 → w ≠ s.pwr.window →
      (s1.ferryRuns = false → exec (.ferrymanWindow uses buckets) s = .next s1) ∧
      (s1.ferryRuns = true → n < need → exec (.ferrymanWindow uses buckets) s
        = .next ((s1.setPwr { s1.pwr with lowSince := none }).ferryWake (need - n))) ∧
      (s1.ferryRuns = true → n = need → exec (.ferrymanWindow uses buckets) s
        = .next (s1.setPwr { s1.pwr with lowSince := none })) ∧
      (s1.ferryRuns = true → need < n → s.pwr.lowSince = none → 1 ≤ s.cfg.ferry.downMs →
        exec (.ferrymanWindow uses buckets) s = .next (s1.setPwr { s1.pwr with lowSince := some (s1.mono - 100000) })))) ∧
  (∀ (s : State) l, s.pwr.draining = some l → s.bucketsOf l = [] → s.ingressEmpty l = true →
    let s1 := (s.setSliceSt l 1).setDomain (ingressDomain (s.physOf l)) 1
    exec .ferrymanDrainComplete s = .next ((s1.setPwr { s1.pwr with
      draining := none, gatedAt := tset zn s1.pwr.gatedAt l (s1.mono + 1), lastSlice := l, lastAct := s1.now }).post
      0x020 [d16 l])) ∧
  (∀ (slice : Fin 16) (s : State), s.ferryRuns = true → s.cfg.ferry.off = true → s.sliceSt slice = 1 →
    s.fd.gang.wakes.contains slice.val = false → tget zn s.pwr.gatedAt slice + ms s.cfg.ferry.offMs ≤ s.mono + 1 →
    let s1 := (s.setSliceSt slice 2).setDomain (ingressDomain (s.physOf slice)) 2
    exec (.ferrymanPowerOff slice) s = .next ((s1.setPwr { s1.pwr with
      gatedAt := tdel s1.pwr.gatedAt slice, lastAct := s1.now }).post 0x022 [d16 slice])) ∧
  (∀ (d : Fin 64) (s : State) t, s.cfg.ferry.idle = true → 14 ≤ d.val → s.domain d = 0 → s.inputEmpty d = true →
    s.pwr.idle.contains d.val = false → tfind s.pwr.emptyAt d = some t → t + 2000 ≤ s.mono →
    exec (.idleGate d) s = .next (s.setPwr { s.pwr with idle := s.pwr.idle ++ [d.val] })) ∧
  (∀ (n : Fin 16) (s : State) t, s.cfg.ferry.qoff = true → s.domain (queueDomain n) = 0 →
    s.cfg.td.queues.all (fun q => sliceOfQ q.1 != n.val || !q.2.en) = true → s.inputEmpty (queueDomain n) = true →
    tfind s.pwr.quietAt n = some t → t + ms 1 ≤ s.mono →
    let s1 := s.stir (queueDomain n)
    exec (.queueSlicePowerOff n) s = .next { s1.setDomain (queueDomain n) 2 with
      td := { s1.td with q := s1.td.q.filter (fun q => sliceOfQ q.1 != n.val) } }) ∧
  (∀ (h : Hdr) (p : List Word) (s : State), devWide h = true → p.length = 2 → hdrUser h = false → s.pwr.mode ≠ .slipway →
    s.mirrorRefuses 0xE00 h = false →
    (pf p 0 31 30 = 1 → pf p 0 26 0 = 0 → pf p 0 28 27 ≠ 3 → par p 1 = 0 → TakesEffect .pwrPolicy 0xE00 h p s
      { s with store := { s.store with warm := bit (par p 0) 29, resume := pf p 0 28 27 } } codeOk []) ∧
    (pf p 0 31 30 = 0 → pf p 0 13 0 = 0 → pf p 1 3 0 = 0 → 1 ≤ (ferryCfgOf p).minSlices → (ferryCfgOf p).minSlices ≤ 16 →
      50 ≤ (ferryCfgOf p).high → (ferryCfgOf p).high ≤ 95 → (ferryCfgOf p).downMs ≠ 0 →
      let s1 := { s with cfg := { s.cfg with ferry := ferryCfgOf p } }
      TakesEffect .pwrPolicy 0xE00 h p s
        (if s.cfg.ferry.en = true ∧ (ferryCfgOf p).en = false then s1.ferryStop else s1) codeOk [])) ∧
  (∀ (h : Hdr) (s : State), s.pwr.mode ≠ .slipway → s.mirrorRefuses 0xE01 h = false →
    ∃ rs, rs.length = 8 ∧ rs.take 4 = (List.range 4).map s.domStat ∧ TakesEffect .pwrStatus 0xE01 h [] s s codeOk rs)

/-- R473, R474, R495, R496, R568, R569, R570, R573: with the tollhouse supply in range, a lost reference or PLL stops what
hangs on it with its event, a third failed relock leaves its domains off, a hot junction warns and trips, and rails are judged
by their windows, regulators and ageing. -/
def Obligations.RailsComplete : Prop :=
  (∀ s : State, s.pwr.refLost = false → s.dead = false →
    let s1 := s.setPwr { s.pwr with refLost := true }
    exec .refclkLoss s = .next ((if s.ppsOn = true then
      s1.setTime { s.time with servo := .holdover, good := 0, bad := 0 } else s1).alarmEvent 0x008 [])) ∧
  (∀ s : State, s.pwr.refLost = true →
    exec .refclkRestore s = .next ((s.setPwr { s.pwr with refLost := false }).post 0x009 [])) ∧
  (∀ (pll : Fin 8) (s : State), pll ≠ 2 → (s.pll pll).stopped = false → (s.pll pll).dead = false →
    (pllDomains pll).any (fun d => s.domain d < 2) = true → exec (.pllLockLoss pll) s
      = .next (((s.dropHeld pll).putPll pll { s.pll pll with stopped := true }).alarmEvent 0x00A [d16 pll])) ∧
  (∀ (pll : Fin 8) (s : State), (s.pll pll).stopped = true → (s.pll pll).dead = false →
    exec (.pllRelock pll true) s = .next (s.putPll pll { s.pll pll with stopped := false }) ∧
    (let f := (s.pll pll).fails.filter (fun t => s.mono < t + 1000000000) ++ [s.mono]
     (f.length < 3 → exec (.pllRelock pll false) s = .next (s.putPll pll { s.pll pll with fails := f })) ∧
     (3 ≤ f.length → exec (.pllRelock pll false) s = .next ((pllDomains pll).foldl
       (fun s d => if s.supplied d = 2 then s else s.setDomain d 2) (s.putPll pll { s.pll pll with fails := f, dead := true }))))) ∧
  (∀ (c : Int) (s : State), s.dead = false →
    let s1 := s.setPwr { s.pwr with junction := c.toNat }
    (c ≤ (s1.tripLimit : Int) → c ≤ (s1.warnLimit : Int) → s.pwr.warnHeld = false →
      exec (.thermalSample c) s = .next (s1.setPwr { s1.pwr with coolSince := none })) ∧
    ((s1.warnLimit : Int) < c → s.pwr.warnHeld = true → (s1.tripLimit : Int) < c → s.pwr.tripped = false →
      exec (.thermalSample c) s = .next ((s1.setPwr { s1.pwr with coolSince := none }).thermalTrip c)) ∧
    ((s1.warnLimit : Int) < c → s.pwr.warnHeld = false → s.pwr.tripped = true →
      exec (.thermalSample c) s
        = .next ((s1.setPwr { s1.pwr with coolSince := none, warnHeld := true }).alarmEvent 0x00D [d16i c]))) ∧
  (∀ (m : Fin 4) (c : Int) (s : State),
    let s1 := s.setPwr { s.pwr with hbmTemp := tset zn s.pwr.hbmTemp m c.toNat }
    (tget zn s.pwr.hbmTemp m ≤ 95 → 95 < c.toNat →
      exec (.hbmTemperatureChange m c) s = .next (s1.alarmEvent 0x1C5 [d16 m])) ∧
    (c.toNat ≤ 95 → exec (.hbmTemperatureChange m c) s = .next s1)) ∧
  (∀ (rail : Fin 11) (s : State),
    ((s.rail rail).out = false → s.pins.railsOk = true → s.dead = false → exec (.railOutOfWindow rail) s
      = .next ((s.putRail rail { s.rail rail with out := true }).alarmEvent 0x00B [d16 rail])) ∧
    (s.polls rail = true → (s.rail rail).missed < 2 → exec (.pmbusPoll rail none) s
      = .next (s.putRail rail { s.rail rail with missed := (s.rail rail).missed + 1, polled := some s.mono })) ∧
    (∀ a, s.polls rail = true → exec (.pmbusPoll rail (some a)) s = .next ((s.putRail rail { s.rail rail with
      missed := 0, polled := some s.mono, milliVolt := a.milliVolt, milliAmp := a.milliAmp
      out := (s.rail rail).out && !s.railInside rail a.milliVolt }).railFault rail (statusFault a.status))) ∧
    (∀ st, 2 ≤ rail.val → s.pins.railsOk = true → s.dead = false →
      exec (.pmbAlert rail st) s = .next (s.railFault rail (statusFault st || (s.rail rail).fault)))) ∧
  (∀ (rail : Fin 3) (short : Nat) (s : State), s.ageingDue rail = true →
    let s1 := s.setPwr { s.pwr with agedAt := tset zn s.pwr.agedAt rail (s.mono + 1) }
    (short ≤ 10 ∨ 8 ≤ tget zn s.pwr.avsSteps rail → exec (.ageingMeasure rail short) s = .next s1) ∧
    (10 < short → tget zn s.pwr.avsSteps rail < 8 → (s.rail (avsRow rail)).alarms = false →
      ∃ t, exec (.ageingMeasure rail short) s = .next t ∧ t.pwr.agedAt = s1.pwr.agedAt ∧
        t.pwr.avsSteps = tset zn s.pwr.avsSteps rail (tget zn s.pwr.avsSteps rail + 1)))

/-- R488 to R493, R564 to R568: what each source of reset leaves, when it is not taken, and how a start waits, falls back to
SLIPWAY, stops at the phase it fails in or goes through steps 3 to 9. What a low of 200 ns to 1 µs of RESET_N does is a free
value (log 2). -/
def Obligations.ResetsComplete : Prop :=
  (∀ (b r q : Bool) (s : State), ∃ t, exec (.tollhouseSupplyInRange b r q) s = .next t ∧
    t.pwr = { State.reset.pwr with avsSteps := s.pwr.avsSteps } ∧ t.cfg = Setup.reset ∧ t.time = State.reset.time ∧
    t.ev = State.reset.ev ∧ t.line = State.reset.line ∧ t.td = State.reset.td ∧ t.fd = s.fd.wiped ∧ t.oam = State.reset.oam ∧
    t.pins = { State.reset.pins with pairSide := b, railsOk := r, slipReqN := q, ilkPeer := s.pins.ilkPeer } ∧
    t.pair = { State.reset.pair with sideB := b, peerIlk := s.pins.ilkPeer } ∧
    t.spares.log = s.dropSessions.spares.log ∧ t.store = { s.store with staged := none } ∧ t.pending = s.pending) ∧
  (∀ s : State, ∃ t, exec .tollhouseSupplyLoss s = .next t ∧
    t.pwr = { State.reset.pwr with startDue := none, avsSteps := s.pwr.avsSteps } ∧
    t.pins = { s.unpowered.pins with highZ := true, supplyOut := true } ∧ t.cfg = Setup.reset ∧ t.fd = s.fd.wiped ∧
    t.td = State.reset.td ∧ t.line = State.reset.line ∧ t.store = { s.store with staged := none } ∧ t.pending = s.pending) ∧
  (∀ (n : Nat) (s : State),
    (s.dead = false → 1000 ≤ n → exec (.resetNRelease n) s = .next (s.coreReset 1 .policy)) ∧
    (n < 200 → exec (.resetNRelease n) s = .next s) ∧
    (s.dead = false → 200 ≤ n → n < 1000 → exec (.resetNRelease n) s
      = .next (if bit s.draw.1 0 = true then s.draw.2.coreReset 1 .policy else s.draw.2))) ∧
  (∀ (n : Nat) (s : State),
    (1000 ≤ n → s.pins.railsOk = true → s.dead = false →
      exec (.railsOkFall n) s = .next ((s.setPins { s.pins with railsOk := false }).coreReset 1 .policy)) ∧
    (n < 1000 → exec (.railsOkFall n) s = .next s)) ∧
  (∀ s : State, trising s.host.regs = true → trising s.host.rings = true →
    ∃ t, exec .perstNAssert s = .next t ∧ OnlyIn [.host] s t ∧
      (∀ n < 8, bit (t.rawReg (rcfgAddr n)) 31 = false ∧
        (s.ringOn n = true → (t.ring n).held = none ∧ (t.ring n).running = none)) ∧
      ∀ m < 5, bit (t.rawReg (ocfgAddr m)) 31 = false) ∧
  (∀ s : State, s.pwr.fwRuns = true →
    exec .watchdogRefresh s = .next (s.setPwr { s.pwr with watchdog := s.mono }) ∧
    (s.fw.restarting ≠ 2 → s.pwr.watchdog + ms 100 ≤ s.mono →
      exec .watchdogExpire s = .next ((s.post 0x006 []).coreReset 2 .policy))) ∧
  (∀ s : State, s.pwr.restartAt + 100000 ≤ s.mono →
    (s.pwr.restart = some 1 → exec .restartCold s = .next (s.coreReset 3 .cold)) ∧
    (s.pwr.restart = some 2 → exec .restartWarm s = .next (s.coreReset 3 .warm))) ∧
  (∀ (r : StartReport) (s : State) k, s.pwr.startDue = some k →
    (s.pins.railsOk = false → exec (.start r) s = .next (s.setPwr { s.pwr with railsWait := true })) ∧
    (s.pins.railsOk = true →
      let s1 := ((s.setPwr { s.pwr with railsWait := false, duration := min 65535 r.durationMs }).power [1, 2]).atPhase 1
      let s2 := s1.setPwr { s1.pwr with agedAt := [] }
      let s3 := if s2.pwr.mode = .boot then s2 else s2.enterMode .boot
      let low := r.slipReq = true ∨ s2.pins.slipReqN = false
      (low → k ≠ .slipway → k ≠ .quiescent → exec (.start r) s = .next (s2.enterSlipway 3)) ∧
      ((¬low ∨ k = .slipway ∨ k = .quiescent) → (s3.bootImage r).1 = false →
        exec (.start r) s = .next ((s3.bootImage r).2.enterSlipway 1)) ∧
      ((¬low ∨ k = .slipway ∨ k = .quiescent) → (s3.bootImage r).1 = true → ∃ t, exec (.start r) s = .next t ∧
        t.pwr.startDue = none ∧
        (let s4 := (s3.bootImage r).2.firmwareUp.atPhase 2
         t.ev = (s4.startDies k r).ev ∧ t.cfg = (s4.startDies k r).cfg ∧ t.fd = (s4.startDies k r).fd ∧
          t.td = (s4.startDies k r).td ∧ t.pwr.mode = (s4.startDies k r).pwr.mode ∧
          t.pwr.domains = (s4.startDies k r).pwr.domains ∧ t.pwr.phase = (s4.startDies k r).pwr.phase ∧
          (r.failPhase = some 2 → t.ev = (s4.startFails 2).ev ∧ t.pwr.mode = s4.pwr.mode ∧ t.pwr.phase = 2))))) ∧
  (∀ (r : StartReport) (s : State),
    let s1 := s.setPins { s.pins with railsOk := true }
    (s.pwr.railsWait = false → exec (.railsOkRise r) s = .next s1) ∧
    (s.pwr.railsWait = true → exec (.railsOkRise r) s = .next (s1.runStart r)))

/-- R217, R501, R505 to R518: an image is staged, verified, confirmed, activated at an instant, rolled back or cancelled; the
rollout and the control restart begin when their instants come, and a restart ends on trial by T + 250 ms, falls back from
then or for an invalid image, or is abandoned after 100 ms of waiting. -/
def Obligations.FirmwareCompletes : Prop :=
  (∀ (h : Hdr) (p : List Word) (data : List Byte) (s : State),
    let o := pf p 0 29 29
    let k := s.stageTo o
    let runs (u : State) (code : Byte) : Prop := exec (.fwStage h p data) s = .next (u.finishDone 0x700 h p code [])
    s.stageBad h p = false → hdrUser h = false → s.pwr.mode ≠ .quiescent → s.mirrorRefuses 0x700 h = false →
    (if o = 0 then s.ctlBusy else s.mcBusy) = false →
    (pf p 0 31 30 = 0 → s.session o = none → bit (par p 0) 28 = false →
      runs ((s.emptyImage k 1).putSession o (some ⟨false, 0, pf p 1 31 0, [], 0, s.mono, s.mono, false⟩)) codeOk) ∧
    (∀ x, pf p 0 31 30 = 1 → s.session o = some x →
      let y := { x with bytes := x.bytes ++ data.take (pf p 2 31 0), last := s.mono }
      runs ((s.putSession o (some y)).growImage k y) codeOk) ∧
    (∀ x, pf p 0 31 30 = 2 → s.session o = some x →
      runs ((s.putSession o (some { x with verifying := true })).putImage k { s.image k with state := 2 }) codeDeferred) ∧
    (pf p 0 31 30 = 3 → runs ((s.putSession o none).emptyImage k 0) codeOk)) ∧
  (∀ (img : Fin 4) (fails : List (BitVec 4)) (patches : List PatchRec) (s : State),
    s.fw.verifying.contains img.val = true → s.session (imageObj img) = none →
    let i := (s.image img).judged (s.verifyCause img fails patches) patches
    let s1 := (s.putImage img i).setFw { (s.putImage img i).fw with
      verifying := (s.putImage img i).fw.verifying.filter (· != img.val) }
    (s.verifyCause img fails patches = 0 →
      exec (.fwVerifyComplete img fails patches) s = .next (s1.post 0x1EC [d16 (imageObj img), d16 (img.val % 2)])) ∧
    (s.verifyCause img fails patches ≠ 0 → exec (.fwVerifyComplete img fails patches) s
      = .next (s1.post 0x1ED [d16 (imageObj img), d16 (img.val % 2), d16 (s.verifyCause img fails patches)]))) ∧
  (∀ (img : Fin 4) (fails : List (BitVec 4)) (patches : List PatchRec) (s : State) x, s.session (imageObj img) = some x →
    x.verifying = true → x.slip = false → s.stageTo (imageObj img) = img.val → s.verifyCause img fails patches = 0 →
    imageObj img = 0 → ((s.image img).judged 0 patches).type = 1 →
    let s1 := s.putImage img ((s.image img).judged 0 patches)
    let s2 := ((s1.setFw { s1.fw with verifying := s1.fw.verifying.filter (· != img.val) }).post 0x1EC
      [d16 0, d16 (img.val % 2)]).putSession 0 none
    exec (.fwVerifyComplete img fails patches) s
      = .next (if s.pwr.mode = .slipway then s2.setFw { s2.fw with bootBank := img } else s2)) ∧
  (∀ (obj : Fin 2) (s : State) x, s.openSession obj = some x → x.slip = false → x.last + 1000000000 ≤ s.mono →
    exec (.fwStageTimeout obj) s = .next (((s.putSession obj none).emptyImage (s.stageTo obj) 0).post 0x1EE [d16 obj])) ∧
  (∀ (h : Hdr) (p : List Word) (s : State), devWide h = true → hdrUser h = false →
    (p.length = 1 → pf p 0 27 0 = 0 → s.mirrorRefuses 0x701 h = false →
      (pf p 0 31 30 = 0 → let k := 2 * pf p 0 29 29 + pf p 0 28 28
        TakesEffect .fwVerify 0x701 h p s (s.setFw { s.fw with verifying := s.fw.verifying.filter (· != k) ++ [k] })
          codeDeferred []) ∧
      (pf p 0 31 30 = 1 → TakesEffect .fwVerify 0x701 h p s s codeOk ([0, 1, 2, 3].flatMap (fun k => (s.image k).report)
        ++ [mkWord [(7, s.fw.fwFloor), (7, s.fw.mcFloor), (4, s.fw.revoked.toNat), (14, 0)]])) ∧
      (pf p 0 31 30 = 2 → s.fw.trial = true → s.pwr.mode ≠ .slipway → let b := s.fw.runBank
        let s1 := s.putImage b { s.image b with state := 5 }
        let s2 := s1.putImage (1 - b) { s1.image (1 - b) with state := 3 }
        TakesEffect .fwVerify 0x701 h p s ((s2.setFw { s2.fw with bootBank := b, trial := false }).post 0x1F1 [d16 b])
          codeOk [])) ∧
    (p.length = 3 → pf p 0 30 0 = 0 → par64 p 1 = allOnes → s.noActivation = false →
      (s.mirrorRefuses 0x702 h = false →
        TakesEffect .fwActivateAt 0x702 h p s (s.cancelActivation (pf p 0 31 31)) codeOk []) ∧
      (s.mirrorRefuses 0x703 h = false → s.fw.trial = false →
        TakesEffect .fwRollback 0x703 h p s (s.cancelActivation (pf p 0 31 31)) codeOk [])) ∧
    (p.length = 3 → pf p 0 30 0 = 0 → par64 p 1 ≠ allOnes → s.noActivation = false →
      let o := pf p 0 31 31
      let k := if o = 0 then 1 - s.fw.runBank else 3 - s.fw.mcSlot
      s.now.toNat + 1000000 ≤ (par64 p 1).toNat →
      ((s.image k).state = 3 → (∀ c ∈ s.activateBars o (par64 p 1) false, c.1 = false) → s.mirrorRefuses 0x702 h = false →
        TakesEffect .fwActivateAt 0x702 h p s (s.activateAt o k (par64 p 1)) codeDeferred []) ∧
      ((s.image k).state = 7 → s.fw.trial = false → (∀ c ∈ s.activateBars o (par64 p 1) true, c.1 = false) →
        s.mirrorRefuses 0x703 h = false →
        TakesEffect .fwRollback 0x703 h p s (s.activateAt o k (par64 p 1)) codeDeferred []))) ∧
  (∀ (h : Hdr) (p : List Word) (s : State), p.length = 1 → pf p 0 30 0 = 0 → s.pwr.mode ≠ .slipway →
    s.mirrorRefuses 0x704 h = false → ∃ rs, TakesEffect .patchList 0x704 h p s s codeOk rs) ∧
  (∀ (s : State) a, s.fw.activation = some a →
    (a.obj = 1 → s.reached a.due = true → exec .rolloutStart s
      = .next ((s.setFw { s.fw with activation := none }).setRoll (some ⟨a.due, 0, 0, 0, s.nextSeq, []⟩))) ∧
    (a.obj = 0 → s.fw.restarting = 0 → s.reached a.due = true → s.instantNear a.due = true → exec .controlRestart s
      = .next ((s.setFw { s.fw with activation := none }).post 0x1F3 [d16 1])) ∧
    (a.obj = 0 → s.fw.restarting = 0 → s.reached a.due = true → s.instantNear a.due = false →
      (∀ n, n < 8 → (s.ring n).held = none) →
      exec .controlRestart s = .next (s.setFw { s.fw with restarting := 1, restartAt := s.mono }).restartLoads) ∧
    (s.fw.restarting = 1 → s.quiet = false → s.fw.restartAt + ms 100 ≤ s.mono → exec .controlRestartQuiesceTimeout s
      = .next ((s.setFw { s.fw with restarting := 0, activation := none }).post 0x1F3 [d16 0])) ∧
    (s.restartLoads = s → s.fw.restarting = 2 →
      ((s.image a.target).valid = false ∨ s.fw.restartAt + ms 250 ≤ s.mono → exec .controlRestartFallback s
        = .next ((s.putImage a.target { s.image a.target with state := 4 }).takeRings.post 0x1F2 [d16 0])) ∧
      ((s.image a.target).valid = true → s.mono ≤ s.fw.restartAt + ms 250 →
        let s1 := s.putImage s.fw.runBank { s.image s.fw.runBank with state := 7 }
        let s2 := s1.putImage a.target { s1.image a.target with state := 6 }
        exec .controlRestartComplete s = .next (((s2.setFw { s2.fw with runBank := a.target, trial := true }).takeRings).post 0x1F0
          [d32 (s2.image a.target).version.toNat]))))

/-- R519 to R521: an offer that is armed and passes its checks opens a session, data in order grows it, DONE with every byte
begins the verification and with a gap is answered by an ACK, and ARP and ICMP echo requests to the port's address are
answered. -/
def Obligations.SlipwayCompletes : Prop :=
  (∀ (msg b : List Byte) (fails : List (BitVec 4)) (s : State), slipBody msg = some b → headNum b 0 1 = 1 →
    let s1 := s.slipLink
    let sess : BitVec 16 := BitVec.ofNat 16 (headNum b 2 2)
    let len := headNum b 8 4
    sess ≠ 0 → s1.slipObj = none →
    (s1.slipArmed (headNum (b.drop 16) 0x00A 1) = none → exec (.slipwayOffer msg fails) s = .next (s1.slipAnswer 7 sess 15)) ∧
    (∀ o, s1.slipArmed (headNum (b.drop 16) 0x00A 1) = some o → (b.drop 16).length = 0x200 →
      s1.imageCause o len (b.drop 16) (fails.filter (· == 5)) = 0 →
      let s2 := (s1.emptyImage (s1.stageTo o) 1).putSession o (some ⟨true, sess, len, [], 0, s1.mono, s1.mono, false⟩)
      exec (.slipwayOffer msg fails) s
        = .next (((s2.setFw { s2.fw with rxKib := 0 }).slipSend 2 sess 0 4194304).post 0x1F6 [d16 0, d16 0]))) ∧
  (∀ (msg b : List Byte) (s : State) o x, slipBody msg = some b → s.slipLink.slipObj = some (o, x) →
    headNum b 2 2 = x.sess.toNat → x.verifying = false →
    let s1 := s.slipLink
    (headNum b 0 1 = 3 → (b.drop 16).length = headNum b 8 4 → headNum b 4 4 + headNum b 8 4 ≤ x.length →
      (headNum b 8 4 = 1024 ∨ headNum b 4 4 + headNum b 8 4 = x.length) →
      let y := { x with since := x.since + 1, acked := if x.since = 0 then s.mono else x.acked, last := s.mono }
      (x.bytes.length < headNum b 4 4 → exec (.slipwayData msg) s = .next (s1.slipAck o y)) ∧
      (x.bytes.length = headNum b 4 4 → x.since < 63 →
        let w := { y with bytes := x.bytes ++ b.drop 16 }
        let s2 := (s1.putSession o (some w)).growImage (s1.stageTo o) w
        exec (.slipwayData msg) s = .next (s2.setFw { s2.fw with rxKib := w.bytes.length / 1024 }))) ∧
    (headNum b 0 1 = 5 →
      (x.bytes.length < x.length → exec (.slipwayDone msg) s = .next (s1.slipAck o x)) ∧
      (x.length ≤ x.bytes.length → exec (.slipwayDone msg) s = .next ((s1.putSession o (some { x with verifying := true })).putImage
        (s1.stageTo o) { s1.image (s1.stageTo o) with state := 2 })))) ∧
  (∀ (s : State) o x, s.slipObj = some (o, x) → x.verifying = false → 0 < x.since → x.acked + ms 1 ≤ s.mono →
    exec .slipwayAckTimer s = .next (s.slipAck o x)) ∧
  (∀ (mac : BitVec 48) (a b : Word) (s : State), b.toNat = s.slipLink.portIp →
    (∃ m, m.length = 28 ∧ exec (.slipwayArp mac a b) s
      = .next (s.slipLink.setFw { s.slipLink.fw with answers := s.slipLink.fw.answers ++ [(mac.toNat, m)] })) ∧
    (∀ data, ∃ m, m.drop 12 = data ∧ exec (.slipwayIcmpEcho mac a b data) s
      = .next (s.slipLink.setFw { s.slipLink.fw with answers := s.slipLink.fw.answers ++ [(mac.toNat, m)] }))) ∧
  (∀ (mac : BitVec 48) (a b : Word) (s : State), b.toNat ≠ s.slipLink.portIp →
    exec (.slipwayArp mac a b) s = .next s.slipLink ∧ ∀ data, exec (.slipwayIcmpEcho mac a b data) s = .next s.slipLink)

/-- R527, R532, R534 to R536, R437, R540, R541: the next event in flight enters the log, entries are read and leave,
occurrences are acknowledged and events masked, and a core's machine check is counted, its core replaced, or its loss named. -/
def Obligations.EventsComplete : Prop :=
  (∀ s : State, (nextEvent s.ev.flight = none → exec .eventLogEntry s = .next s) ∧
    (∀ r, nextEvent s.ev.flight = some r → exec .eventLogEntry s
      = .next ((s.setEv { s.ev with flight := s.ev.flight.erase r }).takeEvent r).payOwed)) ∧
  (∀ (h : Hdr) (p : List Word) (s : State), devWide h = true → hdrUser h = false →
    (p.length = 1 → pf p 0 28 25 = 0 → pf p 0 15 8 = 0 → s.mirrorRefuses 0xB00 h = false →
      (pf p 0 31 30 = 0 → bit (par p 0) 29 = true → 1 ≤ pf p 0 7 0 → pf p 0 7 0 ≤ 32 →
        let es := (s.ev.log.filter (!·.read)).take (pf p 0 7 0)
        TakesEffect .evtRead 0xB00 h p s s.payOwed codeOk
          (mkWord [(1, b01 s.ev.ovf), (11, s.unread), (12, min 4095 s.ev.lost.toNat), (8, es.length)] :: es.flatMap LogEntry.words)) ∧
      (pf p 0 31 30 = 0 → bit (par p 0) 29 = false → 1 ≤ pf p 0 7 0 → pf p 0 7 0 ≤ 32 → ∃ rs, TakesEffect .evtRead 0xB00 h p s
        (s.setEv { s.ev with log := readFirst (pf p 0 7 0) s.ev.log, ovf := false }).payOwed codeOk rs) ∧
      (pf p 0 31 30 = 1 → 1 ≤ pf p 0 7 0 → pf p 0 24 16 + pf p 0 7 0 ≤ 512 → TakesEffect .evtRead 0xB00 h p s s codeOk
        (BitVec.ofNat 32 (pf p 0 7 0) :: (List.range (pf p 0 7 0)).map (fun i => tget z s.ev.counts (pf p 0 24 16 + i)))) ∧
      (pf p 0 31 30 = 2 → TakesEffect .evtRead 0xB00 h p s s codeOk
        ((List.range 16).map (fun w => s.ev.unack.extractLsb' (32 * w) 32)))) ∧
    (p.length = 2 → pf p 0 31 30 = 0 → pf p 0 29 25 = 0 → pf p 0 15 10 = 0 → par p 1 = 0 → 1 ≤ pf p 0 9 0 →
      pf p 0 24 16 + pf p 0 9 0 ≤ 512 → s.mirrorRefuses 0xB01 h = false →
      let l := (List.range 512).filter (fun e => pf p 0 24 16 ≤ e && e < pf p 0 24 16 + pf p 0 9 0)
      TakesEffect .evtAck 0xB01 h p s (l.foldl (fun s e => s.ackSource e) s) codeOk
        [BitVec.ofNat 32 ((l.filter (fun e => s.ev.unack.getLsbD e)).length % 1024)]) ∧
    (p.length = 1 → pf p 0 30 25 = 0 → pf p 0 15 10 = 0 → 1 ≤ pf p 0 9 0 → pf p 0 24 16 + pf p 0 9 0 ≤ 512 →
      s.pwr.mode ≠ .slipway → s.mirrorRefuses 0xB02 h = false →
      let on := bit (par p 0) 31
      let l := ((List.range (pf p 0 9 0)).map (pf p 0 24 16 + ·)).filter (fun e => maskable e && s.ev.mask.getLsbD e != on)
      TakesEffect .evtMask 0xB02 h p s (s.setMask (l.foldl (fun m e => putBits m e e (b01 on)) s.ev.mask)) codeOk
        [BitVec.ofNat 32 (l.length % 1024)])) ∧
  (∀ (core : Fin 5) (s : State), s.host.cores.contains core.val = true → s.domain 3 = 0 →
    (s.host.coreFlags.contains core.val = false → exec (.coreMachineCheck core none) s = .next (State.post
      { s with host := { s.host with coreFlags := s.host.coreFlags ++ [core.val] } } 0x010 [d16 s.host.cores.length])) ∧
    (∀ x rest, s.host.coreFlags.contains core.val = true → s.host.coreSpares = x :: rest →
      ∃ t u, exec (.coreMachineCheck core none) s = .next (t.substitute 4 3 (lifeLoc 2 0x3F core 0) core x) ∧
        t = u.post 0x011 [d16 s.host.cores.length, d16 1] ∧ OnlyIn [.host] s u ∧
        u.host.cores = s.host.cores.filter (· != core.val) ++ [x] ∧ u.host.coreSpares = rest) ∧
    (s.host.coreFlags.contains core.val = true → s.host.coreSpares = [] → s.host.cores.length = 1 →
      exec (.coreMachineCheck core none) s = .next (s.post 0x011 [d16 1, d16 0])))

/-- R17, R545 to R559: a PRBS run is configured with a free state of its generator (log 119), locks on symbols that hold its
pattern, loses its lock past 1,024 errors and is read, a link loopback ends after DURATION, a built-in test runs and ends with
its result, and each TAP instruction selects its register with what it captures, the boundary cells driving what
SAMPLE/PRELOAD left in them. -/
def Obligations.TestsComplete : Prop :=
  (∀ (h : Hdr) (p : List Word) (s : State), prbsBad h p = false → hdrUser h = false → s.pwr.mode = .test →
    s.slipOrQuiet = false → (pf p 0 31 29 ≠ 3) → s.mirrorRefuses 0xA00 h = false →
    exec (.prbsCfg h p) s = .next (State.loopStarts (((prbsRange (par p 0)).foldl (fun s u =>
      s.putPrbs (pf p 0 31 29) u ((s.prbs (pf p 0 31 29) u).configure (par p 0) (par p 1) (seedOf s.draw.1))) s.draw.2).finishDone
        0xA00 h p codeOk []))) ∧
  (∀ s : State, s.host.loopback = true → s.host.loopAt + ms (bits (s.prbs 4 0).ins 15 0) ≤ s.mono →
    exec .pcieLoopbackEnd s = .next { s.stopRuns 4 (fun _ => true) with host := { s.host with loopback := false } }) ∧
  (∀ (h : Hdr) (p : List Word) (found : List (Nat × Nat)) (s : State), p.length = 1 → pf p 0 31 29 < 6 → pf p 0 19 12 ≤ 31 → pf p 0 10 0 = 0 →
    pf p 0 28 20 + pf p 0 19 12 + 1 ≤ prbsUnits (pf p 0 31 29) → s.slipOrQuiet = false → s.mirrorRefuses 0xA01 h = false →
    let us := (List.range (pf p 0 19 12 + 1)).map (pf p 0 28 20 + ·)
    let s1 := s.noteFound (pf p 0 31 29) us found
    TakesEffect (fun h p => .prbsRead h p found) 0xA01 h p s
      (if bit (par p 0) 11 = true then us.foldl (fun s u => s.putPrbs (pf p 0 31 29) u
        { s.prbs (pf p 0 31 29) u with nbits := 0, errors := 0, lockLoss := 0 }) s1 else s1) codeOk
      (us.flatMap (fun u => if s1.unitHidden (pf p 0 31 29) u then [0, 0, 0, 0] else (s1.prbs (pf p 0 31 29) u).words))) ∧
  (∀ (type : Fin 6) (unit : Fin 192) (s : State), unit.val < prbsUnits type → (s.prbs type unit).runs = true →
    (∀ rx, (s.prbs type unit).chk = true → (s.prbs type unit).lock = false → (s.prbs type unit).loop = 0 →
      (s.prbs type unit).locks (symbolBits type rx) = true → exec (.prbsCheckerLock type unit rx) s
        = .next (s.putPrbs type unit { s.prbs type unit with lock := true })) ∧
    (∀ n e, (s.prbs type unit).lock = true → 1024 < e → e ≤ n → let x := (s.prbs type unit).count (4 * n) e
      exec (.prbsCheckerLockLoss type unit n e) s
        = .next (s.putPrbs type unit { x with lock := false, lockLoss := min 65535 (x.lockLoss + 1) }))) ∧
  (∀ (h : Hdr) (p : List Word) (s : State), p.length = 1 → pf p 0 24 0 = 0 → pf p 0 30 27 ≤ 8 → hdrUser h = false →
    s.mirrorRefuses 0xA02 h = false →
    (bit (par p 0) 31 = true → TakesEffect .bistRun 0xA02 h p s s codeOk s.bistReport) ∧
    (bit (par p 0) 31 = false → pf p 0 30 27 ≠ 6 → bistTarget h (pf p 0 30 27) (bit (par p 0) 25) = true →
      s.bistMode (pf p 0 30 27) = true → s.bistRun (pf p 0 30 27) = none →
      let run := tset none0 s.test.running (pf p 0 30 27) (some (par p 0, h.slice.toNat))
      TakesEffect .bistRun 0xA02 h p s { s with test := { s.test with running := run } } codeDeferred [])) ∧
  (∀ (kind : Fin 9) (failing : List Nat) (t : Nat) (s : State) w slice, s.bistRun kind = some (w, slice) →
    (failing = [] → bit w 26 = false →
      exec (.bistComplete kind failing t) s = .next ((s.bistWipe kind slice).bistEnd kind 0 0 t)) ∧
    (failing ≠ [] → bit w 26 = false →
      exec (.bistComplete kind failing t) s = .next ((s.bistWipe kind slice).bistEnd kind 2 failing.length t))) ∧
  (∀ (x d : Cells) (s : State), s.dead = false →
    exec .tapReset s = .next (s.tapLoad 1 .idcode (.idcode 0x1B2564E3)) ∧
    exec .idcode s = .next (s.tapLoad 1 .idcode (.idcode 0x1B2564E3)) ∧
    (let t := s.tapLoad 2 .boundary (.boundary (s.capture x))
     exec (.samplePreload x d) s = .next { t with test := { t.test with latch := d } }) ∧
    exec (.extest x) s = .next (s.tapTakes 0 .boundary (.boundary (s.capture x))) ∧
    exec (.extestPulse x) s = .next (s.tapTakes 3 .boundary (.boundary (s.capture x))) ∧
    exec (.extestTrain x) s = .next (s.tapTakes 4 .boundary (.boundary (s.capture x))) ∧
    exec .clamp s = .next (s.tapTakes 5 .bypass .bypass) ∧ exec .highz s = .next (s.tapTakes 6 .bypass .bypass) ∧
    ((s.tapTakes 0 .boundary (.boundary (s.capture x))).pins.ilkOwn = s.test.latch.ilkOwn ∧
      (s.tapTakes 0 .boundary (.boundary (s.capture x))).test.driven = some s.test.latch) ∧
    ∀ c : BitVec 8, 7 ≤ c.toNat → exec (.bypass c) s = .next (s.tapLoad c .bypass .bypass))
end

