-- ==== Sys2Proof/Laws/Bits.lean ====
section
/-! SUPPORT. What the bit-field helpers and the sparse tables do. -/

namespace Sys2Proof.Machine

/-! ## Bit fields -/

/-- A bit of a field is the word's bit. -/
theorem testBit_bits {n : Nat} (w : BitVec n) (hi lo i : Nat) :
    (bits w hi lo).testBit i = (decide (i < hi + 1 - lo) && w.getLsbD (lo + i)) := by
  simp [bits, Nat.testBit_mod_two_pow, Nat.testBit_shiftRight, BitVec.testBit_toNat]

/-- Bits written and bits kept. -/
theorem getLsbD_putBits {n : Nat} (w : BitVec n) (hi lo v i : Nat) :
    (putBits w hi lo v).getLsbD i
      = if lo ≤ i ∧ i < hi + 1 then decide (i < n) && v.testBit (i - lo) else w.getLsbD i := by
  have m : ∀ k, ((2 ^ (hi + 1 - lo) - 1) <<< lo).testBit k = (decide (lo ≤ k) && decide (k < hi + 1)) := by
    intro k
    rw [Nat.testBit_shiftLeft, Nat.testBit_two_pow_sub_one]
    by_cases h : lo ≤ k <;> simp [h] <;> omega
  simp only [putBits, BitVec.getLsbD_or, BitVec.getLsbD_and, BitVec.getLsbD_not, BitVec.getLsbD_ofNat, m,
    Nat.testBit_shiftLeft]
  by_cases hn : i < n <;> by_cases h1 : lo ≤ i <;> by_cases h2 : i < hi + 1 <;> simp [hn, h1, h2] <;>
    exact BitVec.getLsbD_of_ge w i (by omega)

/-- A field that has been written reads as written. -/
theorem bits_putBits {n : Nat} (w : BitVec n) (hi lo v : Nat) (h : hi < n) (hv : v < 2 ^ (hi + 1 - lo)) :
    bits (putBits w hi lo v) hi lo = v := by
  apply Nat.eq_of_testBit_eq
  intro i
  rw [testBit_bits, getLsbD_putBits]
  by_cases c : i < hi + 1 - lo
  · have : lo ≤ lo + i ∧ lo + i < hi + 1 := by omega
    have : lo + i < n := by omega
    simp [*]
  · have : v.testBit i = false := Nat.testBit_lt_two_pow (lt_of_lt_of_le hv (Nat.pow_le_pow_right (by omega) (by omega)))
    simp [c, this]

/-- A field apart from the one that has been written keeps its value. -/
theorem bits_putBits_ne {n : Nat} (w : BitVec n) (hi lo v hi' lo' : Nat) (h : hi' < lo ∨ hi < lo') :
    bits (putBits w hi lo v) hi' lo' = bits w hi' lo' := by
  apply Nat.eq_of_testBit_eq
  intro i
  rw [testBit_bits, testBit_bits, getLsbD_putBits]
  by_cases c : i < hi' + 1 - lo'
  · have : ¬ (lo ≤ lo' + i ∧ lo' + i < hi + 1) := by omega
    rw [if_neg this]
  · simp [c]

/-! ## Sparse tables -/

theorem tget_tins_self {α : Type} (d : Nat → α) (t : Tab α) (k : Nat) (a : α) : tget d (tins t k a) k = a := by
  induction t with
  | nil => simp [tins, tget]
  | cons p t ih => unfold tins; split <;> (try split) <;> simp_all [tget]

theorem tget_tins_ne {α : Type} (d : Nat → α) (t : Tab α) (k j : Nat) (a : α) (h : j ≠ k) :
    tget d (tins t k a) j = tget d t j := by
  induction t with
  | nil => simp [tins, tget, h]
  | cons p t ih => unfold tins; split <;> (try split) <;> simp_all [tget]

theorem tget_tdel_ne {α : Type} (d : Nat → α) (t : Tab α) (k j : Nat) (h : j ≠ k) : tget d (tdel t k) j = tget d t j := by
  induction t with
  | nil => simp [tdel]
  | cons p t ih => unfold tdel; split <;> simp_all [tget]

/-- Another key keeps its value. -/
theorem tget_tset_ne {α : Type} [DecidableEq α] (d : Nat → α) (t : Tab α) (k j : Nat) (a : α) (h : j ≠ k) :
    tget d (tset d t k a) j = tget d t j := by
  unfold tset; split
  · exact tget_tdel_ne d t k j h
  · exact tget_tins_ne d t k j a h

/-- A value that is not the value at rest reads as written. -/
theorem tget_tset_self {α : Type} [DecidableEq α] (d : Nat → α) (t : Tab α) (k : Nat) (a : α) (h : a ≠ d k) :
    tget d (tset d t k a) k = a := by
  simp [tset, h, tget_tins_self]

theorem tget_above {α : Type} (d : Nat → α) (t : Tab α) (b k : Nat) (h : tkeysAbove b t) (hk : k ≤ b) : tget d t k = d k := by
  induction t generalizing b with
  | nil => rfl
  | cons p t ih =>
    simp only [tkeysAbove, Bool.and_eq_true, decide_eq_true_eq] at h
    simp only [tget]
    rw [if_neg (by omega)]
    exact ih p.1 h.2 (by omega)

theorem tget_tdel_self {α : Type} (d : Nat → α) (t : Tab α) (k : Nat) (h : trising t) : tget d (tdel t k) k = d k := by
  match t, h with
  | [], _ => rfl
  | (j, a) :: t, h =>
    simp only [trising] at h
    unfold tdel; split
    · next e => subst e; exact tget_above d t k k h le_rfl
    · next e =>
      simp only [tget, if_neg e]
      have r : trising t := by
        match t, h with
        | [], _ => rfl
        | q :: t, h => simp only [tkeysAbove, Bool.and_eq_true] at h; exact h.2
      exact tget_tdel_self d t k r

/-- In a table whose keys rise, what is written is what is read. -/
theorem tget_tset {α : Type} [DecidableEq α] (d : Nat → α) (t : Tab α) (k j : Nat) (a : α) (h : trising t) :
    tget d (tset d t k a) j = if j = k then a else tget d t j := by
  split
  · next e =>
    subst e; unfold tset; split
    · next e => rw [tget_tdel_self d t j h, e]
    · exact tget_tins_self d t j a
  · next e => exact tget_tset_ne d t k j a e

theorem tkeysAbove_tins {α : Type} (t : Tab α) (b k : Nat) (a : α) (h : b < k) : tkeysAbove b (tins t k a) = tkeysAbove b t := by
  induction t generalizing b with
  | nil => simp [tins, tkeysAbove, h]
  | cons p t ih =>
    unfold tins
    split
    · next c => simp [tkeysAbove, h, c]; intro; omega
    · split
      · next c e => subst e; simp [tkeysAbove]
      · next c e => simp only [tkeysAbove]; rw [ih p.1 (by omega)]

/-- A listed key keeps or leaves the order of the keys as it is. -/
theorem trising_tins {α : Type} (t : Tab α) (k : Nat) (a : α) : trising (tins t k a) = trising t := by
  cases t with
  | nil => rfl
  | cons p t =>
    unfold tins
    split
    · next c => simp [trising, tkeysAbove, c]
    · split
      · next c e => subst e; rfl
      · next c e => exact tkeysAbove_tins t p.1 k a (by omega)

end Sys2Proof.Machine
end

