-- ==== Sys2Proof/Laws/Exec.lean ====
section
/-! SUPPORT. The effect of each command is its meaning: one equation for each constructor, so that no proof opens the
dispatch. -/

namespace Sys2Proof.Machine

variable (s : State)

@[simp] theorem exec_tollhouseSupplyInRange (sideB railsOk slipReqN) : exec (.tollhouseSupplyInRange sideB railsOk slipReqN) s = execTollhouseSupplyInRange sideB railsOk slipReqN s := rfl
@[simp] theorem exec_resetNRelease (lowNs) : exec (.resetNRelease lowNs) s = execResetNRelease lowNs s := rfl
@[simp] theorem exec_railsOkFall (lowNs) : exec (.railsOkFall lowNs) s = execRailsOkFall lowNs s := rfl
@[simp] theorem exec_railsOkRise (r) : exec (.railsOkRise r) s = execRailsOkRise r s := rfl
@[simp] theorem exec_perstNAssert : exec .perstNAssert s = execPerstNAssert s := rfl
@[simp] theorem exec_watchdogExpire : exec .watchdogExpire s = execWatchdogExpire s := rfl
@[simp] theorem exec_watchdogRefresh : exec .watchdogRefresh s = execWatchdogRefresh s := rfl
@[simp] theorem exec_restartCold : exec .restartCold s = execRestartCold s := rfl
@[simp] theorem exec_restartWarm : exec .restartWarm s = execRestartWarm s := rfl
@[simp] theorem exec_start (r) : exec (.start r) s = execStart r s := rfl
@[simp] theorem exec_refclkLoss : exec .refclkLoss s = execRefclkLoss s := rfl
@[simp] theorem exec_refclkRestore : exec .refclkRestore s = execRefclkRestore s := rfl
@[simp] theorem exec_pllLockLoss (pll) : exec (.pllLockLoss pll) s = execPllLockLoss pll s := rfl
@[simp] theorem exec_pllRelock (pll ok) : exec (.pllRelock pll ok) s = execPllRelock pll ok s := rfl
@[simp] theorem exec_thermalSample (reading) : exec (.thermalSample reading) s = execThermalSample reading s := rfl
@[simp] theorem exec_railOutOfWindow (rail) : exec (.railOutOfWindow rail) s = execRailOutOfWindow rail s := rfl
@[simp] theorem exec_pmbusPoll (rail answer) : exec (.pmbusPoll rail answer) s = execPmbusPoll rail answer s := rfl
@[simp] theorem exec_pmbAlert (rail status) : exec (.pmbAlert rail status) s = execPmbAlert rail status s := rfl
@[simp] theorem exec_ageingMeasure (rail short) : exec (.ageingMeasure rail short) s = execAgeingMeasure rail short s := rfl
@[simp] theorem exec_ilkPeerChange (level) : exec (.ilkPeerChange level) s = execIlkPeerChange level s := rfl
@[simp] theorem exec_ilkReadbackFault (osel) : exec (.ilkReadbackFault osel) s = execIlkReadbackFault osel s := rfl
@[simp] theorem exec_interlockHoldoffExpire : exec .interlockHoldoffExpire s = execInterlockHoldoffExpire s := rfl
@[simp] theorem exec_yieldBlockExpire : exec .yieldBlockExpire s = execYieldBlockExpire s := rfl
@[simp] theorem exec_refereeHealthSend : exec .refereeHealthSend s = execRefereeHealthSend s := rfl
@[simp] theorem exec_refereeVerdictReceive (frame) : exec (.refereeVerdictReceive frame) s = execRefereeVerdictReceive frame s := rfl
@[simp] theorem exec_refereeTimeout : exec .refereeTimeout s = execRefereeTimeout s := rfl
@[simp] theorem exec_tetherLaneService (lane enter) : exec (.tetherLaneService lane enter) s = execTetherLaneService lane enter s := rfl
@[simp] theorem exec_tetherStatus (f) : exec (.tetherStatus f) s = execTetherStatus f s := rfl
@[simp] theorem exec_tetherBucketSweep (f) : exec (.tetherBucketSweep f) s = execTetherBucketSweep f s := rfl
@[simp] theorem exec_tetherOamState (f) : exec (.tetherOamState f) s = execTetherOamState f s := rfl
@[simp] theorem exec_tetherMirroredCommand (f) : exec (.tetherMirroredCommand f) s = execTetherMirroredCommand f s := rfl
@[simp] theorem exec_tetherMirroredReply (f) : exec (.tetherMirroredReply f) s = execTetherMirroredReply f s := rfl
@[simp] theorem exec_tetherAlignment (f) : exec (.tetherAlignment f) s = execTetherAlignment f s := rfl
@[simp] theorem exec_tetherManifestCheck (f) : exec (.tetherManifestCheck f) s = execTetherManifestCheck f s := rfl
@[simp] theorem exec_tetherAck (f) : exec (.tetherAck f) s = execTetherAck f s := rfl
@[simp] theorem exec_tetherSpanHandshake (f) : exec (.tetherSpanHandshake f) s = execTetherSpanHandshake f s := rfl
@[simp] theorem exec_standbySpanApply (g) : exec (.standbySpanApply g) s = execStandbySpanApply g s := rfl
@[simp] theorem exec_tetherGapTimeout : exec .tetherGapTimeout s = execTetherGapTimeout s := rfl
@[simp] theorem exec_tetherStatusSend : exec .tetherStatusSend s = execTetherStatusSend s := rfl
@[simp] theorem exec_tetherSweepSend : exec .tetherSweepSend s = execTetherSweepSend s := rfl
@[simp] theorem exec_tetherDownTimeout : exec .tetherDownTimeout s = execTetherDownTimeout s := rfl
@[simp] theorem exec_tetherUp : exec .tetherUp s = execTetherUp s := rfl
@[simp] theorem exec_mirrorReplyTimeout : exec .mirrorReplyTimeout s = execMirrorReplyTimeout s := rfl
@[simp] theorem exec_alignMarker (chan t pos) : exec (.alignMarker chan t pos) s = execAlignMarker chan t pos s := rfl
@[simp] theorem exec_alignRetryTimer (chan) : exec (.alignRetryTimer chan) s = execAlignRetryTimer chan s := rfl
@[simp] theorem exec_manifestSampleExpire : exec .manifestSampleExpire s = execManifestSampleExpire s := rfl
@[simp] theorem exec_standbySelftestRound (item pass) : exec (.standbySelftestRound item pass) s = execStandbySelftestRound item pass s := rfl
@[simp] theorem exec_codewordReceive (tether lane ok corrected message) : exec (.codewordReceive tether lane ok corrected message) s = execCodewordReceive tether lane ok corrected message s := rfl
@[simp] theorem exec_spanBlockReceive (lane pos oh) : exec (.spanBlockReceive lane pos oh) s = execSpanBlockReceive lane pos oh s := rfl
@[simp] theorem exec_spanFramePeriodEnd (lane seen) : exec (.spanFramePeriodEnd lane seen) s = execSpanFramePeriodEnd lane seen s := rfl
@[simp] theorem exec_spanInstanceFrameReceive (port inst frame) : exec (.spanInstanceFrameReceive port inst frame) s = execSpanInstanceFrameReceive port inst frame s := rfl
@[simp] theorem exec_spanFrameTransmit (port fill) : exec (.spanFrameTransmit port fill) s = execSpanFrameTransmit port fill s := rfl
@[simp] theorem exec_dlocwExitTimer (lane) : exec (.dlocwExitTimer lane) s = execDlocwExitTimer lane s := rfl
@[simp] theorem exec_dlocwLockTimeout (lane) : exec (.dlocwLockTimeout lane) s = execDlocwLockTimeout lane s := rfl
@[simp] theorem exec_holdoverExit (port) : exec (.holdoverExit port) s = execHoldoverExit port s := rfl
@[simp] theorem exec_justHoldoverRelease (port) : exec (.justHoldoverRelease port) s = execJustHoldoverRelease port s := rfl
@[simp] theorem exec_degSecondEnd (port) : exec (.degSecondEnd port) s = execDegSecondEnd port s := rfl
@[simp] theorem exec_portStandardDefect (port defect enter) : exec (.portStandardDefect port defect enter) s = execPortStandardDefect port defect enter s := rfl
@[simp] theorem exec_flexeCalendarSwitch (port) : exec (.flexeCalendarSwitch port) s = execFlexeCalendarSwitch port s := rfl
@[simp] theorem exec_otnEntryCommit (port) : exec (.otnEntryCommit port) s = execOtnEntryCommit port s := rfl
@[simp] theorem exec_frameReceive (chan units frame) : exec (.frameReceive chan units frame) s = execFrameReceive chan units frame s := rfl
@[simp] theorem exec_spanWordReceive (g) : exec (.spanWordReceive g) s = execSpanWordReceive g s := rfl
@[simp] theorem exec_spanBlockRead (g) : exec (.spanBlockRead g) s = execSpanBlockRead g s := rfl
@[simp] theorem exec_dglosEntryTimer (g) : exec (.dglosEntryTimer g) s = execDglosEntryTimer g s := rfl
@[simp] theorem exec_dglosExitTimer (g) : exec (.dglosExitTimer g) s = execDglosExitTimer g s := rfl
@[simp] theorem exec_dgpartExitTimer (g) : exec (.dgpartExitTimer g) s = execDgpartExitTimer g s := rfl
@[simp] theorem exec_spanSwitchMultiframe (g) : exec (.spanSwitchMultiframe g) s = execSpanSwitchMultiframe g s := rfl
@[simp] theorem exec_spanResizeApplyRx (g) : exec (.spanResizeApplyRx g) s = execSpanResizeApplyRx g s := rfl
@[simp] theorem exec_spanResizeDone (g) : exec (.spanResizeDone g) s = execSpanResizeDone g s := rfl
@[simp] theorem exec_spanResizeTimeout (g) : exec (.spanResizeTimeout g) s = execSpanResizeTimeout g s := rfl
@[simp] theorem exec_linePortCfg (h p) : exec (.linePortCfg h p) s = execLinePortCfg h p s := rfl
@[simp] theorem exec_lineStatus (h p) : exec (.lineStatus h p) s = execLineStatus h p s := rfl
@[simp] theorem exec_spanGroupCfg (h p) : exec (.spanGroupCfg h p) s = execSpanGroupCfg h p s := rfl
@[simp] theorem exec_spanResize (h p) : exec (.spanResize h p) s = execSpanResize h p s := rfl
@[simp] theorem exec_ingressDispatch (slice flt) : exec (.ingressDispatch slice flt) s = execIngressDispatch slice flt s := rfl
@[simp] theorem exec_fragEntryExpire (n) : exec (.fragEntryExpire n) s = execFragEntryExpire n s := rfl
@[simp] theorem exec_puntBucketRefill : exec .puntBucketRefill s = execPuntBucketRefill s := rfl
@[simp] theorem exec_gangwayMove (h p) : exec (.gangwayMove h p) s = execGangwayMove h p s := rfl
@[simp] theorem exec_gangwayMoveDrained (b) : exec (.gangwayMoveDrained b) s = execGangwayMoveDrained b s := rfl
@[simp] theorem exec_gangwayMoveAbandon (b) : exec (.gangwayMoveAbandon b) s = execGangwayMoveAbandon b s := rfl
@[simp] theorem exec_domainWakeComplete (dom) : exec (.domainWakeComplete dom) s = execDomainWakeComplete dom s := rfl
@[simp] theorem exec_clsBegin (h p) : exec (.clsBegin h p) s = execClsBegin h p s := rfl
@[simp] theorem exec_clsStage (h p) : exec (.clsStage h p) s = execClsStage h p s := rfl
@[simp] theorem exec_clsCommit (h p) : exec (.clsCommit h p) s = execClsCommit h p s := rfl
@[simp] theorem exec_clsAbort (h p) : exec (.clsAbort h p) s = execClsAbort h p s := rfl
@[simp] theorem exec_clsSwitch : exec .clsSwitch s = execClsSwitch s := rfl
@[simp] theorem exec_add (x) : exec (.add x) s = execAdd x s := rfl
@[simp] theorem exec_sub (x) : exec (.sub x) s = execSub x s := rfl
@[simp] theorem exec_and (x) : exec (.and x) s = execAnd x s := rfl
@[simp] theorem exec_or (x) : exec (.or x) s = execOr x s := rfl
@[simp] theorem exec_xor (x) : exec (.xor x) s = execXor x s := rfl
@[simp] theorem exec_shl (x) : exec (.shl x) s = execShl x s := rfl
@[simp] theorem exec_shr (x) : exec (.shr x) s = execShr x s := rfl
@[simp] theorem exec_movi (x) : exec (.movi x) s = execMovi x s := rfl
@[simp] theorem exec_movh (x) : exec (.movh x) s = execMovh x s := rfl
@[simp] theorem exec_ext (x) : exec (.ext x) s = execExt x s := rfl
@[simp] theorem exec_ins (x) : exec (.ins x) s = execIns x s := rfl
@[simp] theorem exec_beq (x) : exec (.beq x) s = execBeq x s := rfl
@[simp] theorem exec_bne (x) : exec (.bne x) s = execBne x s := rfl
@[simp] theorem exec_blt (x) : exec (.blt x) s = execBlt x s := rfl
@[simp] theorem exec_bge (x) : exec (.bge x) s = execBge x s := rfl
@[simp] theorem exec_jmp (x) : exec (.jmp x) s = execJmp x s := rfl
@[simp] theorem exec_ldf (x) : exec (.ldf x) s = execLdf x s := rfl
@[simp] theorem exec_stf (x) : exec (.stf x) s = execStf x s := rfl
@[simp] theorem exec_ldh (x) : exec (.ldh x) s = execLdh x s := rfl
@[simp] theorem exec_hash (x) : exec (.hash x) s = execHash x s := rfl
@[simp] theorem exec_lke (x) : exec (.lke x) s = execLke x s := rfl
@[simp] theorem exec_lkl (x) : exec (.lkl x) s = execLkl x s := rfl
@[simp] theorem exec_lka (x) : exec (.lka x) s = execLka x s := rfl
@[simp] theorem exec_mtr (x) : exec (.mtr x) s = execMtr x s := rfl
@[simp] theorem exec_cnt (x) : exec (.cnt x) s = execCnt x s := rfl
@[simp] theorem exec_edit (x) : exec (.edit x) s = execEdit x s := rfl
@[simp] theorem exec_punt (x) : exec (.punt x) s = execPunt x s := rfl
@[simp] theorem exec_fwd (x) : exec (.fwd x) s = execFwd x s := rfl
@[simp] theorem exec_drop (x) : exec (.drop x) s = execDrop x s := rfl
@[simp] theorem exec_actionLookupComplete (t) : exec (.actionLookupComplete t) s = execActionLookupComplete t s := rfl
@[simp] theorem exec_engineCheckFail (slice egress threads) : exec (.engineCheckFail slice egress threads) s = execEngineCheckFail slice egress threads s := rfl
@[simp] theorem exec_csScrubRead (slice addr word) : exec (.csScrubRead slice addr word) s = execCsScrubRead slice addr word s := rfl
@[simp] theorem exec_actLoad (h p) : exec (.actLoad h p) s = execActLoad h p s := rfl
@[simp] theorem exec_actRead (h p) : exec (.actRead h p) s = execActRead h p s := rfl
@[simp] theorem exec_rolloutStepStart : exec .rolloutStepStart s = execRolloutStepStart s := rfl
@[simp] theorem exec_rolloutStepSwitch : exec .rolloutStepSwitch s = execRolloutStepSwitch s := rfl
@[simp] theorem exec_rolloutStepReload (pass) : exec (.rolloutStepReload pass) s = execRolloutStepReload pass s := rfl
@[simp] theorem exec_egressDispatch (slice) : exec (.egressDispatch slice) s = execEgressDispatch slice s := rfl
@[simp] theorem exec_egressFrameTransmit (node) : exec (.egressFrameTransmit node) s = execEgressFrameTransmit node s := rfl
@[simp] theorem exec_flitReceive (m dir flit) : exec (.flitReceive m dir flit) s = execFlitReceive m dir flit s := rfl
@[simp] theorem exec_d2dRetrain (m) : exec (.d2dRetrain m) s = execD2dRetrain m s := rfl
@[simp] theorem exec_d2dRetrainEnd (m ok lanes) : exec (.d2dRetrainEnd m ok lanes) s = execD2dRetrainEnd m ok lanes s := rfl
@[simp] theorem exec_d2dGapTimeout (slice) : exec (.d2dGapTimeout slice) s = execD2dGapTimeout slice s := rfl
@[simp] theorem exec_ingressDescriptorReceive (desc data tail mapBad) : exec (.ingressDescriptorReceive desc data tail mapBad) s = execIngressDescriptorReceive desc data tail mapBad s := rfl
@[simp] theorem exec_tblInsert (h p) : exec (.tblInsert h p) s = execTblInsert h p s := rfl
@[simp] theorem exec_tblDelete (h p) : exec (.tblDelete h p) s = execTblDelete h p s := rfl
@[simp] theorem exec_tblSearch (h p) : exec (.tblSearch h p) s = execTblSearch h p s := rfl
@[simp] theorem exec_tblNext (h p) : exec (.tblNext h p) s = execTblNext h p s := rfl
@[simp] theorem exec_tblFlushPort (h p) : exec (.tblFlushPort h p) s = execTblFlushPort h p s := rfl
@[simp] theorem exec_tblSync (h p) : exec (.tblSync h p) s = execTblSync h p s := rfl
@[simp] theorem exec_lpmAdd (h p) : exec (.lpmAdd h p) s = execLpmAdd h p s := rfl
@[simp] theorem exec_lpmDel (h p) : exec (.lpmDel h p) s = execLpmDel h p s := rfl
@[simp] theorem exec_learnApply (c) : exec (.learnApply c) s = execLearnApply c s := rfl
@[simp] theorem exec_crossPostApply (c) : exec (.crossPostApply c) s = execCrossPostApply c s := rfl
@[simp] theorem exec_agingPass (c tid bad) : exec (.agingPass c tid bad) s = execAgingPass c tid bad s := rfl
@[simp] theorem exec_flushComplete (port) : exec (.flushComplete port) s = execFlushComplete port s := rfl
@[simp] theorem exec_tblSyncComplete : exec .tblSyncComplete s = execTblSyncComplete s := rfl
@[simp] theorem exec_tblIteratorTimeout (c h) : exec (.tblIteratorTimeout c h) s = execTblIteratorTimeout c h s := rfl
@[simp] theorem exec_exactHashcfgWrite (v) : exec (.exactHashcfgWrite v) s = execExactHashcfgWrite v s := rfl
@[simp] theorem exec_lpmRebuildComplete (vrf v6) : exec (.lpmRebuildComplete vrf v6) s = execLpmRebuildComplete vrf v6 s := rfl
@[simp] theorem exec_ascWrite (h p) : exec (.ascWrite h p) s = execAscWrite h p s := rfl
@[simp] theorem exec_ascInsert (h p) : exec (.ascInsert h p) s = execAscInsert h p s := rfl
@[simp] theorem exec_ascDelete (h p) : exec (.ascDelete h p) s = execAscDelete h p s := rfl
@[simp] theorem exec_ascSearch (h p) : exec (.ascSearch h p) s = execAscSearch h p s := rfl
@[simp] theorem exec_ascRead (h p) : exec (.ascRead h p) s = execAscRead h p s := rfl
@[simp] theorem exec_ascChainCfg (h p) : exec (.ascChainCfg h p) s = execAscChainCfg h p s := rfl
@[simp] theorem exec_ascBlockMoveStep : exec .ascBlockMoveStep s = execAscBlockMoveStep s := rfl
@[simp] theorem exec_ascScrubCompare (bank row differs shadowBad) : exec (.ascScrubCompare bank row differs shadowBad) s = execAscScrubCompare bank row differs shadowBad s := rfl
@[simp] theorem exec_ascSpareSwap : exec .ascSpareSwap s = execAscSpareSwap s := rfl
@[simp] theorem exec_ascActMsEnd : exec .ascActMsEnd s = execAscActMsEnd s := rfl
@[simp] theorem exec_xbarMatching : exec .xbarMatching s = execXbarMatching s := rfl
@[simp] theorem exec_xbarPackTimeout (input out cls) : exec (.xbarPackTimeout input out cls) s = execXbarPackTimeout input out cls s := rfl
@[simp] theorem exec_xbarMcAge (input) : exec (.xbarMcAge input) s = execXbarMcAge input s := rfl
@[simp] theorem exec_xbarCellReceive (out headerOk) : exec (.xbarCellReceive out headerOk) s = execXbarCellReceive out headerOk s := rfl
@[simp] theorem exec_queueAdmit (slice badPops replBad) : exec (.queueAdmit slice badPops replBad) s = execQueueAdmit slice badPops replBad s := rfl
@[simp] theorem exec_tailStatusReceive (id bad) : exec (.tailStatusReceive id bad) s = execTailStatusReceive id bad s := rfl
@[simp] theorem exec_promoAgeExpire (q) : exec (.promoAgeExpire q) s = execPromoAgeExpire q s := rfl
@[simp] theorem exec_promotionWrite (q badPops) : exec (.promotionWrite q badPops) s = execPromotionWrite q badPops s := rfl
@[simp] theorem exec_promotionWriteComplete (q) : exec (.promotionWriteComplete q) s = execPromotionWriteComplete q s := rfl
@[simp] theorem exec_berthStagingRead (q data trailer) : exec (.berthStagingRead q data trailer) s = execBerthStagingRead q data trailer s := rfl
@[simp] theorem exec_berthFree (berth slice) : exec (.berthFree berth slice) s = execBerthFree berth slice s := rfl
@[simp] theorem exec_checkRingResult : exec .checkRingResult s = execCheckRingResult s := rfl
@[simp] theorem exec_berthPoolcfgWrite (pool v) : exec (.berthPoolcfgWrite pool v) s = execBerthPoolcfgWrite pool v s := rfl
@[simp] theorem exec_berthAudit (h p) : exec (.berthAudit h p) s = execBerthAudit h p s := rfl
@[simp] theorem exec_berthAuditRebuild : exec .berthAuditRebuild s = execBerthAuditRebuild s := rfl
@[simp] theorem exec_berthAuditComplete : exec .berthAuditComplete s = execBerthAuditComplete s := rfl
@[simp] theorem exec_berthQlist (h p) : exec (.berthQlist h p) s = execBerthQlist h p s := rfl
@[simp] theorem exec_mcGroupSet (h p) : exec (.mcGroupSet h p) s = execMcGroupSet h p s := rfl
@[simp] theorem exec_mcGroupRead (h p) : exec (.mcGroupRead h p) s = execMcGroupRead h p s := rfl
@[simp] theorem exec_schedRelease (node low read lost) : exec (.schedRelease node low read lost) s = execSchedRelease node low read lost s := rfl
@[simp] theorem exec_shaperRefill (kind node) : exec (.shaperRefill kind node) s = execShaperRefill kind node s := rfl
@[simp] theorem exec_meterRefill (m) : exec (.meterRefill m) s = execMeterRefill m s := rfl
@[simp] theorem exec_timetableRetire : exec .timetableRetire s = execTimetableRetire s := rfl
@[simp] theorem exec_queueSamplerVisit (q) : exec (.queueSamplerVisit q) s = execQueueSamplerVisit q s := rfl
@[simp] theorem exec_portLinkChange (node) : exec (.portLinkChange node) s = execPortLinkChange node s := rfl
@[simp] theorem exec_portHoldExpire (node) : exec (.portHoldExpire node) s = execPortHoldExpire node s := rfl
@[simp] theorem exec_portFlushComplete (node) : exec (.portFlushComplete node) s = execPortFlushComplete node s := rfl
@[simp] theorem exec_queueCfg (h p) : exec (.queueCfg h p) s = execQueueCfg h p s := rfl
@[simp] theorem exec_nodeCfg (h p) : exec (.nodeCfg h p) s = execNodeCfg h p s := rfl
@[simp] theorem exec_shaperSet (h p) : exec (.shaperSet h p) s = execShaperSet h p s := rfl
@[simp] theorem exec_portHold (h p) : exec (.portHold h p) s = execPortHold h p s := rfl
@[simp] theorem exec_queueStat (h p) : exec (.queueStat h p) s = execQueueStat h p s := rfl
@[simp] theorem exec_meterSet (h p) : exec (.meterSet h p) s = execMeterSet h p s := rfl
@[simp] theorem exec_meterRead (h p) : exec (.meterRead h p) s = execMeterRead h p s := rfl
@[simp] theorem exec_fabricCellReceive (link head payload) : exec (.fabricCellReceive link head payload) s = execFabricCellReceive link head payload s := rfl
@[simp] theorem exec_fabricCellTransmit (g) : exec (.fabricCellTransmit g) s = execFabricCellTransmit g s := rfl
@[simp] theorem exec_fabricLinkService (link) : exec (.fabricLinkService link) s = execFabricLinkService link s := rfl
@[simp] theorem exec_fabricStopExpire (link k) : exec (.fabricStopExpire link k) s = execFabricStopExpire link k s := rfl
@[simp] theorem exec_landingGapTimeout (src g cls dest) : exec (.landingGapTimeout src g cls dest) s = execLandingGapTimeout src g cls dest s := rfl
@[simp] theorem exec_landingContextFree (src g cls dest) : exec (.landingContextFree src g cls dest) s = execLandingContextFree src g cls dest s := rfl
@[simp] theorem exec_dupEntryExpire (ssid osrc man) : exec (.dupEntryExpire ssid osrc man) s = execDupEntryExpire ssid osrc man s := rfl
@[simp] theorem exec_fabQmapSet (h p) : exec (.fabQmapSet h p) s = execFabQmapSet h p s := rfl
@[simp] theorem exec_fabQmapRead (h p) : exec (.fabQmapRead h p) s = execFabQmapRead h p s := rfl
@[simp] theorem exec_pairCfg (h p) : exec (.pairCfg h p) s = execPairCfg h p s := rfl
@[simp] theorem exec_pairAlign (h p) : exec (.pairAlign h p) s = execPairAlign h p s := rfl
@[simp] theorem exec_pairHealth (h p) : exec (.pairHealth h p) s = execPairHealth h p s := rfl
@[simp] theorem exec_pairYield (h p) : exec (.pairYield h p) s = execPairYield h p s := rfl
@[simp] theorem exec_hbmRefreshWindow (m pc bank issued) : exec (.hbmRefreshWindow m pc bank issued) s = execHbmRefreshWindow m pc bank issued s := rfl
@[simp] theorem exec_hbmPatrolScrub (m pc row region found) : exec (.hbmPatrolScrub m pc row region found) s = execHbmPatrolScrub m pc row region found s := rfl
@[simp] theorem exec_hbmRedirectComplete (m pc row) : exec (.hbmRedirectComplete m pc row) s = execHbmRedirectComplete m pc row s := rfl
@[simp] theorem exec_hbmPcSwap (m) : exec (.hbmPcSwap m) s = execHbmPcSwap m s := rfl
@[simp] theorem exec_storeBlockRetire (block) : exec (.storeBlockRetire block) s = execStoreBlockRetire block s := rfl
@[simp] theorem exec_storeCheckpoint (h p) : exec (.storeCheckpoint h p) s = execStoreCheckpoint h p s := rfl
@[simp] theorem exec_checkpointInstant (kib) : exec (.checkpointInstant kib) s = execCheckpointInstant kib s := rfl
@[simp] theorem exec_checkpointComplete (fail) : exec (.checkpointComplete fail) s = execCheckpointComplete fail s := rfl
@[simp] theorem exec_journalBucketRefill : exec .journalBucketRefill s = execJournalBucketRefill s := rfl
@[simp] theorem exec_retentionPass (block corrections) : exec (.retentionPass block corrections) s = execRetentionPass block corrections s := rfl
@[simp] theorem exec_retentionProgressLog : exec .retentionProgressLog s = execRetentionProgressLog s := rfl
@[simp] theorem exec_lifeLogWrite : exec .lifeLogWrite s = execLifeLogWrite s := rfl
@[simp] theorem exec_spareApply (h p) : exec (.spareApply h p) s = execSpareApply h p s := rfl
@[simp] theorem exec_memHealth (h p) : exec (.memHealth h p) s = execMemHealth h p s := rfl
@[simp] theorem exec_lifeRead (h p) : exec (.lifeRead h p) s = execLifeRead h p s := rfl
@[simp] theorem exec_timeAdj (h p) : exec (.timeAdj h p) s = execTimeAdj h p s := rfl
@[simp] theorem exec_timeRead (h p) : exec (.timeRead h p) s = execTimeRead h p s := rfl
@[simp] theorem exec_ppsEdge : exec .ppsEdge s = execPpsEdge s := rfl
@[simp] theorem exec_ppsEdgeMissing : exec .ppsEdgeMissing s = execPpsEdgeMissing s := rfl
@[simp] theorem exec_todMessageReceive (msg) : exec (.todMessageReceive msg) s = execTodMessageReceive msg s := rfl
@[simp] theorem exec_ppsOutEdge (rise) : exec (.ppsOutEdge rise) s = execPpsOutEdge rise s := rfl
@[simp] theorem exec_oamSessionSet (h p) : exec (.oamSessionSet h p) s = execOamSessionSet h p s := rfl
@[simp] theorem exec_oamSessionDel (h p) : exec (.oamSessionDel h p) s = execOamSessionDel h p s := rfl
@[simp] theorem exec_oamSessionRead (h p) : exec (.oamSessionRead h p) s = execOamSessionRead h p s := rfl
@[simp] theorem exec_oamChanges (h p) : exec (.oamChanges h p) s = execOamChanges h p s := rfl
@[simp] theorem exec_oamTxTimer (k) : exec (.oamTxTimer k) s = execOamTxTimer k s := rfl
@[simp] theorem exec_oamDetectExpire (k) : exec (.oamDetectExpire k) s = execOamDetectExpire k s := rfl
@[simp] theorem exec_oamFrameReceive : exec .oamFrameReceive s = execOamFrameReceive s := rfl
@[simp] theorem exec_flowCounterWrite (m pc row found) : exec (.flowCounterWrite m pc row found) s = execFlowCounterWrite m pc row found s := rfl
@[simp] theorem exec_cntProgram (h p) : exec (.cntProgram h p) s = execCntProgram h p s := rfl
@[simp] theorem exec_cntSnapshot (h p) : exec (.cntSnapshot h p) s = execCntSnapshot h p s := rfl
@[simp] theorem exec_cntSnapshotInstant (space) : exec (.cntSnapshotInstant space) s = execCntSnapshotInstant space s := rfl
@[simp] theorem exec_cntSnapshotComplete (space) : exec (.cntSnapshotComplete space) s = execCntSnapshotComplete space s := rfl
@[simp] theorem exec_cntRead (h p) : exec (.cntRead h p) s = execCntRead h p s := rfl
@[simp] theorem exec_cntGrant (h p) : exec (.cntGrant h p) s = execCntGrant h p s := rfl
@[simp] theorem exec_portCntRead (h p) : exec (.portCntRead h p) s = execPortCntRead h p s := rfl
@[simp] theorem exec_ctailWrite (n v) : exec (.ctailWrite n v) s = execCtailWrite n v s := rfl
@[simp] theorem exec_commandFetch (n bytes) : exec (.commandFetch n bytes) s = execCommandFetch n bytes s := rfl
@[simp] theorem exec_rheadWrite (n v) : exec (.rheadWrite n v) s = execRheadWrite n v s := rfl
@[simp] theorem exec_oheadWrite (m v) : exec (.oheadWrite m v) s = execOheadWrite m v s := rfl
@[simp] theorem exec_ringEnable (n v) : exec (.ringEnable n v) s = execRingEnable n v s := rfl
@[simp] theorem exec_ringDisable (n v) : exec (.ringDisable n v) s = execRingDisable n v s := rfl
@[simp] theorem exec_outRingEnable (m v) : exec (.outRingEnable m v) s = execOutRingEnable m v s := rfl
@[simp] theorem exec_outRingDisable (m v) : exec (.outRingDisable m v) s = execOutRingDisable m v s := rfl
@[simp] theorem exec_puntRecordWrite : exec .puntRecordWrite s = execPuntRecordWrite s := rfl
@[simp] theorem exec_nop (h p) : exec (.nop h p) s = execNop h p s := rfl
@[simp] theorem exec_waitAttn (h p) : exec (.waitAttn h p) s = execWaitAttn h p s := rfl
@[simp] theorem exec_waitAttnChange (n) : exec (.waitAttnChange n) s = execWaitAttnChange n s := rfl
@[simp] theorem exec_waitAttnTimeout (n) : exec (.waitAttnTimeout n) s = execWaitAttnTimeout n s := rfl
@[simp] theorem exec_modeSet (h p) : exec (.modeSet h p) s = execModeSet h p s := rfl
@[simp] theorem exec_modeTransitionComplete : exec .modeTransitionComplete s = execModeTransitionComplete s := rfl
@[simp] theorem exec_ident (h p) : exec (.ident h p) s = execIdent h p s := rfl
@[simp] theorem exec_ctrlIdlePowerDown : exec .ctrlIdlePowerDown s = execCtrlIdlePowerDown s := rfl
@[simp] theorem exec_regRd (h p) : exec (.regRd h p) s = execRegRd h p s := rfl
@[simp] theorem exec_regWr (h p) : exec (.regWr h p) s = execRegWr h p s := rfl
@[simp] theorem exec_regWrMask (h p) : exec (.regWrMask h p) s = execRegWrMask h p s := rfl
@[simp] theorem exec_mbxRd (h p) : exec (.mbxRd h p) s = execMbxRd h p s := rfl
@[simp] theorem exec_mbxWr (h p) : exec (.mbxWr h p) s = execMbxWr h p s := rfl
@[simp] theorem exec_registerWrite (off v) : exec (.registerWrite off v) s = execRegisterWrite off v s := rfl
@[simp] theorem exec_barNarrowAccess (write half off v) : exec (.barNarrowAccess write half off v) s = execBarNarrowAccess write half off v s := rfl
@[simp] theorem exec_barUnalignedAccess (write off) : exec (.barUnalignedAccess write off) s = execBarUnalignedAccess write off s := rfl
@[simp] theorem exec_barWideAccess (write off dwords) : exec (.barWideAccess write off dwords) s = execBarWideAccess write off dwords s := rfl
@[simp] theorem exec_barWindowPoweredOff (write off v) : exec (.barWindowPoweredOff write off v) s = execBarWindowPoweredOff write off v s := rfl
@[simp] theorem exec_mailboxRead (v) : exec (.mailboxRead v) s = execMailboxRead v s := rfl
@[simp] theorem exec_mailboxWrite (v) : exec (.mailboxWrite v) s = execMailboxWrite v s := rfl
@[simp] theorem exec_mailboxDone : exec .mailboxDone s = execMailboxDone s := rfl
@[simp] theorem exec_postedWriteDone (block) : exec (.postedWriteDone block) s = execPostedWriteDone block s := rfl
@[simp] theorem exec_d2dRetrainRequest (m) : exec (.d2dRetrainRequest m) s = execD2dRetrainRequest m s := rfl
@[simp] theorem exec_tvCheck (addr upA upB upC) : exec (.tvCheck addr upA upB upC) s = execTvCheck addr upA upB upC s := rfl
@[simp] theorem exec_eventInject (v) : exec (.eventInject v) s = execEventInject v s := rfl
@[simp] theorem exec_eventInjectLog (req) : exec (.eventInjectLog req) s = execEventInjectLog req s := rfl
@[simp] theorem exec_hostflagWrite (v) : exec (.hostflagWrite v) s = execHostflagWrite v s := rfl
@[simp] theorem exec_ferrymanWindow (uses buckets) : exec (.ferrymanWindow uses buckets) s = execFerrymanWindow uses buckets s := rfl
@[simp] theorem exec_ferrymanDrainComplete : exec .ferrymanDrainComplete s = execFerrymanDrainComplete s := rfl
@[simp] theorem exec_ferrymanPowerOff (slice) : exec (.ferrymanPowerOff slice) s = execFerrymanPowerOff slice s := rfl
@[simp] theorem exec_idleGate (dom) : exec (.idleGate dom) s = execIdleGate dom s := rfl
@[simp] theorem exec_queueSlicePowerOff (n) : exec (.queueSlicePowerOff n) s = execQueueSlicePowerOff n s := rfl
@[simp] theorem exec_pwrPolicy (h p) : exec (.pwrPolicy h p) s = execPwrPolicy h p s := rfl
@[simp] theorem exec_pwrStatus (h p) : exec (.pwrStatus h p) s = execPwrStatus h p s := rfl
@[simp] theorem exec_drainEmpty : exec .drainEmpty s = execDrainEmpty s := rfl
@[simp] theorem exec_drainTimeout : exec .drainTimeout s = execDrainTimeout s := rfl
@[simp] theorem exec_quiescentEntryComplete : exec .quiescentEntryComplete s = execQuiescentEntryComplete s := rfl
@[simp] theorem exec_fwStage (h p data) : exec (.fwStage h p data) s = execFwStage h p data s := rfl
@[simp] theorem exec_fwVerify (h p) : exec (.fwVerify h p) s = execFwVerify h p s := rfl
@[simp] theorem exec_fwVerifyComplete (img fails patches) : exec (.fwVerifyComplete img fails patches) s = execFwVerifyComplete img fails patches s := rfl
@[simp] theorem exec_fwStageTimeout (obj) : exec (.fwStageTimeout obj) s = execFwStageTimeout obj s := rfl
@[simp] theorem exec_fwActivateAt (h p) : exec (.fwActivateAt h p) s = execFwActivateAt h p s := rfl
@[simp] theorem exec_fwRollback (h p) : exec (.fwRollback h p) s = execFwRollback h p s := rfl
@[simp] theorem exec_patchList (h p) : exec (.patchList h p) s = execPatchList h p s := rfl
@[simp] theorem exec_rolloutStart : exec .rolloutStart s = execRolloutStart s := rfl
@[simp] theorem exec_controlRestart : exec .controlRestart s = execControlRestart s := rfl
@[simp] theorem exec_controlRestartQuiesceTimeout : exec .controlRestartQuiesceTimeout s = execControlRestartQuiesceTimeout s := rfl
@[simp] theorem exec_controlRestartComplete : exec .controlRestartComplete s = execControlRestartComplete s := rfl
@[simp] theorem exec_controlRestartFallback : exec .controlRestartFallback s = execControlRestartFallback s := rfl
@[simp] theorem exec_slipwayOffer (msg fails) : exec (.slipwayOffer msg fails) s = execSlipwayOffer msg fails s := rfl
@[simp] theorem exec_slipwayData (msg) : exec (.slipwayData msg) s = execSlipwayData msg s := rfl
@[simp] theorem exec_slipwayDone (msg) : exec (.slipwayDone msg) s = execSlipwayDone msg s := rfl
@[simp] theorem exec_slipwayAckTimer : exec .slipwayAckTimer s = execSlipwayAckTimer s := rfl
@[simp] theorem exec_slipwayArp (mac senderIp targetIp) : exec (.slipwayArp mac senderIp targetIp) s = execSlipwayArp mac senderIp targetIp s := rfl
@[simp] theorem exec_slipwayIcmpEcho (mac sourceIp destIp data) : exec (.slipwayIcmpEcho mac sourceIp destIp data) s = execSlipwayIcmpEcho mac sourceIp destIp data s := rfl
@[simp] theorem exec_eventLogEntry : exec .eventLogEntry s = execEventLogEntry s := rfl
@[simp] theorem exec_evtRead (h p) : exec (.evtRead h p) s = execEvtRead h p s := rfl
@[simp] theorem exec_evtAck (h p) : exec (.evtAck h p) s = execEvtAck h p s := rfl
@[simp] theorem exec_evtMask (h p) : exec (.evtMask h p) s = execEvtMask h p s := rfl
@[simp] theorem exec_coreMachineCheck (core journalLost) : exec (.coreMachineCheck core journalLost) s = execCoreMachineCheck core journalLost s := rfl
@[simp] theorem exec_prbsCfg (h p) : exec (.prbsCfg h p) s = execPrbsCfg h p s := rfl
@[simp] theorem exec_prbsRead (h p found) : exec (.prbsRead h p found) s = execPrbsRead h p found s := rfl
@[simp] theorem exec_bistRun (h p) : exec (.bistRun h p) s = execBistRun h p s := rfl
@[simp] theorem exec_bistComplete (kind failing ms) : exec (.bistComplete kind failing ms) s = execBistComplete kind failing ms s := rfl
@[simp] theorem exec_pcieLoopbackEnd : exec .pcieLoopbackEnd s = execPcieLoopbackEnd s := rfl
@[simp] theorem exec_tapReset : exec .tapReset s = execTapReset s := rfl
@[simp] theorem exec_extest (ext) : exec (.extest ext) s = execExtest ext s := rfl
@[simp] theorem exec_idcode : exec .idcode s = execIdcode s := rfl
@[simp] theorem exec_samplePreload (ext data) : exec (.samplePreload ext data) s = execSamplePreload ext data s := rfl
@[simp] theorem exec_extestPulse (ext) : exec (.extestPulse ext) s = execExtestPulse ext s := rfl
@[simp] theorem exec_extestTrain (ext) : exec (.extestTrain ext) s = execExtestTrain ext s := rfl
@[simp] theorem exec_clamp : exec .clamp s = execClamp s := rfl
@[simp] theorem exec_highz : exec .highz s = execHighz s := rfl
@[simp] theorem exec_bypass (code) : exec (.bypass code) s = execBypass code s := rfl
@[simp] theorem exec_tollhouseSupplyLoss : exec .tollhouseSupplyLoss s = execTollhouseSupplyLoss s := rfl
@[simp] theorem exec_hbmTemperatureChange (m reading) : exec (.hbmTemperatureChange m reading) s = execHbmTemperatureChange m reading s := rfl
@[simp] theorem exec_slewComplete : exec .slewComplete s = execSlewComplete s := rfl
@[simp] theorem exec_prbsCheckerLock (type unit rx) : exec (.prbsCheckerLock type unit rx) s = execPrbsCheckerLock type unit rx s := rfl
@[simp] theorem exec_prbsCheckerLockLoss (type unit bits errors) : exec (.prbsCheckerLockLoss type unit bits errors) s = execPrbsCheckerLockLoss type unit bits errors s := rfl
@[simp] theorem exec_persistentCountersWrite : exec .persistentCountersWrite s = execPersistentCountersWrite s := rfl

end Sys2Proof.Machine
end

