-- ==== Sys2Proof/Laws/Memory.lean ====
section
/-! SUPPORT. Host memory as the block writes it keeps its canonical form, a byte reads as it was last written, and a write
leaves every other byte alone. -/

namespace Sys2Proof.Machine

theorem tfind_tins_self {α : Type} (t : Tab α) (k : Nat) (a : α) : tfind (tins t k a) k = some a := by
  induction t with
  | nil => simp [tins, tfind]
  | cons p t ih => unfold tins; split <;> (try split) <;> simp_all [tfind]

theorem tfind_tins_ne {α : Type} (t : Tab α) (k j : Nat) (a : α) (h : j ≠ k) : tfind (tins t k a) j = tfind t j := by
  induction t with
  | nil => simp [tins, tfind, h]
  | cons p t ih => unfold tins; split <;> (try split) <;> simp_all [tfind]

/-- Bytes written from an address upward keep the form. -/
theorem memWf_memWrite (m : List Host.Cell) (a : Nat) (l : List Byte) (h : memWf m = true) : memWf (memWrite m a l) = true := by
  induction l generalizing m a with
  | nil => exact h
  | cons b l ih => exact ih _ _ (by simpa [memWf, trising_tins] using h)

/-- So do bytes written into a ring. -/
theorem memWf_ringWrite (m : List Host.Cell) (base size o : Nat) (l : List Byte) (h : memWf m = true) :
    memWf (ringWrite m base size o l) = true := by
  induction l generalizing m o with
  | nil => exact h
  | cons b l ih => exact ih _ _ (by simpa [memWf, trising_tins] using h)

theorem memWf_reset : memWf State.reset.host.mem = true := rfl

/-- An address outside the bytes written reads as before. -/
theorem memWrite_outside (m : List Host.Cell) (a : Nat) (l : List Byte) (x : Nat) (h : x < a ∨ a + l.length ≤ x) :
    tfind (memWrite m a l) x = tfind m x := by
  induction l generalizing m a with
  | nil => rfl
  | cons b l ih =>
    simp only [List.length_cons] at h
    rw [memWrite, ih _ _ (by omega), tfind_tins_ne _ _ _ _ (by omega)]

/-- A byte written reads as written. -/
theorem memWrite_inside (m : List Host.Cell) (a : Nat) (l : List Byte) (i : Nat) (h : i < l.length) :
    tfind (memWrite m a l) (a + i) = some l[i] := by
  induction l generalizing m a i with
  | nil => simp at h
  | cons b l ih =>
    cases i with
    | zero => rw [memWrite, memWrite_outside _ _ _ _ (by omega)]; exact tfind_tins_self m a b
    | succ i =>
      have := ih (tins m a b) (a + 1) i (by simpa using h)
      rw [memWrite, show a + (i + 1) = a + 1 + i by omega, this]; rfl

/-- A ring's write stays in the ring. -/
theorem ringWrite_outside (m : List Host.Cell) (base size o : Nat) (l : List Byte) (x : Nat) (hs : 0 < size)
    (h : x < base ∨ base + size ≤ x) : tfind (ringWrite m base size o l) x = tfind m x := by
  induction l generalizing m o with
  | nil => rfl
  | cons b l ih =>
    rw [ringWrite, ih, tfind_tins_ne]
    split <;> omega

end Sys2Proof.Machine
end

