-- ==== Sys2Proof/Laws/Outcomes.lean ====
section
/-! SUPPORT. What the shared operations can do, said once. -/

namespace Sys2Proof.Machine

/-- A thread that fetches its word within the limits issues it, and what the operation leaves decides. -/
theorem issue_fetches {opc cost looks : Nat} {x : ActOp} {c : Thread → Nat} {l : Bool}
    {eff : Thread → State → Issued × State} {t : Thread} {s : State} (h : Fetches opc x cost looks t s)
    (hc : c t = cost) (hl : b01 l = looks) :
    s.issue opc x c l eff = .next ((eff (t.goes cost looks t.pc) s).2.settle (t.goes cost looks t.pc) (eff (t.goes cost looks t.pc) s).1) := by
  obtain ⟨h1, h2, h3, h4, h5⟩ := h
  have a : ¬ 1024 < t.cycles + cost := by omega
  have b : ¬ 8 < t.looks + looks := by omega
  subst hc hl
  simp [State.issue, h1, h2, h3, a, b, Thread.goes]

/-- An instruction that only sets D (R201). -/
theorem issueReg_fetches {opc cost : Nat} {x : ActOp} {f : Thread → Word64} {t : Thread} {s : State}
    (h : Fetches opc x cost 0 t s) :
    s.issueReg opc cost x f
      = .next (s.putThread ((t.goes cost 0 (t.pc + 1)).setReg x.d (f (t.goes cost 0 t.pc)))) := by
  unfold State.issueReg
  rw [issue_fetches h rfl rfl]
  rfl

/-- A command that meets none of its checks takes effect and ends (R580). -/
theorem runCommand_ok {op : Nat} {h : Hdr} {p : List Word} {bad perm mode : Bool} {rest : List (Bool × Byte)}
    {eff : State → State × Byte × List Word} {s : State} (hb : bad = false) (hp : perm = false) (hm : mode = false)
    (hn : s.mirrorRefuses op h = false) (hr : ∀ c ∈ rest, c.1 = false) :
    runCommand op h p bad perm mode rest eff s = (eff s).1.finishDone op h p (eff s).2.1 (eff s).2.2 := by
  have : rest.find? (·.1) = none := List.find?_eq_none.mpr (fun c hc => by simp [hr c hc])
  simp [runCommand, hb, hp, hm, hn, this]

/-- As `runCommand_ok`, for an effect that answers OK. -/
theorem runSimple_ok {op : Nat} {h : Hdr} {p : List Word} {bad perm mode : Bool} {rest : List (Bool × Byte)}
    {eff : State → State} {s : State} (hb : bad = false) (hp : perm = false) (hm : mode = false)
    (hn : s.mirrorRefuses op h = false) (hr : ∀ c ∈ rest, c.1 = false) :
    runSimple op h p bad perm mode rest eff s = (eff s).finishDone op h p codeOk [] :=
  runCommand_ok hb hp hm hn hr

/-- A command ends rejected, with a code of its checks and no other effect, or it takes effect (R580). -/
theorem runCommand_cases (op : Nat) (h : Hdr) (p : List Word) (bad perm mode : Bool) (rest : List (Bool × Byte))
    (eff : State → State × Byte × List Word) (s : State) :
    (∃ c ∈ [codeBadParam, codeNotPermitted, codeModeWrong, codeNotActing] ++ rest.map (·.2),
        runCommand op h p bad perm mode rest eff s = s.finish op h p.length c []) ∨
      runCommand op h p bad perm mode rest eff s = (eff s).1.finishDone op h p (eff s).2.1 (eff s).2.2 := by
  unfold runCommand
  split
  · next c e =>
    refine .inl ⟨c.2, ?_, rfl⟩
    have := List.mem_of_find?_eq_some e
    simp only [List.mem_append, List.mem_cons, List.not_mem_nil, or_false] at this
    simp only [List.mem_append, List.mem_cons, List.not_mem_nil, or_false, List.mem_map]
    rcases this with (rfl | rfl | rfl | rfl) | m
    · simp
    · simp
    · simp
    · simp
    · exact .inr ⟨c, m, rfl⟩
  · exact .inr rfl

end Sys2Proof.Machine
end

