-- ==== Sys2Proof/Laws/State.lean ====
section
/-! SUPPORT. What each plain update of the state writes and what it leaves: one lemma for each field and update, so that no proof
opens a record update. -/

namespace Sys2Proof.Machine

variable (s : State)

@[simp] theorem State.setCnt_cnt (c : Counters) : (s.setCnt c).cnt = c := rfl
@[simp] theorem State.setCnt_pending (c : Counters) : (s.setCnt c).pending = s.pending := rfl
@[simp] theorem State.setCnt_free (c : Counters) : (s.setCnt c).free = s.free := rfl
@[simp] theorem State.setCnt_cfg (c : Counters) : (s.setCnt c).cfg = s.cfg := rfl
@[simp] theorem State.setCnt_time (c : Counters) : (s.setCnt c).time = s.time := rfl
@[simp] theorem State.setCnt_ev (c : Counters) : (s.setCnt c).ev = s.ev := rfl
@[simp] theorem State.setCnt_host (c : Counters) : (s.setCnt c).host = s.host := rfl
@[simp] theorem State.setCnt_wr (c : Counters) : (s.setCnt c).wr = s.wr := rfl
@[simp] theorem State.setCnt_pwr (c : Counters) : (s.setCnt c).pwr = s.pwr := rfl
@[simp] theorem State.setCnt_pins (c : Counters) : (s.setCnt c).pins = s.pins := rfl
@[simp] theorem State.setCnt_fw (c : Counters) : (s.setCnt c).fw = s.fw := rfl
@[simp] theorem State.setCnt_store (c : Counters) : (s.setCnt c).store = s.store := rfl
@[simp] theorem State.setCnt_mem (c : Counters) : (s.setCnt c).mem = s.mem := rfl
@[simp] theorem State.setCnt_spares (c : Counters) : (s.setCnt c).spares = s.spares := rfl
@[simp] theorem State.setCnt_pair (c : Counters) : (s.setCnt c).pair = s.pair := rfl
@[simp] theorem State.setCnt_test (c : Counters) : (s.setCnt c).test = s.test := rfl
@[simp] theorem State.setCnt_line (c : Counters) : (s.setCnt c).line = s.line := rfl
@[simp] theorem State.setCnt_oam (c : Counters) : (s.setCnt c).oam = s.oam := rfl
@[simp] theorem State.setCnt_fd (c : Counters) : (s.setCnt c).fd = s.fd := rfl
@[simp] theorem State.setCnt_td (c : Counters) : (s.setCnt c).td = s.td := rfl

@[simp] theorem State.setEv_ev (e : Events) : (s.setEv e).ev = e := rfl
@[simp] theorem State.setEv_pending (e : Events) : (s.setEv e).pending = s.pending := rfl
@[simp] theorem State.setEv_free (e : Events) : (s.setEv e).free = s.free := rfl
@[simp] theorem State.setEv_cfg (e : Events) : (s.setEv e).cfg = s.cfg := rfl
@[simp] theorem State.setEv_time (e : Events) : (s.setEv e).time = s.time := rfl
@[simp] theorem State.setEv_host (e : Events) : (s.setEv e).host = s.host := rfl
@[simp] theorem State.setEv_wr (e : Events) : (s.setEv e).wr = s.wr := rfl
@[simp] theorem State.setEv_pwr (e : Events) : (s.setEv e).pwr = s.pwr := rfl
@[simp] theorem State.setEv_pins (e : Events) : (s.setEv e).pins = s.pins := rfl
@[simp] theorem State.setEv_fw (e : Events) : (s.setEv e).fw = s.fw := rfl
@[simp] theorem State.setEv_store (e : Events) : (s.setEv e).store = s.store := rfl
@[simp] theorem State.setEv_mem (e : Events) : (s.setEv e).mem = s.mem := rfl
@[simp] theorem State.setEv_spares (e : Events) : (s.setEv e).spares = s.spares := rfl
@[simp] theorem State.setEv_pair (e : Events) : (s.setEv e).pair = s.pair := rfl
@[simp] theorem State.setEv_test (e : Events) : (s.setEv e).test = s.test := rfl
@[simp] theorem State.setEv_line (e : Events) : (s.setEv e).line = s.line := rfl
@[simp] theorem State.setEv_oam (e : Events) : (s.setEv e).oam = s.oam := rfl
@[simp] theorem State.setEv_cnt (e : Events) : (s.setEv e).cnt = s.cnt := rfl
@[simp] theorem State.setEv_fd (e : Events) : (s.setEv e).fd = s.fd := rfl
@[simp] theorem State.setEv_td (e : Events) : (s.setEv e).td = s.td := rfl

@[simp] theorem State.setPwr_pwr (p : Power) : (s.setPwr p).pwr = p := rfl
@[simp] theorem State.setPwr_pending (p : Power) : (s.setPwr p).pending = s.pending := rfl
@[simp] theorem State.setPwr_free (p : Power) : (s.setPwr p).free = s.free := rfl
@[simp] theorem State.setPwr_cfg (p : Power) : (s.setPwr p).cfg = s.cfg := rfl
@[simp] theorem State.setPwr_time (p : Power) : (s.setPwr p).time = s.time := rfl
@[simp] theorem State.setPwr_ev (p : Power) : (s.setPwr p).ev = s.ev := rfl
@[simp] theorem State.setPwr_host (p : Power) : (s.setPwr p).host = s.host := rfl
@[simp] theorem State.setPwr_wr (p : Power) : (s.setPwr p).wr = s.wr := rfl
@[simp] theorem State.setPwr_pins (p : Power) : (s.setPwr p).pins = s.pins := rfl
@[simp] theorem State.setPwr_fw (p : Power) : (s.setPwr p).fw = s.fw := rfl
@[simp] theorem State.setPwr_store (p : Power) : (s.setPwr p).store = s.store := rfl
@[simp] theorem State.setPwr_mem (p : Power) : (s.setPwr p).mem = s.mem := rfl
@[simp] theorem State.setPwr_spares (p : Power) : (s.setPwr p).spares = s.spares := rfl
@[simp] theorem State.setPwr_pair (p : Power) : (s.setPwr p).pair = s.pair := rfl
@[simp] theorem State.setPwr_test (p : Power) : (s.setPwr p).test = s.test := rfl
@[simp] theorem State.setPwr_line (p : Power) : (s.setPwr p).line = s.line := rfl
@[simp] theorem State.setPwr_oam (p : Power) : (s.setPwr p).oam = s.oam := rfl
@[simp] theorem State.setPwr_cnt (p : Power) : (s.setPwr p).cnt = s.cnt := rfl
@[simp] theorem State.setPwr_fd (p : Power) : (s.setPwr p).fd = s.fd := rfl
@[simp] theorem State.setPwr_td (p : Power) : (s.setPwr p).td = s.td := rfl

@[simp] theorem State.setPins_pins (p : Pins) : (s.setPins p).pins = p := rfl
@[simp] theorem State.setPins_pending (p : Pins) : (s.setPins p).pending = s.pending := rfl
@[simp] theorem State.setPins_free (p : Pins) : (s.setPins p).free = s.free := rfl
@[simp] theorem State.setPins_cfg (p : Pins) : (s.setPins p).cfg = s.cfg := rfl
@[simp] theorem State.setPins_time (p : Pins) : (s.setPins p).time = s.time := rfl
@[simp] theorem State.setPins_ev (p : Pins) : (s.setPins p).ev = s.ev := rfl
@[simp] theorem State.setPins_host (p : Pins) : (s.setPins p).host = s.host := rfl
@[simp] theorem State.setPins_wr (p : Pins) : (s.setPins p).wr = s.wr := rfl
@[simp] theorem State.setPins_pwr (p : Pins) : (s.setPins p).pwr = s.pwr := rfl
@[simp] theorem State.setPins_fw (p : Pins) : (s.setPins p).fw = s.fw := rfl
@[simp] theorem State.setPins_store (p : Pins) : (s.setPins p).store = s.store := rfl
@[simp] theorem State.setPins_mem (p : Pins) : (s.setPins p).mem = s.mem := rfl
@[simp] theorem State.setPins_spares (p : Pins) : (s.setPins p).spares = s.spares := rfl
@[simp] theorem State.setPins_pair (p : Pins) : (s.setPins p).pair = s.pair := rfl
@[simp] theorem State.setPins_test (p : Pins) : (s.setPins p).test = s.test := rfl
@[simp] theorem State.setPins_line (p : Pins) : (s.setPins p).line = s.line := rfl
@[simp] theorem State.setPins_oam (p : Pins) : (s.setPins p).oam = s.oam := rfl
@[simp] theorem State.setPins_cnt (p : Pins) : (s.setPins p).cnt = s.cnt := rfl
@[simp] theorem State.setPins_fd (p : Pins) : (s.setPins p).fd = s.fd := rfl
@[simp] theorem State.setPins_td (p : Pins) : (s.setPins p).td = s.td := rfl

@[simp] theorem State.setFw_fw (f : Fw) : (s.setFw f).fw = f := rfl
@[simp] theorem State.setFw_pending (f : Fw) : (s.setFw f).pending = s.pending := rfl
@[simp] theorem State.setFw_free (f : Fw) : (s.setFw f).free = s.free := rfl
@[simp] theorem State.setFw_cfg (f : Fw) : (s.setFw f).cfg = s.cfg := rfl
@[simp] theorem State.setFw_time (f : Fw) : (s.setFw f).time = s.time := rfl
@[simp] theorem State.setFw_ev (f : Fw) : (s.setFw f).ev = s.ev := rfl
@[simp] theorem State.setFw_host (f : Fw) : (s.setFw f).host = s.host := rfl
@[simp] theorem State.setFw_wr (f : Fw) : (s.setFw f).wr = s.wr := rfl
@[simp] theorem State.setFw_pwr (f : Fw) : (s.setFw f).pwr = s.pwr := rfl
@[simp] theorem State.setFw_pins (f : Fw) : (s.setFw f).pins = s.pins := rfl
@[simp] theorem State.setFw_store (f : Fw) : (s.setFw f).store = s.store := rfl
@[simp] theorem State.setFw_mem (f : Fw) : (s.setFw f).mem = s.mem := rfl
@[simp] theorem State.setFw_spares (f : Fw) : (s.setFw f).spares = s.spares := rfl
@[simp] theorem State.setFw_pair (f : Fw) : (s.setFw f).pair = s.pair := rfl
@[simp] theorem State.setFw_test (f : Fw) : (s.setFw f).test = s.test := rfl
@[simp] theorem State.setFw_line (f : Fw) : (s.setFw f).line = s.line := rfl
@[simp] theorem State.setFw_oam (f : Fw) : (s.setFw f).oam = s.oam := rfl
@[simp] theorem State.setFw_cnt (f : Fw) : (s.setFw f).cnt = s.cnt := rfl
@[simp] theorem State.setFw_fd (f : Fw) : (s.setFw f).fd = s.fd := rfl
@[simp] theorem State.setFw_td (f : Fw) : (s.setFw f).td = s.td := rfl

@[simp] theorem State.setPair_pair (p : Pair) : (s.setPair p).pair = p := rfl
@[simp] theorem State.setPair_pending (p : Pair) : (s.setPair p).pending = s.pending := rfl
@[simp] theorem State.setPair_free (p : Pair) : (s.setPair p).free = s.free := rfl
@[simp] theorem State.setPair_cfg (p : Pair) : (s.setPair p).cfg = s.cfg := rfl
@[simp] theorem State.setPair_time (p : Pair) : (s.setPair p).time = s.time := rfl
@[simp] theorem State.setPair_ev (p : Pair) : (s.setPair p).ev = s.ev := rfl
@[simp] theorem State.setPair_host (p : Pair) : (s.setPair p).host = s.host := rfl
@[simp] theorem State.setPair_wr (p : Pair) : (s.setPair p).wr = s.wr := rfl
@[simp] theorem State.setPair_pwr (p : Pair) : (s.setPair p).pwr = s.pwr := rfl
@[simp] theorem State.setPair_pins (p : Pair) : (s.setPair p).pins = s.pins := rfl
@[simp] theorem State.setPair_fw (p : Pair) : (s.setPair p).fw = s.fw := rfl
@[simp] theorem State.setPair_store (p : Pair) : (s.setPair p).store = s.store := rfl
@[simp] theorem State.setPair_mem (p : Pair) : (s.setPair p).mem = s.mem := rfl
@[simp] theorem State.setPair_spares (p : Pair) : (s.setPair p).spares = s.spares := rfl
@[simp] theorem State.setPair_test (p : Pair) : (s.setPair p).test = s.test := rfl
@[simp] theorem State.setPair_line (p : Pair) : (s.setPair p).line = s.line := rfl
@[simp] theorem State.setPair_oam (p : Pair) : (s.setPair p).oam = s.oam := rfl
@[simp] theorem State.setPair_cnt (p : Pair) : (s.setPair p).cnt = s.cnt := rfl
@[simp] theorem State.setPair_fd (p : Pair) : (s.setPair p).fd = s.fd := rfl
@[simp] theorem State.setPair_td (p : Pair) : (s.setPair p).td = s.td := rfl

@[simp] theorem State.setTime_time (t : Time) : (s.setTime t).time = t := rfl
@[simp] theorem State.setTime_pending (t : Time) : (s.setTime t).pending = s.pending := rfl
@[simp] theorem State.setTime_free (t : Time) : (s.setTime t).free = s.free := rfl
@[simp] theorem State.setTime_cfg (t : Time) : (s.setTime t).cfg = s.cfg := rfl
@[simp] theorem State.setTime_ev (t : Time) : (s.setTime t).ev = s.ev := rfl
@[simp] theorem State.setTime_host (t : Time) : (s.setTime t).host = s.host := rfl
@[simp] theorem State.setTime_wr (t : Time) : (s.setTime t).wr = s.wr := rfl
@[simp] theorem State.setTime_pwr (t : Time) : (s.setTime t).pwr = s.pwr := rfl
@[simp] theorem State.setTime_pins (t : Time) : (s.setTime t).pins = s.pins := rfl
@[simp] theorem State.setTime_fw (t : Time) : (s.setTime t).fw = s.fw := rfl
@[simp] theorem State.setTime_store (t : Time) : (s.setTime t).store = s.store := rfl
@[simp] theorem State.setTime_mem (t : Time) : (s.setTime t).mem = s.mem := rfl
@[simp] theorem State.setTime_spares (t : Time) : (s.setTime t).spares = s.spares := rfl
@[simp] theorem State.setTime_pair (t : Time) : (s.setTime t).pair = s.pair := rfl
@[simp] theorem State.setTime_test (t : Time) : (s.setTime t).test = s.test := rfl
@[simp] theorem State.setTime_line (t : Time) : (s.setTime t).line = s.line := rfl
@[simp] theorem State.setTime_oam (t : Time) : (s.setTime t).oam = s.oam := rfl
@[simp] theorem State.setTime_cnt (t : Time) : (s.setTime t).cnt = s.cnt := rfl
@[simp] theorem State.setTime_fd (t : Time) : (s.setTime t).fd = s.fd := rfl
@[simp] theorem State.setTime_td (t : Time) : (s.setTime t).td = s.td := rfl

@[simp] theorem State.setLine_line (l : LineSide) : (s.setLine l).line = l := rfl
@[simp] theorem State.setLine_pending (l : LineSide) : (s.setLine l).pending = s.pending := rfl
@[simp] theorem State.setLine_free (l : LineSide) : (s.setLine l).free = s.free := rfl
@[simp] theorem State.setLine_cfg (l : LineSide) : (s.setLine l).cfg = s.cfg := rfl
@[simp] theorem State.setLine_time (l : LineSide) : (s.setLine l).time = s.time := rfl
@[simp] theorem State.setLine_ev (l : LineSide) : (s.setLine l).ev = s.ev := rfl
@[simp] theorem State.setLine_host (l : LineSide) : (s.setLine l).host = s.host := rfl
@[simp] theorem State.setLine_wr (l : LineSide) : (s.setLine l).wr = s.wr := rfl
@[simp] theorem State.setLine_pwr (l : LineSide) : (s.setLine l).pwr = s.pwr := rfl
@[simp] theorem State.setLine_pins (l : LineSide) : (s.setLine l).pins = s.pins := rfl
@[simp] theorem State.setLine_fw (l : LineSide) : (s.setLine l).fw = s.fw := rfl
@[simp] theorem State.setLine_store (l : LineSide) : (s.setLine l).store = s.store := rfl
@[simp] theorem State.setLine_mem (l : LineSide) : (s.setLine l).mem = s.mem := rfl
@[simp] theorem State.setLine_spares (l : LineSide) : (s.setLine l).spares = s.spares := rfl
@[simp] theorem State.setLine_pair (l : LineSide) : (s.setLine l).pair = s.pair := rfl
@[simp] theorem State.setLine_test (l : LineSide) : (s.setLine l).test = s.test := rfl
@[simp] theorem State.setLine_oam (l : LineSide) : (s.setLine l).oam = s.oam := rfl
@[simp] theorem State.setLine_cnt (l : LineSide) : (s.setLine l).cnt = s.cnt := rfl
@[simp] theorem State.setLine_fd (l : LineSide) : (s.setLine l).fd = s.fd := rfl
@[simp] theorem State.setLine_td (l : LineSide) : (s.setLine l).td = s.td := rfl

@[simp] theorem State.setTdCfg_cfg (c : TdSetup) : (s.setTdCfg c).cfg = { s.cfg with td := c } := rfl
@[simp] theorem State.setTdCfg_pending (c : TdSetup) : (s.setTdCfg c).pending = s.pending := rfl
@[simp] theorem State.setTdCfg_free (c : TdSetup) : (s.setTdCfg c).free = s.free := rfl
@[simp] theorem State.setTdCfg_time (c : TdSetup) : (s.setTdCfg c).time = s.time := rfl
@[simp] theorem State.setTdCfg_ev (c : TdSetup) : (s.setTdCfg c).ev = s.ev := rfl
@[simp] theorem State.setTdCfg_host (c : TdSetup) : (s.setTdCfg c).host = s.host := rfl
@[simp] theorem State.setTdCfg_wr (c : TdSetup) : (s.setTdCfg c).wr = s.wr := rfl
@[simp] theorem State.setTdCfg_pwr (c : TdSetup) : (s.setTdCfg c).pwr = s.pwr := rfl
@[simp] theorem State.setTdCfg_pins (c : TdSetup) : (s.setTdCfg c).pins = s.pins := rfl
@[simp] theorem State.setTdCfg_fw (c : TdSetup) : (s.setTdCfg c).fw = s.fw := rfl
@[simp] theorem State.setTdCfg_store (c : TdSetup) : (s.setTdCfg c).store = s.store := rfl
@[simp] theorem State.setTdCfg_mem (c : TdSetup) : (s.setTdCfg c).mem = s.mem := rfl
@[simp] theorem State.setTdCfg_spares (c : TdSetup) : (s.setTdCfg c).spares = s.spares := rfl
@[simp] theorem State.setTdCfg_pair (c : TdSetup) : (s.setTdCfg c).pair = s.pair := rfl
@[simp] theorem State.setTdCfg_test (c : TdSetup) : (s.setTdCfg c).test = s.test := rfl
@[simp] theorem State.setTdCfg_line (c : TdSetup) : (s.setTdCfg c).line = s.line := rfl
@[simp] theorem State.setTdCfg_oam (c : TdSetup) : (s.setTdCfg c).oam = s.oam := rfl
@[simp] theorem State.setTdCfg_cnt (c : TdSetup) : (s.setTdCfg c).cnt = s.cnt := rfl
@[simp] theorem State.setTdCfg_fd (c : TdSetup) : (s.setTdCfg c).fd = s.fd := rfl
@[simp] theorem State.setTdCfg_td (c : TdSetup) : (s.setTdCfg c).td = s.td := rfl

@[simp] theorem State.setFdCfg_cfg (c : FdSetup) : (s.setFdCfg c).cfg = { s.cfg with fd := c } := rfl
@[simp] theorem State.setFdCfg_pending (c : FdSetup) : (s.setFdCfg c).pending = s.pending := rfl
@[simp] theorem State.setFdCfg_free (c : FdSetup) : (s.setFdCfg c).free = s.free := rfl
@[simp] theorem State.setFdCfg_time (c : FdSetup) : (s.setFdCfg c).time = s.time := rfl
@[simp] theorem State.setFdCfg_ev (c : FdSetup) : (s.setFdCfg c).ev = s.ev := rfl
@[simp] theorem State.setFdCfg_host (c : FdSetup) : (s.setFdCfg c).host = s.host := rfl
@[simp] theorem State.setFdCfg_wr (c : FdSetup) : (s.setFdCfg c).wr = s.wr := rfl
@[simp] theorem State.setFdCfg_pwr (c : FdSetup) : (s.setFdCfg c).pwr = s.pwr := rfl
@[simp] theorem State.setFdCfg_pins (c : FdSetup) : (s.setFdCfg c).pins = s.pins := rfl
@[simp] theorem State.setFdCfg_fw (c : FdSetup) : (s.setFdCfg c).fw = s.fw := rfl
@[simp] theorem State.setFdCfg_store (c : FdSetup) : (s.setFdCfg c).store = s.store := rfl
@[simp] theorem State.setFdCfg_mem (c : FdSetup) : (s.setFdCfg c).mem = s.mem := rfl
@[simp] theorem State.setFdCfg_spares (c : FdSetup) : (s.setFdCfg c).spares = s.spares := rfl
@[simp] theorem State.setFdCfg_pair (c : FdSetup) : (s.setFdCfg c).pair = s.pair := rfl
@[simp] theorem State.setFdCfg_test (c : FdSetup) : (s.setFdCfg c).test = s.test := rfl
@[simp] theorem State.setFdCfg_line (c : FdSetup) : (s.setFdCfg c).line = s.line := rfl
@[simp] theorem State.setFdCfg_oam (c : FdSetup) : (s.setFdCfg c).oam = s.oam := rfl
@[simp] theorem State.setFdCfg_cnt (c : FdSetup) : (s.setFdCfg c).cnt = s.cnt := rfl
@[simp] theorem State.setFdCfg_fd (c : FdSetup) : (s.setFdCfg c).fd = s.fd := rfl
@[simp] theorem State.setFdCfg_td (c : FdSetup) : (s.setFdCfg c).td = s.td := rfl

@[simp] theorem State.setPort_cfg (n : Nat) (c : Option PortCfg) : (s.setPort n c).cfg = { s.cfg with ports := tset (fun _ => none) s.cfg.ports n c } := rfl
@[simp] theorem State.setPort_pending (n : Nat) (c : Option PortCfg) : (s.setPort n c).pending = s.pending := rfl
@[simp] theorem State.setPort_free (n : Nat) (c : Option PortCfg) : (s.setPort n c).free = s.free := rfl
@[simp] theorem State.setPort_time (n : Nat) (c : Option PortCfg) : (s.setPort n c).time = s.time := rfl
@[simp] theorem State.setPort_ev (n : Nat) (c : Option PortCfg) : (s.setPort n c).ev = s.ev := rfl
@[simp] theorem State.setPort_host (n : Nat) (c : Option PortCfg) : (s.setPort n c).host = s.host := rfl
@[simp] theorem State.setPort_wr (n : Nat) (c : Option PortCfg) : (s.setPort n c).wr = s.wr := rfl
@[simp] theorem State.setPort_pwr (n : Nat) (c : Option PortCfg) : (s.setPort n c).pwr = s.pwr := rfl
@[simp] theorem State.setPort_pins (n : Nat) (c : Option PortCfg) : (s.setPort n c).pins = s.pins := rfl
@[simp] theorem State.setPort_fw (n : Nat) (c : Option PortCfg) : (s.setPort n c).fw = s.fw := rfl
@[simp] theorem State.setPort_store (n : Nat) (c : Option PortCfg) : (s.setPort n c).store = s.store := rfl
@[simp] theorem State.setPort_mem (n : Nat) (c : Option PortCfg) : (s.setPort n c).mem = s.mem := rfl
@[simp] theorem State.setPort_spares (n : Nat) (c : Option PortCfg) : (s.setPort n c).spares = s.spares := rfl
@[simp] theorem State.setPort_pair (n : Nat) (c : Option PortCfg) : (s.setPort n c).pair = s.pair := rfl
@[simp] theorem State.setPort_test (n : Nat) (c : Option PortCfg) : (s.setPort n c).test = s.test := rfl
@[simp] theorem State.setPort_line (n : Nat) (c : Option PortCfg) : (s.setPort n c).line = s.line := rfl
@[simp] theorem State.setPort_oam (n : Nat) (c : Option PortCfg) : (s.setPort n c).oam = s.oam := rfl
@[simp] theorem State.setPort_cnt (n : Nat) (c : Option PortCfg) : (s.setPort n c).cnt = s.cnt := rfl
@[simp] theorem State.setPort_fd (n : Nat) (c : Option PortCfg) : (s.setPort n c).fd = s.fd := rfl
@[simp] theorem State.setPort_td (n : Nat) (c : Option PortCfg) : (s.setPort n c).td = s.td := rfl

@[simp] theorem State.setSpan_cfg (n : Nat) (c : Option SpanCfg) : (s.setSpan n c).cfg = { s.cfg with spans := tset (fun _ => none) s.cfg.spans n c } := rfl
@[simp] theorem State.setSpan_pending (n : Nat) (c : Option SpanCfg) : (s.setSpan n c).pending = s.pending := rfl
@[simp] theorem State.setSpan_free (n : Nat) (c : Option SpanCfg) : (s.setSpan n c).free = s.free := rfl
@[simp] theorem State.setSpan_time (n : Nat) (c : Option SpanCfg) : (s.setSpan n c).time = s.time := rfl
@[simp] theorem State.setSpan_ev (n : Nat) (c : Option SpanCfg) : (s.setSpan n c).ev = s.ev := rfl
@[simp] theorem State.setSpan_host (n : Nat) (c : Option SpanCfg) : (s.setSpan n c).host = s.host := rfl
@[simp] theorem State.setSpan_wr (n : Nat) (c : Option SpanCfg) : (s.setSpan n c).wr = s.wr := rfl
@[simp] theorem State.setSpan_pwr (n : Nat) (c : Option SpanCfg) : (s.setSpan n c).pwr = s.pwr := rfl
@[simp] theorem State.setSpan_pins (n : Nat) (c : Option SpanCfg) : (s.setSpan n c).pins = s.pins := rfl
@[simp] theorem State.setSpan_fw (n : Nat) (c : Option SpanCfg) : (s.setSpan n c).fw = s.fw := rfl
@[simp] theorem State.setSpan_store (n : Nat) (c : Option SpanCfg) : (s.setSpan n c).store = s.store := rfl
@[simp] theorem State.setSpan_mem (n : Nat) (c : Option SpanCfg) : (s.setSpan n c).mem = s.mem := rfl
@[simp] theorem State.setSpan_spares (n : Nat) (c : Option SpanCfg) : (s.setSpan n c).spares = s.spares := rfl
@[simp] theorem State.setSpan_pair (n : Nat) (c : Option SpanCfg) : (s.setSpan n c).pair = s.pair := rfl
@[simp] theorem State.setSpan_test (n : Nat) (c : Option SpanCfg) : (s.setSpan n c).test = s.test := rfl
@[simp] theorem State.setSpan_line (n : Nat) (c : Option SpanCfg) : (s.setSpan n c).line = s.line := rfl
@[simp] theorem State.setSpan_oam (n : Nat) (c : Option SpanCfg) : (s.setSpan n c).oam = s.oam := rfl
@[simp] theorem State.setSpan_cnt (n : Nat) (c : Option SpanCfg) : (s.setSpan n c).cnt = s.cnt := rfl
@[simp] theorem State.setSpan_fd (n : Nat) (c : Option SpanCfg) : (s.setSpan n c).fd = s.fd := rfl
@[simp] theorem State.setSpan_td (n : Nat) (c : Option SpanCfg) : (s.setSpan n c).td = s.td := rfl

@[simp] theorem State.setGang_fd (g : Gangway) : (s.setGang g).fd = { s.fd with gang := g } := rfl
@[simp] theorem State.setGang_pending (g : Gangway) : (s.setGang g).pending = s.pending := rfl
@[simp] theorem State.setGang_free (g : Gangway) : (s.setGang g).free = s.free := rfl
@[simp] theorem State.setGang_cfg (g : Gangway) : (s.setGang g).cfg = s.cfg := rfl
@[simp] theorem State.setGang_time (g : Gangway) : (s.setGang g).time = s.time := rfl
@[simp] theorem State.setGang_ev (g : Gangway) : (s.setGang g).ev = s.ev := rfl
@[simp] theorem State.setGang_host (g : Gangway) : (s.setGang g).host = s.host := rfl
@[simp] theorem State.setGang_wr (g : Gangway) : (s.setGang g).wr = s.wr := rfl
@[simp] theorem State.setGang_pwr (g : Gangway) : (s.setGang g).pwr = s.pwr := rfl
@[simp] theorem State.setGang_pins (g : Gangway) : (s.setGang g).pins = s.pins := rfl
@[simp] theorem State.setGang_fw (g : Gangway) : (s.setGang g).fw = s.fw := rfl
@[simp] theorem State.setGang_store (g : Gangway) : (s.setGang g).store = s.store := rfl
@[simp] theorem State.setGang_mem (g : Gangway) : (s.setGang g).mem = s.mem := rfl
@[simp] theorem State.setGang_spares (g : Gangway) : (s.setGang g).spares = s.spares := rfl
@[simp] theorem State.setGang_pair (g : Gangway) : (s.setGang g).pair = s.pair := rfl
@[simp] theorem State.setGang_test (g : Gangway) : (s.setGang g).test = s.test := rfl
@[simp] theorem State.setGang_line (g : Gangway) : (s.setGang g).line = s.line := rfl
@[simp] theorem State.setGang_oam (g : Gangway) : (s.setGang g).oam = s.oam := rfl
@[simp] theorem State.setGang_cnt (g : Gangway) : (s.setGang g).cnt = s.cnt := rfl
@[simp] theorem State.setGang_td (g : Gangway) : (s.setGang g).td = s.td := rfl

@[simp] theorem State.setEng_fd (e : Engines) : (s.setEng e).fd = { s.fd with eng := e } := rfl
@[simp] theorem State.setEng_pending (e : Engines) : (s.setEng e).pending = s.pending := rfl
@[simp] theorem State.setEng_free (e : Engines) : (s.setEng e).free = s.free := rfl
@[simp] theorem State.setEng_cfg (e : Engines) : (s.setEng e).cfg = s.cfg := rfl
@[simp] theorem State.setEng_time (e : Engines) : (s.setEng e).time = s.time := rfl
@[simp] theorem State.setEng_ev (e : Engines) : (s.setEng e).ev = s.ev := rfl
@[simp] theorem State.setEng_host (e : Engines) : (s.setEng e).host = s.host := rfl
@[simp] theorem State.setEng_wr (e : Engines) : (s.setEng e).wr = s.wr := rfl
@[simp] theorem State.setEng_pwr (e : Engines) : (s.setEng e).pwr = s.pwr := rfl
@[simp] theorem State.setEng_pins (e : Engines) : (s.setEng e).pins = s.pins := rfl
@[simp] theorem State.setEng_fw (e : Engines) : (s.setEng e).fw = s.fw := rfl
@[simp] theorem State.setEng_store (e : Engines) : (s.setEng e).store = s.store := rfl
@[simp] theorem State.setEng_mem (e : Engines) : (s.setEng e).mem = s.mem := rfl
@[simp] theorem State.setEng_spares (e : Engines) : (s.setEng e).spares = s.spares := rfl
@[simp] theorem State.setEng_pair (e : Engines) : (s.setEng e).pair = s.pair := rfl
@[simp] theorem State.setEng_test (e : Engines) : (s.setEng e).test = s.test := rfl
@[simp] theorem State.setEng_line (e : Engines) : (s.setEng e).line = s.line := rfl
@[simp] theorem State.setEng_oam (e : Engines) : (s.setEng e).oam = s.oam := rfl
@[simp] theorem State.setEng_cnt (e : Engines) : (s.setEng e).cnt = s.cnt := rfl
@[simp] theorem State.setEng_td (e : Engines) : (s.setEng e).td = s.td := rfl

@[simp] theorem State.setLook_fd (l : Lookups) : (s.setLook l).fd = { s.fd with look := l } := rfl
@[simp] theorem State.setLook_pending (l : Lookups) : (s.setLook l).pending = s.pending := rfl
@[simp] theorem State.setLook_free (l : Lookups) : (s.setLook l).free = s.free := rfl
@[simp] theorem State.setLook_cfg (l : Lookups) : (s.setLook l).cfg = s.cfg := rfl
@[simp] theorem State.setLook_time (l : Lookups) : (s.setLook l).time = s.time := rfl
@[simp] theorem State.setLook_ev (l : Lookups) : (s.setLook l).ev = s.ev := rfl
@[simp] theorem State.setLook_host (l : Lookups) : (s.setLook l).host = s.host := rfl
@[simp] theorem State.setLook_wr (l : Lookups) : (s.setLook l).wr = s.wr := rfl
@[simp] theorem State.setLook_pwr (l : Lookups) : (s.setLook l).pwr = s.pwr := rfl
@[simp] theorem State.setLook_pins (l : Lookups) : (s.setLook l).pins = s.pins := rfl
@[simp] theorem State.setLook_fw (l : Lookups) : (s.setLook l).fw = s.fw := rfl
@[simp] theorem State.setLook_store (l : Lookups) : (s.setLook l).store = s.store := rfl
@[simp] theorem State.setLook_mem (l : Lookups) : (s.setLook l).mem = s.mem := rfl
@[simp] theorem State.setLook_spares (l : Lookups) : (s.setLook l).spares = s.spares := rfl
@[simp] theorem State.setLook_pair (l : Lookups) : (s.setLook l).pair = s.pair := rfl
@[simp] theorem State.setLook_test (l : Lookups) : (s.setLook l).test = s.test := rfl
@[simp] theorem State.setLook_line (l : Lookups) : (s.setLook l).line = s.line := rfl
@[simp] theorem State.setLook_oam (l : Lookups) : (s.setLook l).oam = s.oam := rfl
@[simp] theorem State.setLook_cnt (l : Lookups) : (s.setLook l).cnt = s.cnt := rfl
@[simp] theorem State.setLook_td (l : Lookups) : (s.setLook l).td = s.td := rfl

@[simp] theorem State.setD2d_fd (d : D2d) : (s.setD2d d).fd = { s.fd with d2d := d } := rfl
@[simp] theorem State.setD2d_pending (d : D2d) : (s.setD2d d).pending = s.pending := rfl
@[simp] theorem State.setD2d_free (d : D2d) : (s.setD2d d).free = s.free := rfl
@[simp] theorem State.setD2d_cfg (d : D2d) : (s.setD2d d).cfg = s.cfg := rfl
@[simp] theorem State.setD2d_time (d : D2d) : (s.setD2d d).time = s.time := rfl
@[simp] theorem State.setD2d_ev (d : D2d) : (s.setD2d d).ev = s.ev := rfl
@[simp] theorem State.setD2d_host (d : D2d) : (s.setD2d d).host = s.host := rfl
@[simp] theorem State.setD2d_wr (d : D2d) : (s.setD2d d).wr = s.wr := rfl
@[simp] theorem State.setD2d_pwr (d : D2d) : (s.setD2d d).pwr = s.pwr := rfl
@[simp] theorem State.setD2d_pins (d : D2d) : (s.setD2d d).pins = s.pins := rfl
@[simp] theorem State.setD2d_fw (d : D2d) : (s.setD2d d).fw = s.fw := rfl
@[simp] theorem State.setD2d_store (d : D2d) : (s.setD2d d).store = s.store := rfl
@[simp] theorem State.setD2d_mem (d : D2d) : (s.setD2d d).mem = s.mem := rfl
@[simp] theorem State.setD2d_spares (d : D2d) : (s.setD2d d).spares = s.spares := rfl
@[simp] theorem State.setD2d_pair (d : D2d) : (s.setD2d d).pair = s.pair := rfl
@[simp] theorem State.setD2d_test (d : D2d) : (s.setD2d d).test = s.test := rfl
@[simp] theorem State.setD2d_line (d : D2d) : (s.setD2d d).line = s.line := rfl
@[simp] theorem State.setD2d_oam (d : D2d) : (s.setD2d d).oam = s.oam := rfl
@[simp] theorem State.setD2d_cnt (d : D2d) : (s.setD2d d).cnt = s.cnt := rfl
@[simp] theorem State.setD2d_td (d : D2d) : (s.setD2d d).td = s.td := rfl

@[simp] theorem State.setRules_fd (r : Rules) : (s.setRules r).fd = { s.fd with rules := r } := rfl
@[simp] theorem State.setRules_pending (r : Rules) : (s.setRules r).pending = s.pending := rfl
@[simp] theorem State.setRules_free (r : Rules) : (s.setRules r).free = s.free := rfl
@[simp] theorem State.setRules_cfg (r : Rules) : (s.setRules r).cfg = s.cfg := rfl
@[simp] theorem State.setRules_time (r : Rules) : (s.setRules r).time = s.time := rfl
@[simp] theorem State.setRules_ev (r : Rules) : (s.setRules r).ev = s.ev := rfl
@[simp] theorem State.setRules_host (r : Rules) : (s.setRules r).host = s.host := rfl
@[simp] theorem State.setRules_wr (r : Rules) : (s.setRules r).wr = s.wr := rfl
@[simp] theorem State.setRules_pwr (r : Rules) : (s.setRules r).pwr = s.pwr := rfl
@[simp] theorem State.setRules_pins (r : Rules) : (s.setRules r).pins = s.pins := rfl
@[simp] theorem State.setRules_fw (r : Rules) : (s.setRules r).fw = s.fw := rfl
@[simp] theorem State.setRules_store (r : Rules) : (s.setRules r).store = s.store := rfl
@[simp] theorem State.setRules_mem (r : Rules) : (s.setRules r).mem = s.mem := rfl
@[simp] theorem State.setRules_spares (r : Rules) : (s.setRules r).spares = s.spares := rfl
@[simp] theorem State.setRules_pair (r : Rules) : (s.setRules r).pair = s.pair := rfl
@[simp] theorem State.setRules_test (r : Rules) : (s.setRules r).test = s.test := rfl
@[simp] theorem State.setRules_line (r : Rules) : (s.setRules r).line = s.line := rfl
@[simp] theorem State.setRules_oam (r : Rules) : (s.setRules r).oam = s.oam := rfl
@[simp] theorem State.setRules_cnt (r : Rules) : (s.setRules r).cnt = s.cnt := rfl
@[simp] theorem State.setRules_td (r : Rules) : (s.setRules r).td = s.td := rfl

@[simp] theorem State.setFrags_fd (l : List Frag) : (s.setFrags l).fd = { s.fd with frags := l } := rfl
@[simp] theorem State.setFrags_pending (l : List Frag) : (s.setFrags l).pending = s.pending := rfl
@[simp] theorem State.setFrags_free (l : List Frag) : (s.setFrags l).free = s.free := rfl
@[simp] theorem State.setFrags_cfg (l : List Frag) : (s.setFrags l).cfg = s.cfg := rfl
@[simp] theorem State.setFrags_time (l : List Frag) : (s.setFrags l).time = s.time := rfl
@[simp] theorem State.setFrags_ev (l : List Frag) : (s.setFrags l).ev = s.ev := rfl
@[simp] theorem State.setFrags_host (l : List Frag) : (s.setFrags l).host = s.host := rfl
@[simp] theorem State.setFrags_wr (l : List Frag) : (s.setFrags l).wr = s.wr := rfl
@[simp] theorem State.setFrags_pwr (l : List Frag) : (s.setFrags l).pwr = s.pwr := rfl
@[simp] theorem State.setFrags_pins (l : List Frag) : (s.setFrags l).pins = s.pins := rfl
@[simp] theorem State.setFrags_fw (l : List Frag) : (s.setFrags l).fw = s.fw := rfl
@[simp] theorem State.setFrags_store (l : List Frag) : (s.setFrags l).store = s.store := rfl
@[simp] theorem State.setFrags_mem (l : List Frag) : (s.setFrags l).mem = s.mem := rfl
@[simp] theorem State.setFrags_spares (l : List Frag) : (s.setFrags l).spares = s.spares := rfl
@[simp] theorem State.setFrags_pair (l : List Frag) : (s.setFrags l).pair = s.pair := rfl
@[simp] theorem State.setFrags_test (l : List Frag) : (s.setFrags l).test = s.test := rfl
@[simp] theorem State.setFrags_line (l : List Frag) : (s.setFrags l).line = s.line := rfl
@[simp] theorem State.setFrags_oam (l : List Frag) : (s.setFrags l).oam = s.oam := rfl
@[simp] theorem State.setFrags_cnt (l : List Frag) : (s.setFrags l).cnt = s.cnt := rfl
@[simp] theorem State.setFrags_td (l : List Frag) : (s.setFrags l).td = s.td := rfl

@[simp] theorem State.setBerths_td (b : Berths) : (s.setBerths b).td = { s.td with berths := b } := rfl
@[simp] theorem State.setBerths_pending (b : Berths) : (s.setBerths b).pending = s.pending := rfl
@[simp] theorem State.setBerths_free (b : Berths) : (s.setBerths b).free = s.free := rfl
@[simp] theorem State.setBerths_cfg (b : Berths) : (s.setBerths b).cfg = s.cfg := rfl
@[simp] theorem State.setBerths_time (b : Berths) : (s.setBerths b).time = s.time := rfl
@[simp] theorem State.setBerths_ev (b : Berths) : (s.setBerths b).ev = s.ev := rfl
@[simp] theorem State.setBerths_host (b : Berths) : (s.setBerths b).host = s.host := rfl
@[simp] theorem State.setBerths_wr (b : Berths) : (s.setBerths b).wr = s.wr := rfl
@[simp] theorem State.setBerths_pwr (b : Berths) : (s.setBerths b).pwr = s.pwr := rfl
@[simp] theorem State.setBerths_pins (b : Berths) : (s.setBerths b).pins = s.pins := rfl
@[simp] theorem State.setBerths_fw (b : Berths) : (s.setBerths b).fw = s.fw := rfl
@[simp] theorem State.setBerths_store (b : Berths) : (s.setBerths b).store = s.store := rfl
@[simp] theorem State.setBerths_mem (b : Berths) : (s.setBerths b).mem = s.mem := rfl
@[simp] theorem State.setBerths_spares (b : Berths) : (s.setBerths b).spares = s.spares := rfl
@[simp] theorem State.setBerths_pair (b : Berths) : (s.setBerths b).pair = s.pair := rfl
@[simp] theorem State.setBerths_test (b : Berths) : (s.setBerths b).test = s.test := rfl
@[simp] theorem State.setBerths_line (b : Berths) : (s.setBerths b).line = s.line := rfl
@[simp] theorem State.setBerths_oam (b : Berths) : (s.setBerths b).oam = s.oam := rfl
@[simp] theorem State.setBerths_cnt (b : Berths) : (s.setBerths b).cnt = s.cnt := rfl
@[simp] theorem State.setBerths_fd (b : Berths) : (s.setBerths b).fd = s.fd := rfl

@[simp] theorem State.setSched_td (x : Sched) : (s.setSched x).td = { s.td with sched := x } := rfl
@[simp] theorem State.setSched_pending (x : Sched) : (s.setSched x).pending = s.pending := rfl
@[simp] theorem State.setSched_free (x : Sched) : (s.setSched x).free = s.free := rfl
@[simp] theorem State.setSched_cfg (x : Sched) : (s.setSched x).cfg = s.cfg := rfl
@[simp] theorem State.setSched_time (x : Sched) : (s.setSched x).time = s.time := rfl
@[simp] theorem State.setSched_ev (x : Sched) : (s.setSched x).ev = s.ev := rfl
@[simp] theorem State.setSched_host (x : Sched) : (s.setSched x).host = s.host := rfl
@[simp] theorem State.setSched_wr (x : Sched) : (s.setSched x).wr = s.wr := rfl
@[simp] theorem State.setSched_pwr (x : Sched) : (s.setSched x).pwr = s.pwr := rfl
@[simp] theorem State.setSched_pins (x : Sched) : (s.setSched x).pins = s.pins := rfl
@[simp] theorem State.setSched_fw (x : Sched) : (s.setSched x).fw = s.fw := rfl
@[simp] theorem State.setSched_store (x : Sched) : (s.setSched x).store = s.store := rfl
@[simp] theorem State.setSched_mem (x : Sched) : (s.setSched x).mem = s.mem := rfl
@[simp] theorem State.setSched_spares (x : Sched) : (s.setSched x).spares = s.spares := rfl
@[simp] theorem State.setSched_pair (x : Sched) : (s.setSched x).pair = s.pair := rfl
@[simp] theorem State.setSched_test (x : Sched) : (s.setSched x).test = s.test := rfl
@[simp] theorem State.setSched_line (x : Sched) : (s.setSched x).line = s.line := rfl
@[simp] theorem State.setSched_oam (x : Sched) : (s.setSched x).oam = s.oam := rfl
@[simp] theorem State.setSched_cnt (x : Sched) : (s.setSched x).cnt = s.cnt := rfl
@[simp] theorem State.setSched_fd (x : Sched) : (s.setSched x).fd = s.fd := rfl

@[simp] theorem State.setXb_td (x : Xbar) : (s.setXb x).td = { s.td with xb := x } := rfl
@[simp] theorem State.setXb_pending (x : Xbar) : (s.setXb x).pending = s.pending := rfl
@[simp] theorem State.setXb_free (x : Xbar) : (s.setXb x).free = s.free := rfl
@[simp] theorem State.setXb_cfg (x : Xbar) : (s.setXb x).cfg = s.cfg := rfl
@[simp] theorem State.setXb_time (x : Xbar) : (s.setXb x).time = s.time := rfl
@[simp] theorem State.setXb_ev (x : Xbar) : (s.setXb x).ev = s.ev := rfl
@[simp] theorem State.setXb_host (x : Xbar) : (s.setXb x).host = s.host := rfl
@[simp] theorem State.setXb_wr (x : Xbar) : (s.setXb x).wr = s.wr := rfl
@[simp] theorem State.setXb_pwr (x : Xbar) : (s.setXb x).pwr = s.pwr := rfl
@[simp] theorem State.setXb_pins (x : Xbar) : (s.setXb x).pins = s.pins := rfl
@[simp] theorem State.setXb_fw (x : Xbar) : (s.setXb x).fw = s.fw := rfl
@[simp] theorem State.setXb_store (x : Xbar) : (s.setXb x).store = s.store := rfl
@[simp] theorem State.setXb_mem (x : Xbar) : (s.setXb x).mem = s.mem := rfl
@[simp] theorem State.setXb_spares (x : Xbar) : (s.setXb x).spares = s.spares := rfl
@[simp] theorem State.setXb_pair (x : Xbar) : (s.setXb x).pair = s.pair := rfl
@[simp] theorem State.setXb_test (x : Xbar) : (s.setXb x).test = s.test := rfl
@[simp] theorem State.setXb_line (x : Xbar) : (s.setXb x).line = s.line := rfl
@[simp] theorem State.setXb_oam (x : Xbar) : (s.setXb x).oam = s.oam := rfl
@[simp] theorem State.setXb_cnt (x : Xbar) : (s.setXb x).cnt = s.cnt := rfl
@[simp] theorem State.setXb_fd (x : Xbar) : (s.setXb x).fd = s.fd := rfl

@[simp] theorem State.setFab_td (x : Fabric) : (s.setFab x).td = { s.td with fab := x } := rfl
@[simp] theorem State.setFab_pending (x : Fabric) : (s.setFab x).pending = s.pending := rfl
@[simp] theorem State.setFab_free (x : Fabric) : (s.setFab x).free = s.free := rfl
@[simp] theorem State.setFab_cfg (x : Fabric) : (s.setFab x).cfg = s.cfg := rfl
@[simp] theorem State.setFab_time (x : Fabric) : (s.setFab x).time = s.time := rfl
@[simp] theorem State.setFab_ev (x : Fabric) : (s.setFab x).ev = s.ev := rfl
@[simp] theorem State.setFab_host (x : Fabric) : (s.setFab x).host = s.host := rfl
@[simp] theorem State.setFab_wr (x : Fabric) : (s.setFab x).wr = s.wr := rfl
@[simp] theorem State.setFab_pwr (x : Fabric) : (s.setFab x).pwr = s.pwr := rfl
@[simp] theorem State.setFab_pins (x : Fabric) : (s.setFab x).pins = s.pins := rfl
@[simp] theorem State.setFab_fw (x : Fabric) : (s.setFab x).fw = s.fw := rfl
@[simp] theorem State.setFab_store (x : Fabric) : (s.setFab x).store = s.store := rfl
@[simp] theorem State.setFab_mem (x : Fabric) : (s.setFab x).mem = s.mem := rfl
@[simp] theorem State.setFab_spares (x : Fabric) : (s.setFab x).spares = s.spares := rfl
@[simp] theorem State.setFab_pair (x : Fabric) : (s.setFab x).pair = s.pair := rfl
@[simp] theorem State.setFab_test (x : Fabric) : (s.setFab x).test = s.test := rfl
@[simp] theorem State.setFab_line (x : Fabric) : (s.setFab x).line = s.line := rfl
@[simp] theorem State.setFab_oam (x : Fabric) : (s.setFab x).oam = s.oam := rfl
@[simp] theorem State.setFab_cnt (x : Fabric) : (s.setFab x).cnt = s.cnt := rfl
@[simp] theorem State.setFab_fd (x : Fabric) : (s.setFab x).fd = s.fd := rfl

@[simp] theorem State.putQ_td (q : Nat) (r : QRun) : (s.putQ q r).td = { s.td with q := tset dflt s.td.q q r } := rfl
@[simp] theorem State.putQ_pending (q : Nat) (r : QRun) : (s.putQ q r).pending = s.pending := rfl
@[simp] theorem State.putQ_free (q : Nat) (r : QRun) : (s.putQ q r).free = s.free := rfl
@[simp] theorem State.putQ_cfg (q : Nat) (r : QRun) : (s.putQ q r).cfg = s.cfg := rfl
@[simp] theorem State.putQ_time (q : Nat) (r : QRun) : (s.putQ q r).time = s.time := rfl
@[simp] theorem State.putQ_ev (q : Nat) (r : QRun) : (s.putQ q r).ev = s.ev := rfl
@[simp] theorem State.putQ_host (q : Nat) (r : QRun) : (s.putQ q r).host = s.host := rfl
@[simp] theorem State.putQ_wr (q : Nat) (r : QRun) : (s.putQ q r).wr = s.wr := rfl
@[simp] theorem State.putQ_pwr (q : Nat) (r : QRun) : (s.putQ q r).pwr = s.pwr := rfl
@[simp] theorem State.putQ_pins (q : Nat) (r : QRun) : (s.putQ q r).pins = s.pins := rfl
@[simp] theorem State.putQ_fw (q : Nat) (r : QRun) : (s.putQ q r).fw = s.fw := rfl
@[simp] theorem State.putQ_store (q : Nat) (r : QRun) : (s.putQ q r).store = s.store := rfl
@[simp] theorem State.putQ_mem (q : Nat) (r : QRun) : (s.putQ q r).mem = s.mem := rfl
@[simp] theorem State.putQ_spares (q : Nat) (r : QRun) : (s.putQ q r).spares = s.spares := rfl
@[simp] theorem State.putQ_pair (q : Nat) (r : QRun) : (s.putQ q r).pair = s.pair := rfl
@[simp] theorem State.putQ_test (q : Nat) (r : QRun) : (s.putQ q r).test = s.test := rfl
@[simp] theorem State.putQ_line (q : Nat) (r : QRun) : (s.putQ q r).line = s.line := rfl
@[simp] theorem State.putQ_oam (q : Nat) (r : QRun) : (s.putQ q r).oam = s.oam := rfl
@[simp] theorem State.putQ_cnt (q : Nat) (r : QRun) : (s.putQ q r).cnt = s.cnt := rfl
@[simp] theorem State.putQ_fd (q : Nat) (r : QRun) : (s.putQ q r).fd = s.fd := rfl

@[simp] theorem State.setHw_wr (a : Nat) (v : Word) : (s.setHw a v).wr = { s.wr with hw := tset z s.wr.hw a v } := rfl
@[simp] theorem State.setHw_pending (a : Nat) (v : Word) : (s.setHw a v).pending = s.pending := rfl
@[simp] theorem State.setHw_free (a : Nat) (v : Word) : (s.setHw a v).free = s.free := rfl
@[simp] theorem State.setHw_cfg (a : Nat) (v : Word) : (s.setHw a v).cfg = s.cfg := rfl
@[simp] theorem State.setHw_time (a : Nat) (v : Word) : (s.setHw a v).time = s.time := rfl
@[simp] theorem State.setHw_ev (a : Nat) (v : Word) : (s.setHw a v).ev = s.ev := rfl
@[simp] theorem State.setHw_host (a : Nat) (v : Word) : (s.setHw a v).host = s.host := rfl
@[simp] theorem State.setHw_pwr (a : Nat) (v : Word) : (s.setHw a v).pwr = s.pwr := rfl
@[simp] theorem State.setHw_pins (a : Nat) (v : Word) : (s.setHw a v).pins = s.pins := rfl
@[simp] theorem State.setHw_fw (a : Nat) (v : Word) : (s.setHw a v).fw = s.fw := rfl
@[simp] theorem State.setHw_store (a : Nat) (v : Word) : (s.setHw a v).store = s.store := rfl
@[simp] theorem State.setHw_mem (a : Nat) (v : Word) : (s.setHw a v).mem = s.mem := rfl
@[simp] theorem State.setHw_spares (a : Nat) (v : Word) : (s.setHw a v).spares = s.spares := rfl
@[simp] theorem State.setHw_pair (a : Nat) (v : Word) : (s.setHw a v).pair = s.pair := rfl
@[simp] theorem State.setHw_test (a : Nat) (v : Word) : (s.setHw a v).test = s.test := rfl
@[simp] theorem State.setHw_line (a : Nat) (v : Word) : (s.setHw a v).line = s.line := rfl
@[simp] theorem State.setHw_oam (a : Nat) (v : Word) : (s.setHw a v).oam = s.oam := rfl
@[simp] theorem State.setHw_cnt (a : Nat) (v : Word) : (s.setHw a v).cnt = s.cnt := rfl
@[simp] theorem State.setHw_fd (a : Nat) (v : Word) : (s.setHw a v).fd = s.fd := rfl
@[simp] theorem State.setHw_td (a : Nat) (v : Word) : (s.setHw a v).td = s.td := rfl

@[simp] theorem State.setRing_host (n : Nat) (r : InRing) : (s.setRing n r).host = { s.host with rings := tset restRing s.host.rings n r } := rfl
@[simp] theorem State.setRing_pending (n : Nat) (r : InRing) : (s.setRing n r).pending = s.pending := rfl
@[simp] theorem State.setRing_free (n : Nat) (r : InRing) : (s.setRing n r).free = s.free := rfl
@[simp] theorem State.setRing_cfg (n : Nat) (r : InRing) : (s.setRing n r).cfg = s.cfg := rfl
@[simp] theorem State.setRing_time (n : Nat) (r : InRing) : (s.setRing n r).time = s.time := rfl
@[simp] theorem State.setRing_ev (n : Nat) (r : InRing) : (s.setRing n r).ev = s.ev := rfl
@[simp] theorem State.setRing_wr (n : Nat) (r : InRing) : (s.setRing n r).wr = s.wr := rfl
@[simp] theorem State.setRing_pwr (n : Nat) (r : InRing) : (s.setRing n r).pwr = s.pwr := rfl
@[simp] theorem State.setRing_pins (n : Nat) (r : InRing) : (s.setRing n r).pins = s.pins := rfl
@[simp] theorem State.setRing_fw (n : Nat) (r : InRing) : (s.setRing n r).fw = s.fw := rfl
@[simp] theorem State.setRing_store (n : Nat) (r : InRing) : (s.setRing n r).store = s.store := rfl
@[simp] theorem State.setRing_mem (n : Nat) (r : InRing) : (s.setRing n r).mem = s.mem := rfl
@[simp] theorem State.setRing_spares (n : Nat) (r : InRing) : (s.setRing n r).spares = s.spares := rfl
@[simp] theorem State.setRing_pair (n : Nat) (r : InRing) : (s.setRing n r).pair = s.pair := rfl
@[simp] theorem State.setRing_test (n : Nat) (r : InRing) : (s.setRing n r).test = s.test := rfl
@[simp] theorem State.setRing_line (n : Nat) (r : InRing) : (s.setRing n r).line = s.line := rfl
@[simp] theorem State.setRing_oam (n : Nat) (r : InRing) : (s.setRing n r).oam = s.oam := rfl
@[simp] theorem State.setRing_cnt (n : Nat) (r : InRing) : (s.setRing n r).cnt = s.cnt := rfl
@[simp] theorem State.setRing_fd (n : Nat) (r : InRing) : (s.setRing n r).fd = s.fd := rfl
@[simp] theorem State.setRing_td (n : Nat) (r : InRing) : (s.setRing n r).td = s.td := rfl

@[simp] theorem State.setDomain_pwr (d v : Nat) : (s.setDomain d v).pwr = { s.pwr with domains := tset restDomain s.pwr.domains d v } := rfl
@[simp] theorem State.setDomain_pending (d v : Nat) : (s.setDomain d v).pending = s.pending := rfl
@[simp] theorem State.setDomain_free (d v : Nat) : (s.setDomain d v).free = s.free := rfl
@[simp] theorem State.setDomain_cfg (d v : Nat) : (s.setDomain d v).cfg = s.cfg := rfl
@[simp] theorem State.setDomain_time (d v : Nat) : (s.setDomain d v).time = s.time := rfl
@[simp] theorem State.setDomain_ev (d v : Nat) : (s.setDomain d v).ev = s.ev := rfl
@[simp] theorem State.setDomain_host (d v : Nat) : (s.setDomain d v).host = s.host := rfl
@[simp] theorem State.setDomain_wr (d v : Nat) : (s.setDomain d v).wr = s.wr := rfl
@[simp] theorem State.setDomain_pins (d v : Nat) : (s.setDomain d v).pins = s.pins := rfl
@[simp] theorem State.setDomain_fw (d v : Nat) : (s.setDomain d v).fw = s.fw := rfl
@[simp] theorem State.setDomain_store (d v : Nat) : (s.setDomain d v).store = s.store := rfl
@[simp] theorem State.setDomain_mem (d v : Nat) : (s.setDomain d v).mem = s.mem := rfl
@[simp] theorem State.setDomain_spares (d v : Nat) : (s.setDomain d v).spares = s.spares := rfl
@[simp] theorem State.setDomain_pair (d v : Nat) : (s.setDomain d v).pair = s.pair := rfl
@[simp] theorem State.setDomain_test (d v : Nat) : (s.setDomain d v).test = s.test := rfl
@[simp] theorem State.setDomain_line (d v : Nat) : (s.setDomain d v).line = s.line := rfl
@[simp] theorem State.setDomain_oam (d v : Nat) : (s.setDomain d v).oam = s.oam := rfl
@[simp] theorem State.setDomain_cnt (d v : Nat) : (s.setDomain d v).cnt = s.cnt := rfl
@[simp] theorem State.setDomain_fd (d v : Nat) : (s.setDomain d v).fd = s.fd := rfl
@[simp] theorem State.setDomain_td (d v : Nat) : (s.setDomain d v).td = s.td := rfl

@[simp] theorem State.setModeReq_pwr (r : Option ModeReq) : (s.setModeReq r).pwr = { s.pwr with modeReq := r } := rfl
@[simp] theorem State.setModeReq_pending (r : Option ModeReq) : (s.setModeReq r).pending = s.pending := rfl
@[simp] theorem State.setModeReq_free (r : Option ModeReq) : (s.setModeReq r).free = s.free := rfl
@[simp] theorem State.setModeReq_cfg (r : Option ModeReq) : (s.setModeReq r).cfg = s.cfg := rfl
@[simp] theorem State.setModeReq_time (r : Option ModeReq) : (s.setModeReq r).time = s.time := rfl
@[simp] theorem State.setModeReq_ev (r : Option ModeReq) : (s.setModeReq r).ev = s.ev := rfl
@[simp] theorem State.setModeReq_host (r : Option ModeReq) : (s.setModeReq r).host = s.host := rfl
@[simp] theorem State.setModeReq_wr (r : Option ModeReq) : (s.setModeReq r).wr = s.wr := rfl
@[simp] theorem State.setModeReq_pins (r : Option ModeReq) : (s.setModeReq r).pins = s.pins := rfl
@[simp] theorem State.setModeReq_fw (r : Option ModeReq) : (s.setModeReq r).fw = s.fw := rfl
@[simp] theorem State.setModeReq_store (r : Option ModeReq) : (s.setModeReq r).store = s.store := rfl
@[simp] theorem State.setModeReq_mem (r : Option ModeReq) : (s.setModeReq r).mem = s.mem := rfl
@[simp] theorem State.setModeReq_spares (r : Option ModeReq) : (s.setModeReq r).spares = s.spares := rfl
@[simp] theorem State.setModeReq_pair (r : Option ModeReq) : (s.setModeReq r).pair = s.pair := rfl
@[simp] theorem State.setModeReq_test (r : Option ModeReq) : (s.setModeReq r).test = s.test := rfl
@[simp] theorem State.setModeReq_line (r : Option ModeReq) : (s.setModeReq r).line = s.line := rfl
@[simp] theorem State.setModeReq_oam (r : Option ModeReq) : (s.setModeReq r).oam = s.oam := rfl
@[simp] theorem State.setModeReq_cnt (r : Option ModeReq) : (s.setModeReq r).cnt = s.cnt := rfl
@[simp] theorem State.setModeReq_fd (r : Option ModeReq) : (s.setModeReq r).fd = s.fd := rfl
@[simp] theorem State.setModeReq_td (r : Option ModeReq) : (s.setModeReq r).td = s.td := rfl

@[simp] theorem State.putPll_pwr (k : Nat) (x : Pll) : (s.putPll k x).pwr = { s.pwr with plls := tset dflt s.pwr.plls k x } := rfl
@[simp] theorem State.putPll_pending (k : Nat) (x : Pll) : (s.putPll k x).pending = s.pending := rfl
@[simp] theorem State.putPll_free (k : Nat) (x : Pll) : (s.putPll k x).free = s.free := rfl
@[simp] theorem State.putPll_cfg (k : Nat) (x : Pll) : (s.putPll k x).cfg = s.cfg := rfl
@[simp] theorem State.putPll_time (k : Nat) (x : Pll) : (s.putPll k x).time = s.time := rfl
@[simp] theorem State.putPll_ev (k : Nat) (x : Pll) : (s.putPll k x).ev = s.ev := rfl
@[simp] theorem State.putPll_host (k : Nat) (x : Pll) : (s.putPll k x).host = s.host := rfl
@[simp] theorem State.putPll_wr (k : Nat) (x : Pll) : (s.putPll k x).wr = s.wr := rfl
@[simp] theorem State.putPll_pins (k : Nat) (x : Pll) : (s.putPll k x).pins = s.pins := rfl
@[simp] theorem State.putPll_fw (k : Nat) (x : Pll) : (s.putPll k x).fw = s.fw := rfl
@[simp] theorem State.putPll_store (k : Nat) (x : Pll) : (s.putPll k x).store = s.store := rfl
@[simp] theorem State.putPll_mem (k : Nat) (x : Pll) : (s.putPll k x).mem = s.mem := rfl
@[simp] theorem State.putPll_spares (k : Nat) (x : Pll) : (s.putPll k x).spares = s.spares := rfl
@[simp] theorem State.putPll_pair (k : Nat) (x : Pll) : (s.putPll k x).pair = s.pair := rfl
@[simp] theorem State.putPll_test (k : Nat) (x : Pll) : (s.putPll k x).test = s.test := rfl
@[simp] theorem State.putPll_line (k : Nat) (x : Pll) : (s.putPll k x).line = s.line := rfl
@[simp] theorem State.putPll_oam (k : Nat) (x : Pll) : (s.putPll k x).oam = s.oam := rfl
@[simp] theorem State.putPll_cnt (k : Nat) (x : Pll) : (s.putPll k x).cnt = s.cnt := rfl
@[simp] theorem State.putPll_fd (k : Nat) (x : Pll) : (s.putPll k x).fd = s.fd := rfl
@[simp] theorem State.putPll_td (k : Nat) (x : Pll) : (s.putPll k x).td = s.td := rfl

@[simp] theorem State.putRail_pwr (k : Nat) (x : Rail) : (s.putRail k x).pwr = { s.pwr with rails := tset dflt s.pwr.rails k x } := rfl
@[simp] theorem State.putRail_pending (k : Nat) (x : Rail) : (s.putRail k x).pending = s.pending := rfl
@[simp] theorem State.putRail_free (k : Nat) (x : Rail) : (s.putRail k x).free = s.free := rfl
@[simp] theorem State.putRail_cfg (k : Nat) (x : Rail) : (s.putRail k x).cfg = s.cfg := rfl
@[simp] theorem State.putRail_time (k : Nat) (x : Rail) : (s.putRail k x).time = s.time := rfl
@[simp] theorem State.putRail_ev (k : Nat) (x : Rail) : (s.putRail k x).ev = s.ev := rfl
@[simp] theorem State.putRail_host (k : Nat) (x : Rail) : (s.putRail k x).host = s.host := rfl
@[simp] theorem State.putRail_wr (k : Nat) (x : Rail) : (s.putRail k x).wr = s.wr := rfl
@[simp] theorem State.putRail_pins (k : Nat) (x : Rail) : (s.putRail k x).pins = s.pins := rfl
@[simp] theorem State.putRail_fw (k : Nat) (x : Rail) : (s.putRail k x).fw = s.fw := rfl
@[simp] theorem State.putRail_store (k : Nat) (x : Rail) : (s.putRail k x).store = s.store := rfl
@[simp] theorem State.putRail_mem (k : Nat) (x : Rail) : (s.putRail k x).mem = s.mem := rfl
@[simp] theorem State.putRail_spares (k : Nat) (x : Rail) : (s.putRail k x).spares = s.spares := rfl
@[simp] theorem State.putRail_pair (k : Nat) (x : Rail) : (s.putRail k x).pair = s.pair := rfl
@[simp] theorem State.putRail_test (k : Nat) (x : Rail) : (s.putRail k x).test = s.test := rfl
@[simp] theorem State.putRail_line (k : Nat) (x : Rail) : (s.putRail k x).line = s.line := rfl
@[simp] theorem State.putRail_oam (k : Nat) (x : Rail) : (s.putRail k x).oam = s.oam := rfl
@[simp] theorem State.putRail_cnt (k : Nat) (x : Rail) : (s.putRail k x).cnt = s.cnt := rfl
@[simp] theorem State.putRail_fd (k : Nat) (x : Rail) : (s.putRail k x).fd = s.fd := rfl
@[simp] theorem State.putRail_td (k : Nat) (x : Rail) : (s.putRail k x).td = s.td := rfl

@[simp] theorem State.putStack_mem (m : Nat) (k : Stack) : (s.putStack m k).mem = { s.mem with hbm := tset restStack s.mem.hbm m k } := rfl
@[simp] theorem State.putStack_pending (m : Nat) (k : Stack) : (s.putStack m k).pending = s.pending := rfl
@[simp] theorem State.putStack_free (m : Nat) (k : Stack) : (s.putStack m k).free = s.free := rfl
@[simp] theorem State.putStack_cfg (m : Nat) (k : Stack) : (s.putStack m k).cfg = s.cfg := rfl
@[simp] theorem State.putStack_time (m : Nat) (k : Stack) : (s.putStack m k).time = s.time := rfl
@[simp] theorem State.putStack_ev (m : Nat) (k : Stack) : (s.putStack m k).ev = s.ev := rfl
@[simp] theorem State.putStack_host (m : Nat) (k : Stack) : (s.putStack m k).host = s.host := rfl
@[simp] theorem State.putStack_wr (m : Nat) (k : Stack) : (s.putStack m k).wr = s.wr := rfl
@[simp] theorem State.putStack_pwr (m : Nat) (k : Stack) : (s.putStack m k).pwr = s.pwr := rfl
@[simp] theorem State.putStack_pins (m : Nat) (k : Stack) : (s.putStack m k).pins = s.pins := rfl
@[simp] theorem State.putStack_fw (m : Nat) (k : Stack) : (s.putStack m k).fw = s.fw := rfl
@[simp] theorem State.putStack_store (m : Nat) (k : Stack) : (s.putStack m k).store = s.store := rfl
@[simp] theorem State.putStack_spares (m : Nat) (k : Stack) : (s.putStack m k).spares = s.spares := rfl
@[simp] theorem State.putStack_pair (m : Nat) (k : Stack) : (s.putStack m k).pair = s.pair := rfl
@[simp] theorem State.putStack_test (m : Nat) (k : Stack) : (s.putStack m k).test = s.test := rfl
@[simp] theorem State.putStack_line (m : Nat) (k : Stack) : (s.putStack m k).line = s.line := rfl
@[simp] theorem State.putStack_oam (m : Nat) (k : Stack) : (s.putStack m k).oam = s.oam := rfl
@[simp] theorem State.putStack_cnt (m : Nat) (k : Stack) : (s.putStack m k).cnt = s.cnt := rfl
@[simp] theorem State.putStack_fd (m : Nat) (k : Stack) : (s.putStack m k).fd = s.fd := rfl
@[simp] theorem State.putStack_td (m : Nat) (k : Stack) : (s.putStack m k).td = s.td := rfl

@[simp] theorem State.putImage_fw (k : Nat) (i : Image) : (s.putImage k i).fw = { s.fw with images := tset dflt s.fw.images k i } := rfl
@[simp] theorem State.putImage_pending (k : Nat) (i : Image) : (s.putImage k i).pending = s.pending := rfl
@[simp] theorem State.putImage_free (k : Nat) (i : Image) : (s.putImage k i).free = s.free := rfl
@[simp] theorem State.putImage_cfg (k : Nat) (i : Image) : (s.putImage k i).cfg = s.cfg := rfl
@[simp] theorem State.putImage_time (k : Nat) (i : Image) : (s.putImage k i).time = s.time := rfl
@[simp] theorem State.putImage_ev (k : Nat) (i : Image) : (s.putImage k i).ev = s.ev := rfl
@[simp] theorem State.putImage_host (k : Nat) (i : Image) : (s.putImage k i).host = s.host := rfl
@[simp] theorem State.putImage_wr (k : Nat) (i : Image) : (s.putImage k i).wr = s.wr := rfl
@[simp] theorem State.putImage_pwr (k : Nat) (i : Image) : (s.putImage k i).pwr = s.pwr := rfl
@[simp] theorem State.putImage_pins (k : Nat) (i : Image) : (s.putImage k i).pins = s.pins := rfl
@[simp] theorem State.putImage_store (k : Nat) (i : Image) : (s.putImage k i).store = s.store := rfl
@[simp] theorem State.putImage_mem (k : Nat) (i : Image) : (s.putImage k i).mem = s.mem := rfl
@[simp] theorem State.putImage_spares (k : Nat) (i : Image) : (s.putImage k i).spares = s.spares := rfl
@[simp] theorem State.putImage_pair (k : Nat) (i : Image) : (s.putImage k i).pair = s.pair := rfl
@[simp] theorem State.putImage_test (k : Nat) (i : Image) : (s.putImage k i).test = s.test := rfl
@[simp] theorem State.putImage_line (k : Nat) (i : Image) : (s.putImage k i).line = s.line := rfl
@[simp] theorem State.putImage_oam (k : Nat) (i : Image) : (s.putImage k i).oam = s.oam := rfl
@[simp] theorem State.putImage_cnt (k : Nat) (i : Image) : (s.putImage k i).cnt = s.cnt := rfl
@[simp] theorem State.putImage_fd (k : Nat) (i : Image) : (s.putImage k i).fd = s.fd := rfl
@[simp] theorem State.putImage_td (k : Nat) (i : Image) : (s.putImage k i).td = s.td := rfl

@[simp] theorem State.putSession_fw (o : Nat) (x : Option Session) : (s.putSession o x).fw = { s.fw with sessions := tset none0 s.fw.sessions o x } := rfl
@[simp] theorem State.putSession_pending (o : Nat) (x : Option Session) : (s.putSession o x).pending = s.pending := rfl
@[simp] theorem State.putSession_free (o : Nat) (x : Option Session) : (s.putSession o x).free = s.free := rfl
@[simp] theorem State.putSession_cfg (o : Nat) (x : Option Session) : (s.putSession o x).cfg = s.cfg := rfl
@[simp] theorem State.putSession_time (o : Nat) (x : Option Session) : (s.putSession o x).time = s.time := rfl
@[simp] theorem State.putSession_ev (o : Nat) (x : Option Session) : (s.putSession o x).ev = s.ev := rfl
@[simp] theorem State.putSession_host (o : Nat) (x : Option Session) : (s.putSession o x).host = s.host := rfl
@[simp] theorem State.putSession_wr (o : Nat) (x : Option Session) : (s.putSession o x).wr = s.wr := rfl
@[simp] theorem State.putSession_pwr (o : Nat) (x : Option Session) : (s.putSession o x).pwr = s.pwr := rfl
@[simp] theorem State.putSession_pins (o : Nat) (x : Option Session) : (s.putSession o x).pins = s.pins := rfl
@[simp] theorem State.putSession_store (o : Nat) (x : Option Session) : (s.putSession o x).store = s.store := rfl
@[simp] theorem State.putSession_mem (o : Nat) (x : Option Session) : (s.putSession o x).mem = s.mem := rfl
@[simp] theorem State.putSession_spares (o : Nat) (x : Option Session) : (s.putSession o x).spares = s.spares := rfl
@[simp] theorem State.putSession_pair (o : Nat) (x : Option Session) : (s.putSession o x).pair = s.pair := rfl
@[simp] theorem State.putSession_test (o : Nat) (x : Option Session) : (s.putSession o x).test = s.test := rfl
@[simp] theorem State.putSession_line (o : Nat) (x : Option Session) : (s.putSession o x).line = s.line := rfl
@[simp] theorem State.putSession_oam (o : Nat) (x : Option Session) : (s.putSession o x).oam = s.oam := rfl
@[simp] theorem State.putSession_cnt (o : Nat) (x : Option Session) : (s.putSession o x).cnt = s.cnt := rfl
@[simp] theorem State.putSession_fd (o : Nat) (x : Option Session) : (s.putSession o x).fd = s.fd := rfl
@[simp] theorem State.putSession_td (o : Nat) (x : Option Session) : (s.putSession o x).td = s.td := rfl

@[simp] theorem State.putPrbs_test (t u : Nat) (x : Prbs) : (s.putPrbs t u x).test = { s.test with prbs := tset dflt s.test.prbs (t * 512 + u) x } := rfl
@[simp] theorem State.putPrbs_pending (t u : Nat) (x : Prbs) : (s.putPrbs t u x).pending = s.pending := rfl
@[simp] theorem State.putPrbs_free (t u : Nat) (x : Prbs) : (s.putPrbs t u x).free = s.free := rfl
@[simp] theorem State.putPrbs_cfg (t u : Nat) (x : Prbs) : (s.putPrbs t u x).cfg = s.cfg := rfl
@[simp] theorem State.putPrbs_time (t u : Nat) (x : Prbs) : (s.putPrbs t u x).time = s.time := rfl
@[simp] theorem State.putPrbs_ev (t u : Nat) (x : Prbs) : (s.putPrbs t u x).ev = s.ev := rfl
@[simp] theorem State.putPrbs_host (t u : Nat) (x : Prbs) : (s.putPrbs t u x).host = s.host := rfl
@[simp] theorem State.putPrbs_wr (t u : Nat) (x : Prbs) : (s.putPrbs t u x).wr = s.wr := rfl
@[simp] theorem State.putPrbs_pwr (t u : Nat) (x : Prbs) : (s.putPrbs t u x).pwr = s.pwr := rfl
@[simp] theorem State.putPrbs_pins (t u : Nat) (x : Prbs) : (s.putPrbs t u x).pins = s.pins := rfl
@[simp] theorem State.putPrbs_fw (t u : Nat) (x : Prbs) : (s.putPrbs t u x).fw = s.fw := rfl
@[simp] theorem State.putPrbs_store (t u : Nat) (x : Prbs) : (s.putPrbs t u x).store = s.store := rfl
@[simp] theorem State.putPrbs_mem (t u : Nat) (x : Prbs) : (s.putPrbs t u x).mem = s.mem := rfl
@[simp] theorem State.putPrbs_spares (t u : Nat) (x : Prbs) : (s.putPrbs t u x).spares = s.spares := rfl
@[simp] theorem State.putPrbs_pair (t u : Nat) (x : Prbs) : (s.putPrbs t u x).pair = s.pair := rfl
@[simp] theorem State.putPrbs_line (t u : Nat) (x : Prbs) : (s.putPrbs t u x).line = s.line := rfl
@[simp] theorem State.putPrbs_oam (t u : Nat) (x : Prbs) : (s.putPrbs t u x).oam = s.oam := rfl
@[simp] theorem State.putPrbs_cnt (t u : Nat) (x : Prbs) : (s.putPrbs t u x).cnt = s.cnt := rfl
@[simp] theorem State.putPrbs_fd (t u : Nat) (x : Prbs) : (s.putPrbs t u x).fd = s.fd := rfl
@[simp] theorem State.putPrbs_td (t u : Nat) (x : Prbs) : (s.putPrbs t u x).td = s.td := rfl

@[simp] theorem State.putOam_oam (k : Nat) (r : OamRun) : (s.putOam k r).oam = { s.oam with runs := tset dflt s.oam.runs k r } := rfl
@[simp] theorem State.putOam_pending (k : Nat) (r : OamRun) : (s.putOam k r).pending = s.pending := rfl
@[simp] theorem State.putOam_free (k : Nat) (r : OamRun) : (s.putOam k r).free = s.free := rfl
@[simp] theorem State.putOam_cfg (k : Nat) (r : OamRun) : (s.putOam k r).cfg = s.cfg := rfl
@[simp] theorem State.putOam_time (k : Nat) (r : OamRun) : (s.putOam k r).time = s.time := rfl
@[simp] theorem State.putOam_ev (k : Nat) (r : OamRun) : (s.putOam k r).ev = s.ev := rfl
@[simp] theorem State.putOam_host (k : Nat) (r : OamRun) : (s.putOam k r).host = s.host := rfl
@[simp] theorem State.putOam_wr (k : Nat) (r : OamRun) : (s.putOam k r).wr = s.wr := rfl
@[simp] theorem State.putOam_pwr (k : Nat) (r : OamRun) : (s.putOam k r).pwr = s.pwr := rfl
@[simp] theorem State.putOam_pins (k : Nat) (r : OamRun) : (s.putOam k r).pins = s.pins := rfl
@[simp] theorem State.putOam_fw (k : Nat) (r : OamRun) : (s.putOam k r).fw = s.fw := rfl
@[simp] theorem State.putOam_store (k : Nat) (r : OamRun) : (s.putOam k r).store = s.store := rfl
@[simp] theorem State.putOam_mem (k : Nat) (r : OamRun) : (s.putOam k r).mem = s.mem := rfl
@[simp] theorem State.putOam_spares (k : Nat) (r : OamRun) : (s.putOam k r).spares = s.spares := rfl
@[simp] theorem State.putOam_pair (k : Nat) (r : OamRun) : (s.putOam k r).pair = s.pair := rfl
@[simp] theorem State.putOam_test (k : Nat) (r : OamRun) : (s.putOam k r).test = s.test := rfl
@[simp] theorem State.putOam_line (k : Nat) (r : OamRun) : (s.putOam k r).line = s.line := rfl
@[simp] theorem State.putOam_cnt (k : Nat) (r : OamRun) : (s.putOam k r).cnt = s.cnt := rfl
@[simp] theorem State.putOam_fd (k : Nat) (r : OamRun) : (s.putOam k r).fd = s.fd := rfl
@[simp] theorem State.putOam_td (k : Nat) (r : OamRun) : (s.putOam k r).td = s.td := rfl

end Sys2Proof.Machine
end

