-- ==== Sys2Proof/Tests/Slice0.lean ====
section
/-! SUPPORT. The model's own tests: ill-formed operands that the check refuses, single steps with results worked out from the
spec's words and tables, and for each statement of the row a state and operands that meet its hypotheses. -/

namespace Sys2Proof.Tests

open Sys2Proof Sys2Proof.Machine

set_option Elab.async false

/-! ## States and operands of the tests -/

/-- The state after reset. -/
abbrev s0 : State := State.reset

/-- A state in a mode. -/
def inMode (m : Mode) : State := { s0 with pwr := { s0.pwr with mode := m } }

/-- A header from ring 0 with PRIV 1 and a target. -/
def hdr (die slice : Nat) : Hdr := ⟨.ring 0, 0, 0, 1, false, false, BitVec.ofNat 2 die, BitVec.ofNat 6 slice, 0⟩

/-- Die-wide headers. -/
abbrev hDev : Hdr := hdr 0 0x3F
abbrev hFd : Hdr := hdr 1 0x3F
abbrev hTd : Hdr := hdr 2 0x3F

/-- A thread at address 0x1000. -/
def th : Thread := { (default : Thread) with id := 1, pc := 0x1000, regs := List.replicate 16 5#64, inputs := [(0, 9#64)] }

/-- An instruction of thread 1 without faults. -/
def insn (i : Bool) (imm : Word) : ActOp := ⟨1, true, 2, 3, 4, i, imm, ⟨none, false, false, false⟩⟩

/-- A state in which thread `t` runs and one word stands in the control store. -/
def running (t : Thread) (w : Word64) : State :=
  { s0 with fd := { s0.fd with eng := { s0.fd.eng with threads := [t] } },
            cfg := { s0.cfg with fd := { s0.cfg.fd with words := [(0x1000, w)] } } }

/-! ## Witnesses of the hypotheses: threads -/

/-- A thread with an instruction's word at its place meets what `Fetches` asks. -/
theorem test_fetches_met :
    (∀ opc ∈ [0x01, 0x02, 0x03, 0x04, 0x05, 0x06, 0x07, 0x08, 0x09, 0x0A, 0x0B, 0x10, 0x11, 0x12, 0x13, 0x14, 0x18, 0x19, 0x1A,
        0x1B, 0x20, 0x21, 0x22, 0x28, 0x29, 0x2A, 0x30, 0x31, 0x32],
      Fetches opc (insn false 0) 2 1 th (running th (insnWord (insn false 0) opc))) := by
  simp only [Fetches]; decide +kernel

/-- An instruction that thread `th` fetches and issues, and the state. -/
def issues (opc : Nat) (x : ActOp) (cost looks : Nat) (t : Thread) : Prop := Fetches opc x cost looks t (running t (insnWord x opc))

/-- An egress thread. -/
def thEg : Thread := { th with eg := some default }

theorem test_ThreadFieldsComplete_met :
    (issues 0x18 (insn false 0) 1 0 th ∧ bits (insn false 0).imm 7 0 < 0x20 ∧ bits (insn false 0).imm 7 0 ≠ 0x0B ∧
      tfind th.inputs (bits (insn false 0).imm 7 0) = some 9#64) ∧
    (issues 0x18 (insn false 0x0B) 1 0 th ∧ bits (insn false 0x0B).imm 7 0 = 0x0B) ∧
    (th.eg = none ∧ issues 0x19 (insn false 0x20) 1 0 th ∧ bits (insn false 0x20).imm 7 0 = 0x20 ∧
      issues 0x19 (insn false 0x22) 1 0 th ∧ bits (insn false 0x22).imm 7 0 = 0x22 ∧
      issues 0x19 (insn false 0x1F) 1 0 th ∧ bits (insn false 0x1F).imm 7 0 < 0x20) ∧
    issues 0x29 (insn false 0) 1 0 th ∧
    (issues 0x2A (insn false 0) 1 0 thEg ∧ thEg.eg.isSome = true ∧ thEg.edits.length < 8) ∧
    (issues 0x30 (insn false 0x40) 1 0 th ∧ bit (insn false 0x40).imm 6 = true) := by
  simp only [issues, Fetches]; decide +kernel

theorem test_ThreadControlCompletes_met :
    (∀ opc ∈ [0x10, 0x11, 0x12, 0x13, 0x14], issues opc (insn false 0) 2 0 th ∧ issues opc (insn true 0x00060000) 1 0 th) ∧
    th.reg (insn false 0).a = th.reg (insn false 0).b ∧ th.reg (insn true 0x00060000).a < BitVec.ofNat 64 (bits 0x00060000#32 31 16) ∧
    (BitVec.ofNat 64 (bits 0x00040000#32 31 16)) < th.reg (insn true 0x00040000).a ∧
    (issues 0x31 (insn false 0) 1 0 thEg ∧ thEg.eg.isSome = true) ∧ issues 0x32 (insn false 0) 1 0 th ∧
    (issues 0x30 (insn false 0x3F) 1 0 th ∧ bit (insn false 0x3F).imm 6 = false) := by
  simp only [issues, Fetches]; decide +kernel

theorem test_ThreadFaults_met :
    (let x := insn false 0; let t := { th with cycles := 1024 }; let s := running t (insnWord x 0x01)
     s.ready x.thread = some t ∧ x.parity = true ∧ s.codeWord t.pc = insnWord x 0x01 ∧ 1024 ≤ t.cycles) ∧
    (let x := insn false 0; let t := { th with looks := 8 }; let s := running t (insnWord x 0x20); let u := running t (insnWord x 0x28)
     s.ready x.thread = some t ∧ s.codeWord t.pc = insnWord x 0x20 ∧ t.cycles + 2 ≤ 1024 ∧ 8 ≤ t.looks ∧
     u.ready x.thread = some t ∧ u.codeWord t.pc = insnWord x 0x28) ∧
    (issues 0x2A (insn false 0) 1 0 th ∧ th.eg = none) ∧
    (issues 0x31 (insn false 0) 1 0 th ∧ th.queue = none) ∧
    (let t := { thEg with edits := List.replicate 8 ⟨0, 0, 0, []⟩ }; issues 0x2A (insn false 0) 1 0 t ∧ t.eg.isSome = true ∧ 8 ≤ t.edits.length) ∧
    (let x := { insn false 0 with parity := false }; let s := running th (insnWord x 0x01)
     s.ready x.thread = some th ∧ x.parity = false) ∧
    s0.fd.eng.mchk.contains 0 = false ∧ tget (fun _ => none) s0.fd.eng.rewriting 0 = none := by
  simp only [issues, Fetches]; decide +kernel

/-- An exact-match entry under the key of zero bytes, in the first way of its first candidate bucket. -/
def xEnt : XEnt := { (default : XEnt) with key := List.replicate 16 0, learned := true, portv := true, port := 3 }

/-- The place of `xEnt` in cluster `c`. -/
def xPlace (c : Nat) : Nat := xBase c + (s0.cand false 0 (List.replicate 16 0)).1 * 4

/-- An entry of chain 0 that every key fits. -/
def aEnt : AEnt := ⟨5, 9, 0, 0, 0xFFFFF000000#64⟩

/-- Tables that hold one entry each. -/
def hits : State :=
  { s0 with cfg := { s0.cfg with fd := { s0.cfg.fd with
      exact := [(xPlace 0, { xEnt with result := 0xFFFFF000000#64 })]
      lpm := [(routeKey false 0 0 0, 0xFFFFF000000#64)]
      chains := [(0, ⟨true, 0, 0, 0⟩)]
      asc := [(0, aEnt)]
      rules := { s0.cfg.fd.rules with regs := [(0x7F090100, 0x00010000#32)] } } } }

/-- Each kind of lookup finds the one entry of its table, and a meter answers a colour. -/
theorem test_ThreadLookupsComplete_met :
    (∀ opc ∈ [0x20, 0x21, 0x22, 0x28], issues opc (insn false 0) 2 1 th) ∧
    (∃ st v, (hits.exactLookup 0 0 0 0 (List.replicate 16 0) false false).1 = .val st v ∧ bits st 1 0 = 0) ∧
    (∃ st v, (hits.lpmLookup 0 (0x40#8 :: List.replicate 16 0) false none).1 = .val st v ∧ bits st 1 0 = 0) ∧
    (∃ st v, (hits.ascLookup hits.cfg.fd.rules 0 (List.replicate 80 0) false false).1 = .val st v ∧ bits st 1 0 = 0) ∧
    (let t := { th with wait := some ⟨2, 7#64, none, some 1⟩ }; (running t 0).thread 1 = some t ∧ t.wait.isSome = true) := by
  refine ⟨?_, ⟨0x100#64, 0xFFFFF000000#64, ?_, by decide⟩, ⟨0, 0xFFFFF000000#64, ?_, by decide⟩,
    ⟨0x90000#64, 0xFFFFF000000#64, ?_, by decide⟩, ?_⟩ <;> (try simp only [issues, Fetches]) <;> decide +kernel

/-! ## Witnesses: rule versions and control stores -/

/-- A state with an open transaction in bank 1 for version 7, and the same with its switch due. -/
def staged : State := { s0 with fd := { s0.fd with rules := { s0.fd.rules with stage := some (1, { s0.cfg.fd.rules with version := 7 }) } } }
def stagedDue : State := { staged with fd := { staged.fd with rules := { staged.fd.rules with sched := some 0 } } }

theorem test_RuleVersionsComplete_met :
    fdWide hFd = true ∧ s0.slipOrQuiet = false ∧ staged.slipOrQuiet = false ∧ hFd.priv ≠ 2 ∧
    (let p : List Word := [0x00070000]
     p.length = 1 ∧ pf p 0 15 0 = 0 ∧ s0.mirrorRefuses 0xD00 hFd = false ∧ s0.fd.rules.stage = none ∧ s0.freeBank = some 1) ∧
    (let p : List Word := [0x40000FFF, 1, 5]
     pf p 0 31 28 = 4 ∧ objShape 4 = some (4096, 1) ∧ pf p 0 27 13 = 0 ∧ pf p 0 12 0 + (par p 1).toNat ≤ 4096 ∧
     p.length = 2 + (par p 1).toNat * 1 ∧ ((cutObjs 1 (par p 1).toNat (p.drop 2)).all (objOk 4)) = true ∧
     staged.fd.rules.stage.isSome = true ∧ staged.fd.rules.sched = none ∧ staged.mirrorRefuses 0xD01 hFd = false) ∧
    (let p : List Word := [0x00070000, 1, 0]; let q : List Word := [0x00070000, 0, 0]
     p.length = 3 ∧ pf p 0 15 0 = 0 ∧ staged.fd.rules.stage.map (·.2.version) = some (pf p 0 31 16) ∧ staged.verUsed 7 = false ∧
     staged.fd.rules.sched = none ∧ staged.nearActivation (par64 p 1) = false ∧ staged.nearActivation (par64 q 1) = false ∧
     staged.mirrorRefuses 0xD02 hFd = false ∧ staged.reached (par64 p 1) = false ∧ staged.reached (par64 q 1) = true) ∧
    s0.mirrorRefuses 0xD03 hFd = false ∧ stagedDue.fd.rules.sched = some 0 ∧ stagedDue.reached 0 = true := by
  decide +kernel

/-- A rollout at step 0, in a stage. -/
def rollAt (stage : Nat) : State := { s0 with fd := { s0.fd with eng := { s0.fd.eng with roll := some ⟨0, 0, stage, 0, 9, []⟩ } } }
/-- The reset state with domains on. -/
def lit (ds : List Nat) : State := ds.foldl (fun s d => s.setDomain d 0) s0
/-- Slice 0's engines without spares, its halves on. -/
def spent : State := { lit [14, 15] with fd := { s0.fd with eng := { s0.fd.eng with eng := [(0, ⟨0, 32, 8⟩)] } } }

theorem test_ControlStoreCompletes_met :
    (let p : List Word := [0xBC000001, 0x32000000, 0]
     pf p 0 12 0 = 1 ∧ 1 ≤ 4096 ∧ pf p 0 31 26 = 47 ∧ p.length = 1 + 2 * 1 ∧ pf p 0 25 13 = 0 ∧ 47 + (1 + 255) / 256 ≤ 48 ∧
     ((pairWords (p.drop 1)).all (s0.insnOk (0x1000 + 256 * 47) 1)) = true ∧
     ((s0.progHits 47 (pagesOf 1)).any s0.progUsed) = false ∧ s0.mirrorRefuses 0xD20 hFd = false) ∧
    (let p : List Word := [0xFE000080]
     p.length = 1 ∧ pf p 0 17 8 = 0 ∧ 0 < pf p 0 7 0 ∧ pf p 0 7 0 ≤ 128 ∧ 0x1000 ≤ pf p 0 31 18 ∧
     pf p 0 31 18 + pf p 0 7 0 ≤ 0x4000 ∧ s0.mirrorRefuses 0xD21 hFd = false) ∧
    (let s := lit [14, 15]; s.domain (ingressDomain (s.physOf 0)) = 0 ∧ parityOk (0xF0000000000000000 : BitVec 68) = true ∧ parityOk 0 = false) ∧
    (let s := lit [14, 15]
     s.hasPhys 0 = true ∧ s.domain (ingressDomain (s.physOf 0) + b01 true) = 0 ∧ 0 < (s.engOf (s.physOf 0)).spares) ∧
    (spent.hasPhys 0 = true ∧ spent.domain (ingressDomain (spent.physOf 0) + b01 true) = 0 ∧ (spent.engOf (spent.physOf 0)).spares = 0) ∧
    (let s := rollAt 0
     s.fd.eng.roll = some ⟨0, 0, 0, 0, 9, []⟩ ∧ (0#64).toNat + 0 * 2500000 ≤ s.now.toNat ∧ s.fd.gang.moves.any (·.drain) = false ∧ s.hasPhys 0 = true ∧ s.mcseq (s.physOf 0) ≠ 9 ∧
     s.sliceSt 0 ≠ 1 ∧ s.sliceSt 0 ≠ 2 ∧ s.spareSlice = true) ∧
    (let s := rollAt 1
     s.fd.eng.roll = some ⟨0, 0, 1, 0, 9, []⟩ ∧ s.halvesEmpty 0 = true ∧ s.fd.gang.rollHeld = [] ∧ s.spareSlice = true) ∧
    ((rollAt 2).fd.eng.roll = some ⟨0, 0, 2, 0, 9, []⟩ ∧ 0 < 15) := by
  (repeat' with_reducible apply And.intro) <;> decide +kernel

/-! ## Witnesses: lookup tables -/

/-- Three words of a record: its head and a key of zeros. -/
def rec0 (head : Word) : List Word := [head, 0, 0, 0, 0]
/-- A result word of NHI 0. -/
def resWords : List Word := [0x00000FFF, 0xFF000000]

theorem test_ExactCommandsComplete_met :
    (let p : List Word := 0x41000000 :: rec0 0 ++ resWords
     tblRecords true p = some [rec0 0 ++ resWords] ∧ clustersOf (pf p 0 31 30) = [0] ∧ s0.mirrorRefuses 0x200 hFd = false ∧
     (∃ t k, insertRecord [0] (rec0 0 ++ resWords) s0 = .ok (t, k)) ∧
     insertRecord [0] (rec0 0 ++ [0, 0]) s0 = .error (codeMismatch, s0)) ∧
    (let p : List Word := 0x41000000 :: rec0 0
     tblRecords false p = some [rec0 0] ∧ pf p 0 31 30 = 1 ∧ s0.mirrorRefuses 0x201 hFd = false ∧
     (hits.xFind 0 0 false (recKey (rec0 0) false)).isSome = true ∧ (hits.cluster 0).hides xEnt = false ∧
     s0.xFind 0 (pf (rec0 0) 0 31 26) (bit (par (rec0 0) 0) 25) (recKey (rec0 0) (bit (par (rec0 0) 0) 25)) = none) ∧
    (let p : List Word := 0x80000000 :: rec0 0
     cutRecords (tblLen false) 1 (p.drop 1) = some [rec0 0] ∧ pf p 0 29 0 = 0 ∧ pf p 0 31 30 = 2 ∧
     s0.mirrorRefuses 0x202 hFd = false) ∧
    (let p : List Word := [0x48002000]
     pf p 0 31 30 = 1 ∧ pf p 0 15 8 ≤ 32 ∧ 0 < pf p 0 15 8 ∧ pf p 0 17 16 = 0 ∧ pf p 0 7 0 = 0 ∧ bit (par p 0) 27 = true ∧
     s0.mirrorRefuses 0x203 hFd = false) ∧
    (let p : List Word := [0x7F800000]
     pf p 0 31 30 = 1 ∧ pf p 0 14 0 = 0 ∧ (s0.cluster 0).flushes.length < 8 ∧
     (s0.cluster 0).flushes.any (·.port == pf p 0 29 23) = false ∧ s0.mirrorRefuses 0x204 hFd = false) ∧
    (∀ m ∈ [0, 1], let p : List Word := [BitVec.ofNat 32 (m * 2 ^ 30)]
     pf p 0 22 0 = 0 ∧ s0.fd.look.sync = none ∧ s0.mirrorRefuses 0x205 hFd = false ∧ pf p 0 31 30 = m) := by
  refine ⟨⟨by decide +kernel, by decide +kernel, by decide +kernel, ⟨_, _, rfl⟩, by rfl⟩, ?_⟩
  decide +kernel

/-- A state whose cluster 0 is given. -/
def withCluster (k : Cluster) (s : State) : State := s.setCluster 0 k

theorem test_ExactEngineCompletes_met :
    (let s := withCluster { (default : Cluster) with learns := [(false, xEnt)] } s0
     let f := (withCluster default s).learnEnt 0 xEnt false
     (s.cluster 0).learns = [(false, xEnt)] ∧ (f.2.xPut 0 f.1).isSome = true) ∧
    (let e := { xEnt with port := 4 }
     let s := withCluster { (default : Cluster) with learns := [(true, e)] } hits
     let f := (withCluster default s).learnEnt 0 e true
     (s.cluster 0).learns = [(true, e)] ∧ (f.2.xPut 0 f.1).isSome = true) ∧
    (let s := withCluster { (default : Cluster) with cross := [⟨false, xEnt⟩] } s0
     (s.cluster 0).cross = [⟨false, xEnt⟩] ∧ (withCluster default s).learnCase 0 xEnt = .write) ∧
    (let s := withCluster { (default : Cluster) with cross := [⟨true, xEnt⟩] } hits
     (s.cluster 0).cross = [⟨true, xEnt⟩] ∧
     (withCluster default s).xFind 0 0 false xEnt.key = some (xPlace 0, { xEnt with result := 0xFFFFF000000#64 })) ∧
    (let s := ({ hits with time := { hits.time with dev := 300000000000 } } : State).setDomain 5 0
     let u := s.ageFrom 0 0
     s.domain 5 = 0 ∧ s.ageDue 0 0 = true ∧ (hits.setDomain 5 0).ageDue 0 0 = false ∧
     u.ageKeys 0 0 = [(0, false, xEnt.key)] ∧ u.xFind 0 0 false xEnt.key = some (xPlace 0, { xEnt with result := 0xFFFFF000000#64 }) ∧
     xEnt.hit = false ∧ xEnt.strike = false) ∧
    (let s := withCluster { (default : Cluster) with iters := [(3, { (default : Iter) with inUse := true })] }
        { s0 with time := { s0.time with mono := 1000000000 } }
     (tget dflt (s.cluster 0).iters 3).inUse = true ∧ (tget dflt (s.cluster 0).iters 3).last + 1000000000 ≤ s.mono) ∧
    (let s := withCluster { (default : Cluster) with flushes := [⟨127, true, 0, false, 0, 1⟩] } s0
     s.flushOf 127 = some 1) ∧
    ({ s0 with fd := { s0.fd with look := { s0.fd.look with sync := some ⟨1, false, 0⟩ } } } : State).fd.look.sync
      = some ⟨1, false, 0⟩ := by
  decide +kernel

/-- A key whose entries fill the candidate buckets of `xEnt`, its own and the stash. -/
def fullKey : List Byte := 1 :: List.replicate 15 0
/-- Entries, wide ones in the buckets, that leave no room for `xEnt` in cluster 0. -/
def fullEnts : Tab XEnt :=
  let a := s0.cand false 0 xEnt.key
  let b := s0.cand true 0 fullKey
  let e : XEnt := { xEnt with wide := true, key := fullKey }
  ([a.1, a.2, b.1, b.2].flatMap (fun k => ((bucketPlaces 0 k).take 1) ++ ((bucketPlaces 0 k).drop 2).take 1) ++ (List.range 256).map (xStash 0 + ·)).map (·, e)
/-- Cluster 0 full. -/
def full : State := { s0 with cfg := { s0.cfg with fd := { s0.cfg.fd with exact := fullEnts } } }

theorem test_ExactEngineCompletes_full :
    let s := withCluster { (default : Cluster) with learns := [(false, xEnt)] } full
    let u := withCluster default s
    let f := u.learnEnt 0 xEnt false
    (s.cluster 0).learns = [(false, xEnt)] ∧ f.2.xPut 0 f.1 = none := by
  refine ⟨by decide +kernel, ?_⟩
  apply Option.not_isSome_iff_eq_none.mp
  decide +kernel

theorem test_LpmCommandsComplete_met :
    (let head : Word := 0x4FFF2000
     bits head 31 28 = 4 ∧ bits head 15 8 ≤ 32 ∧ bits head 7 0 = 0 ∧ s0.fd.look.rebuild = [] ∧
     resultOk (0x00000FFF#32 ++ 0xFF000000#32) = true ∧ lpmUnits s0.cfg.fd.lpm < 6291456 ∧ s0.mirrorRefuses 0x210 hFd = false ∧
     (let t := { s0 with cfg := { s0.cfg with fd := { s0.cfg.fd with lpm := [(routeKey false (bits head 27 16) 0x0A000000 32, 0)] } } }
      (tfind t.cfg.fd.lpm (routeKey false (bits head 27 16) 0x0A000000 (bits head 15 8))).isSome = true ∧
      t.mirrorRefuses 0x211 hFd = false)) ∧
    (let w : List Word := [0x01000000, 0x4FFF2000, 0x0A000000]
     let s : State := { s0 with fd := { s0.fd with look := { s0.fd.look with rebuild := [(4095, 4)], held := [⟨0x211, hFd, w⟩] } } }
     s.fd.look.rebuild = [(4095, 4)] ∧ s.fd.look.held = [⟨0x211, hFd, w⟩] ∧ s.fd.look.rebuild ≠ []) := by
  decide +kernel

/-! ## Witnesses: associative banks and berths -/

/-- Chain 1 disabled beside chain 0 with one entry. -/
def ascState (a : Asc) : State := hits.setAsc a
/-- A move of the entry at address 0 of chain 0 to address 1. -/
def moveRun : AscRun := ⟨⟨0x301, hFd, []⟩, [], 0, 0, [], ⟨0, aEnt, [0], 1⟩⟩
/-- An ASC_INSERT record of chain 0, PRI 7, handle 3, with any key. -/
def insRec : List Word := [3, 0x00070000] ++ List.replicate 10 0 ++ resWords

theorem test_TernaryTablesComplete_met :
    (hits.slipOrQuiet = false ∧ hits.asc.run = none ∧ hits.asc.waits = []) ∧
    (let r : List Word := 9 :: resWords; let p := 0x01000000#32 :: r
     pf p 0 31 24 = 1 ∧ pf p 0 23 0 = 0 ∧ cutRecords (ascLen 3) 1 (p.drop 1) = some [r] ∧ (hits.chain (pf r 0 31 28)).en = true ∧
     resultOk (par r 1 ++ par r 2) = true ∧ hits.byHandle (pf r 0 31 28) (pf r 0 15 0) = some (0, aEnt) ∧
     hits.mirrorRefuses 0x300 hFd = false) ∧
    (let p := 0x01000000#32 :: insRec
     p ≠ [] ∧ pf p 0 31 24 = 1 ∧ hits.cutInsert 1 (p.drop 1) = some [insRec] ∧ hits.mirrorRefuses 0x301 hFd = false ∧
     (match hits.insertOne insRec with | .ok (t, none, _) => t.asc.waits.isEmpty | _ => false) = true) ∧
    (let r : List Word := [9]; let p := 0x01000000#32 :: r
     cutRecords (ascLen 1) 1 (p.drop 1) = some [r] ∧ (hits.chain (pf r 0 31 28)).en = true ∧ hits.byHandle (pf r 0 31 28) (pf r 0 15 0) = some (0, aEnt) ∧
     hits.mirrorRefuses 0x302 hFd = false) ∧
    (let p := 0x02000001#32 :: List.replicate 20 0#32
     p.length = 21 ∧ pf p 0 24 16 = 0 ∧ bit (par p 0) 25 = true ∧ hits.mirrorRefuses 0x303 hFd = false) ∧
    (let p : List Word := [0x08000009]
     pf p 0 26 16 = 0 ∧ bit (par p 0) 27 = true ∧ hits.mirrorRefuses 0x304 hFd = false) ∧
    (let p : List Word := [0xFC1E0000]
     let k : ChainCfg := ⟨bit (par p 0) 27, pf p 0 26 25, pf p 0 24 21, pf p 0 20 15⟩
     pf p 0 31 28 = 15 ∧ pf p 0 14 0 = 0 ∧ k.width ≠ 3 ∧ k.first % k.w = 0 ∧ k.first + k.w * (k.depthM1 + 1) ≤ 64 ∧
     (∀ d < 16, d ≠ 15 → (hits.chain d).en = true → k.overlaps (hits.chain d) = false) ∧
     modeOpensStatic hits.pwr.mode = true ∧ hits.mirrorRefuses 0x305 hFd = false) ∧
    (let s := ascState { hits.asc with run := some moveRun }
     s.asc.run = some moveRun ∧ moveRun.move.path = [0] ∧ tfind s.ae (moveRun.move.chain * 65536 + 0) = some aEnt) ∧
    ((hits.setDomain 5 0).domain 5 = 0 ∧ (hits.setDomain 5 0).rowEnt 0 0 = some (0, 0, aEnt)) ∧
    (s0.asc.suspect.contains (63, 4095) = false ∧ s0.asc.spares ≠ [] ∧
     ({ s0 with time := { s0.time with dev := 3600000000000 } } : State).hour ≠ (tget (fun _ => ((0 : Nat), 0)) s0.asc.repairs 63).1) ∧
    (let s := ascState { hits.asc with swap := some 3 }; s.asc.swap = some 3 ∧ s.asc.spares = [64, 65, 66, 67]) := by
  (repeat' with_reducible apply And.intro) <;> decide +kernel

/-- The berths' state given. -/
def withBerths (b : Berths) : State := s0.setBerths b

theorem test_BerthsComplete_met :
    (let s := withBerths { s0.br with owner := [(7, 3, 0)] }
     s.br.ring.length < 32768 ∧ s.br.inQuar 7 = false ∧ tfind s.br.owner 7 = some (3, 0)) ∧
    (s0.br.ring.length < 32768 ∧ s0.br.inQuar 7 = false ∧ tfind s0.br.owner 7 = none ∧ s0.br.quar.length < 4096) ∧
    (let s := withBerths { s0.br with ring := [(7, 3, 3), (8, 3, 4)] }
     s.br.ring = [(7, 3, 3), (8, 3, 4)] ∧ s.br.inQuar 7 = false ∧ s.br.lost.contains 7 = false ∧ s.onLostPc 7 = false) ∧
    (let s := withBerths { s0.br with ring := [(8, 3, 4)] }
     s.br.ring = [(8, 3, 4)] ∧ s.br.inQuar 8 = false ∧ s.br.lost.contains 8 = false ∧ (4 : Nat) ≠ 3 ∧ s.br.quar.length < 4096) ∧
    (tdWide hTd = true ∧ hTd.priv ≠ 2 ∧ s0.pwr.mode = .boot ∧ s0.br.audit = 0 ∧ s0.mirrorRefuses 0x422 hTd = false) ∧
    (let s := withBerths { s0.br with audit := 1 }; s.br.audit = 1 ∧ s.queuesEmpty = true) ∧
    (withBerths { s0.br with audit := 2 }).br.audit = 2 ∧
    (let p : List Word := [0xFFF00000]; p.length = 1 ∧ pf p 0 19 0 = 0 ∧ s0.pwr.mode ≠ .slipway ∧ s0.mirrorRefuses 0x423 hTd = false) := by
  (repeat' with_reducible apply And.intro) <;> decide +kernel

/-! ## Witnesses: queues and the scheduler -/

/-- Ethernet on port 0 of channel 0; queue 0, group 0 and channel 0 enabled; the node of port 0 UP. -/
def busy : State :=
  let c : PortCfg := { (default : PortCfg) with up := true, type := 1, maxFrame := 2000 }
  { s0 with
    cfg := { s0.cfg with ports := [(0, some c)],
                         td := { s0.cfg.td with queues := [(0, ⟨true, 7, 0, 1, 0⟩)], groups := [(0, ⟨true, 0, 7, 1⟩)],
                                                chans := [(0, some ⟨true, 0, 7, 1⟩)] } },
    td := { s0.td with sched := { s0.td.sched with ports := [(0, { (default : PNode) with st := 0 })] } } }

/-- A packet for queue 0. -/
def tdPkt : TdPkt := { (default : TdPkt) with bytes := List.replicate 64 0#8, tail := some false }

/-- A queued packet in one SRAM berth. -/
def qEnt : QEnt := { (default : QEnt) with id := 3, pkt := tdPkt, len := 64, segs := [⟨7, 0, 3⟩] }

/-- Queue 0 as it runs. -/
def withQ (r : QRun) : State := busy.putQ 0 r
/-- One packet queued. -/
def queued : State := withQ { (default : QRun) with ents := [qEnt], depth := 64 }

theorem test_AdmissionTestsInOrder_met :
    s0.nodeOf 0 = none ∧ busy.nodeOf 0 = some 0 ∧
    (let p := { tdPkt with landed := true, tail := some true }; p.landed = true ∧ p.tail = some true) ∧
    (let s := busy.putPnode 0 { busy.pnode 0 with st := 2 }
     s.nodeOf 0 = some 0 ∧ tdPkt.tail ≠ some true ∧ 2 ≤ (s.pnode 0).st) ∧
    (busy.nodeOf 1 = some 0 ∧ (busy.pnode 0).st < 2 ∧ (busy.queueCfg 1).en = false) ∧
    (let s := withQ { (default : QRun) with ents := [qEnt], depth := 1048513 }
     s.nodeOf 0 = some 0 ∧ (s.pnode 0).st < 2 ∧ (s.queueCfg 0).en = true ∧ (s.qrun 0).ents ≠ [] ∧
     s.limit256 0 tdPkt.colour < ((s.qrun 0).depth + tdPkt.bytes.length) * 256) := by
  (repeat' with_reducible apply And.intro) <;> decide +kernel

/-- The trailer of DRAM berth 0x8000000 holding no data: no next berth, its complement, and its BCRC. -/
def goodTrailer : BitVec 128 :=
  let t : BitVec 128 := 0xFFFFFFF0000000000000000000000000#128
  t ||| (berthCrc 0x8000000 [] t).setWidth 128

/-- Queue 0 with one packet in the DRAM tier. -/
def inDram : State := withQ { (default : QRun) with ents := [{ qEnt with segs := [⟨0x8000000, 0, 3⟩] }] }
/-- The same with the staging area full for its slice. -/
def stageFull : State :=
  inDram.setBerths { inDram.br with staged := List.replicate 4096 9, owner := [(9, 0, 0)] }

/-- A packet that waits at its crossbar output. -/
def arriving (s : State) (p : TdPkt) : State := { s with td := { s.td with xb := { s.td.xb with arrived := [(0, [p])] } } }

theorem test_QueueAdmissionCompletes_met :
    (tget nil0 (arriving busy tdPkt).td.xb.arrived 0 = [tdPkt] ∧ tdPkt.mc = false ∧
      (busy.decide 0 tdPkt).1 = .ok false ∧
      ((busy.decide 0 tdPkt).2.enqueue 0 (chunksOf 64) 0 tdPkt none 0 false).isSome = true) ∧
    (let s : State := { busy with cfg := { busy.cfg with regs := [(0xBF220040, 0)] } }
     (s.decide 0 tdPkt).1 = .ok false ∧ ((s.decide 0 tdPkt).2.enqueue 0 (chunksOf 64) 0 tdPkt none 0 false).isSome = false) ∧
    (let s := busy.putPnode 0 { busy.pnode 0 with st := 2 }; (s.decide 0 tdPkt).1 = .drop 2) ∧
    { tdPkt with mc := true }.mc = true ∧ s0.fd.eng.tx = [] ∧
    (let s : State := { queued with time := { queued.time with mono := 1000000 } }
     s.mayPromote 0 = true ∧
     (s.qrun 0).ents.any (fun e => e.slot.isNone && e.born + s.promoAge ≤ s.mono && e.inDram + e.writing < chunksOf e.len) = true) ∧
    (let s := withQ { (default : QRun) with ents := [{ qEnt with marked := true }], urgent := true }
     let t : State := { s with cfg := { s.cfg with regs := [(0xBF220060, 0)] } }
     s.mayPromote 0 = true ∧ ((gather 32 (s.qrun 0).ents).map (·.2)).sum ≠ 0 ∧ (s.qrun 0).urgent = true ∧
     (s.allocBerth (sliceOfQ 0) (bits (s.prof 0 0) 3 0) 0).1.isSome = true ∧
     t.mayPromote 0 = true ∧ (t.qrun 0).urgent = true ∧ (t.allocBerth (sliceOfQ 0) (bits (t.prof 0 0) 3 0) 0).1.isSome = false) ∧
    (let s := withQ { (default : QRun) with writes := [⟨262144, [], 0⟩] }; (s.qrun 0).writes = [⟨262144, [], 0⟩]) ∧
    (let t : BitVec 128 := 0xFFFFFFF0000000000000000000000000#128
     inDram.nextRead 0 = some 0x8000000 ∧ tierOf 0x8000000 = 1 ∧ ¬ 4096 ≤ inDram.stagedOf (sliceOfQ 0) ∧ inDram.br.reads = [] ∧
     goodTrailer.extractLsb' 0 16 = berthCrc 0x8000000 [] goodTrailer ∧
     goodTrailer.extractLsb' 72 28 = ~~~ goodTrailer.extractLsb' 100 28 ∧
     t.extractLsb' 0 16 ≠ berthCrc 0x8000000 [] t ∧
     (let u := (berthCrc 0x8000000 [] 0).setWidth 128
      u.extractLsb' 0 16 = berthCrc 0x8000000 [] u ∧ u.extractLsb' 72 28 ≠ ~~~ u.extractLsb' 100 28)) ∧
    (stageFull.nextRead 0 = some 0x8000000 ∧ 4096 ≤ stageFull.stagedOf (sliceOfQ 0)) := by
  (repeat' with_reducible apply And.intro) <;> decide +kernel

theorem test_QueueControlCompletes_met :
    (tdWide hTd = true ∧ busy.slipOrQuiet = false ∧ hTd.priv ≠ 2) ∧
    (let p : List Word := [0x00001C00, 0x00000020, 0x00400000]
     let c : QueueCfg := ⟨bit (par p 0) 13, pf p 0 12 10, pf p 1 31 17, pf p 1 16 5, pf p 2 31 22⟩
     queueCfgBad hTd p = false ∧ busy.mirrorRefuses 0x402 hTd = false ∧ pf p 0 31 14 = 0 ∧ c.en = false ∧
     (busy.queueCfg 0).group = c.group ∧ (busy.queueCfg 0).prio = c.prio) ∧
    (let p : List Word := [0x00003C00, 0x00000020, 0]
     queueCfgBad hTd p = false ∧ 2 ≤ busy.domain (queueDomain (sliceOfQ (pf p 0 31 14))) ∧ bit (par p 0) 13 = true) ∧
    (let p : List Word := [0xFFFFC000]
     pf p 0 31 14 + (pf p 0 13 9 + 1) ≤ 262144 ∧ pf p 0 7 0 = 0 ∧ bit (par p 0) 8 = false ∧ busy.mirrorRefuses 0x405 hTd = false) ∧
    (let p : List Word := [0xFFFF0100, 0x00004000, 0]
     p.length = 1 + 2 * pf p 0 15 8 ∧ pf p 0 15 8 ≤ 128 ∧ pf p 0 7 0 = 0 ∧ (∀ k < pf p 0 15 8, pf p (1 + 2 * k) 12 0 = 0) ∧
     ((busy.cfg.td.mc.filter (·.1 != pf p 0 31 16)).map (fun x => x.2.length)).sum + pf p 0 15 8 ≤ 262144 ∧
     busy.mirrorRefuses 0x420 hTd = false) ∧
    (let p : List Word := [0xFFFF0000]; p.length = 1 ∧ pf p 0 15 0 = 0 ∧ busy.mirrorRefuses 0x421 hTd = false) ∧
    ((busy.qrun 0).ents = [] ∧ (queued.qrun 0).ents = [qEnt] ∧ queued.age qEnt ≤ queued.maxAge 0) ∧
    ((busy.putPnode 175 { busy.pnode 0 with st := 2 }).pnode 175).st = 2 ∧
    (13 < 14 ∧ (busy.setDomain 13 3).domain 13 = 3 ∧ ∀ x ∈ (busy.setDomain 13 3).pwr.wakeQ, x.1 ≠ 13) := by
  (repeat' with_reducible apply And.intro) <;> decide +kernel

/-- Shaper of group 0 on, with its bucket. -/
def shaped (b : Bucket) : State :=
  let s : State := { s0 with cfg := { s0.cfg with td := { s0.cfg.td with shapers := [(nodeKey 1 0, ⟨1000000, 2000, 0⟩)] } } }
  s.putBucket (nodeKey 1 0) b

theorem test_SchedulingCompletes_met :
    ((queued.pnode 0).st = 0 ∧ (queued.pnode 0).unsent < queued.allowance 0 ∧ queued.shaperOk (nodeKey 3 0) = true ∧
      ([] : List Nat).contains (4096 + 0) = false ∧ (queued.pick 0 (queued.td.q.filterMap (queued.servable 0 []))).isSome = true) ∧
    (s0.pnode 0).st ≠ 0 ∧
    (let e := { qEnt with ce := true }; e.slot = none ∧ s0.age e ≤ s0.maxAge 0 ∧ e.pkt.tail ≠ some true) ∧
    (let e : TtEnt := ⟨0, false, 0, false⟩
     let s : State := { s0 with time := { s0.time with mono := 1000 }, td := { s0.td with sched := { s0.td.sched with tt := [(5, some e)] } } }
     s.td.sched.tt = [(5, some e)] ∧ e.slot ≤ s.slot ∧ e.wheel = false ∧ s.slot - e.slot ≤ 250) ∧
    (s0.shaperCfg (nodeKey 3 0)).rate = 0 ∧
    (let s := (shaped ⟨1996, 999999⟩).setDomain 7 0; let k := nodeKey 1 0
     (s.shaperCfg k).rate ≠ 0 ∧ s.domain 7 = 0 ∧ (s.bucket k).b + (((s.bucket k).f + (s.shaperCfg k).rate * 4) / 1000000 : Nat) ≤ (s.shaperCfg k).burst) ∧
    (let s := (shaped ⟨1997, 0⟩).setDomain 7 0; let k := nodeKey 1 0
     (s.shaperCfg k).rate ≠ 0 ∧ s.domain 7 = 0 ∧ ((s.shaperCfg k).burst : Int) < (s.bucket k).b + (((s.bucket k).f + (s.shaperCfg k).rate * 4) / 1000000 : Nat)) ∧
    (let c : MeterCfg := ⟨false, 1000000, 1000000, 8, 8⟩
     let s (t : Nat) : State := ({ s0.setDomain 5 0 with cfg := { s0.cfg with td := { s0.cfg.td with meters := [(9, c)] } } } : State).setMeter 9 ⟨t, t, 0, 0⟩
     (s 4).domain 5 = 0 ∧ ((s 4).meterRun 9).tc + (((s 4).meterRun 9).fc + ((s 4).meterCfg 9).cir * 4) / 1000000 ≤ ((s 4).meterCfg 9).cbs ∧
     ((s 5).meterCfg 9).cbs < ((s 5).meterRun 9).tc + (((s 5).meterRun 9).fc + ((s 5).meterCfg 9).cir * 4) / 1000000 ∧
     ((s 4).meterRun 9).te + (((s 4).meterRun 9).fe + ((s 4).meterCfg 9).pir * 4) / 1000000 ≤ ((s 4).meterCfg 9).pbs ∧
     ((s 5).meterCfg 9).pbs < ((s 5).meterRun 9).te + (((s 5).meterRun 9).fe + ((s 5).meterCfg 9).pir * 4) / 1000000) := by
  (repeat' with_reducible apply And.intro) <;> decide +kernel

theorem test_ShapingCommandsComplete_met :
    (let p : List Word := [0x40000000, 0x00000001, 0x00000400, 0]
     pf p 0 9 0 = 0 ∧ pf p 1 31 28 = 0 ∧ pf p 2 31 27 = 0 ∧ pf p 3 31 8 = 0 ∧ s0.shaperRate (pf p 0 31 30) (pf p 0 29 12) (pf p 1 27 0) ≠ 0 ∧ (BitVec.ofNat 8 (pf p 3 7 0)).toInt ≤ 63 ∧ -64 ≤ (BitVec.ofNat 8 (pf p 3 7 0)).toInt ∧
     pf p 0 29 12 < kindSize (pf p 0 31 30) ∧ 0 < pf p 1 27 0 ∧ pf p 1 27 0 ≤ 200000000 ∧ 1024 ≤ pf p 2 26 0 ∧
     pf p 2 26 0 ≤ 67108864 ∧ 0 ≤ (s0.bucket (nodeKey (pf p 0 31 30) (pf p 0 29 12))).b ∧ s0.mirrorRefuses 0x400 hTd = false) ∧
    (let p : List Word := [0x40007800, 0x00000100]
     pf p 0 31 30 = 1 ∧ p.length = 2 ∧ pf p 0 10 0 = 0 ∧ pf p 1 7 0 = 0 ∧ pf p 1 19 8 ≠ 0 ∧
     (s0.groupCfg (pf p 0 29 15)).parent = pf p 1 31 20 ∧ (s0.groupCfg (pf p 0 29 15)).prio = pf p 0 13 11 ∧
     s0.mirrorRefuses 0x403 hTd = false) ∧
    (let p : List Word := [0xAFFA0000]
     pf p 0 13 0 = 0 ∧ pf p 0 31 24 < 176 ∧ pf p 0 23 14 ≤ 1000 ∧ (s0.pnode (pf p 0 31 24)).st ≠ 1 ∧ s0.mirrorRefuses 0x404 hTd = false) ∧
    (let p : List Word := [0xFFFFC000, 1000, 1000, 2000, 2000]
     let c : MeterCfg := ⟨bit (par p 0) 14, pf p 1 27 0, pf p 2 27 0, pf p 3 26 0, pf p 4 26 0⟩
     fdWide hFd = true ∧ p.length = 5 ∧ pf p 0 13 0 = 0 ∧ pf p 1 31 28 = 0 ∧ pf p 2 31 28 = 0 ∧ pf p 3 31 27 = 0 ∧ pf p 4 31 27 = 0 ∧
     c.cir ≤ 200000000 ∧ c.pir ≤ 200000000 ∧ burstOk c.cbs = true ∧ burstOk c.pbs = true ∧ c.type = true ∧
     s0.mirrorRefuses 0x401 hFd = false) ∧
    (let p : List Word := [0xFFFF8000]; p.length = 1 ∧ pf p 0 14 0 = 0 ∧ s0.mirrorRefuses 0x406 hFd = false) ∧
    (let s := busy.putPortRun 0 { (default : PortRun) with std := [.localFault] }
     let t : State := { s with cfg := { s.cfg with td := { s.cfg.td with holds := [(0, 5)] } } }
     let u (s : State) := s.putPnode 0 { s.pnode 0 with link := s.nodeLink 0 }
     (s.nodeLink 0 = false ∧ ((u s).pnode 0).st = 0 ∧ (u s).holdMs 0 = 0) ∧
     (t.nodeLink 0 = false ∧ ((u t).pnode 0).st = 0 ∧ (u t).nodeAdmin 0 = true ∧ 0 < (u t).holdMs 0)) ∧
    (let s (st : Nat) := (busy.putPortRun 0 { (default : PortRun) with seek := [] }).putPnode 0 { busy.pnode 0 with st := st }
     let t : State := { s 1 with cfg := { (s 1).cfg with td := { (s 1).cfg.td with holds := [(0, 5)] } } }
     ((s 1).pnode 0).st = 1 ∧ (s 1).holdOver 0 = true ∧ ((s 1).pnode 0).since + ms ((s 1).holdMs 0) ≤ (s 1).mono ∧
     t.nodeLink 0 = true ∧ (t.pnode 0).st = 1 ∧ t.holdOver 0 = false ∧ (s 3).nodeLink 0 = true ∧ ((s 3).pnode 0).st = 3) := by
  (repeat' with_reducible apply And.intro) <;> decide +kernel

/-! ## Witnesses: descriptors, the crossbar, fabric links -/

/-- A descriptor with a true check: QUEUE 0, QUEUE_N its complement, slice 2, a PSEQ. -/
def descOf (pseq : Nat) : BitVec 256 :=
  let body := (2 ^ 18 - 1) * 2 ^ 212 + 2 * 2 ^ 107 + pseq * 2 ^ 91
  BitVec.ofNat 256 (body * 256 + (crc8From 0xFF#8 (beBytes 31 body)).toNat)

theorem test_DescriptorsComplete_met :
    ((lit [4, 7]).domain 4 = 0 ∧ (lit [4, 7]).domain 7 = 0 ∧ (lit [4, 7]).fd.d2d.flight = []) ∧ (crc8From 0xFF#8 (beBytes 31 0) != (0 : BitVec 256).extractLsb' 0 8) = true ∧
    (∀ n ∈ [0, 1, 1023], (crc8From 0xFF#8 (beBytes 31 ((descOf n).toNat / 256)) != (descOf n).extractLsb' 0 8) = false ∧
      bits (descOf n) 255 238 + bits (descOf n) 237 220 = 2 ^ 18 - 1 ∧ bits (descOf n) 118 115 = 2 ∧
      bits (descOf n) 114 99 = n) ∧
    (s0.order 2).next = 0 ∧ (s0.order 2).held = [] ∧
    (let x : Crossing := ⟨descOf 5, [], none, false, none, false⟩
     let s := ({ s0 with time := { s0.time with mono := 4000 } } : State).putOrder 2 ⟨0, [(5, x)], some 0⟩
     (s.order 2).held = [(5, x)] ∧ (s.order 2).gap = some 0 ∧ 0 + 4000 ≤ s.mono) := by
  (repeat' with_reducible apply And.intro) <;> decide +kernel

/-- A flit of module `m` with FSEQ 0 and a true check. -/
def flit0 (m : Nat) : List Byte :=
  let f : List Byte := 0xE0 :: List.replicate 59 0
  f ++ beBytes 4 (crc32cFrom (0xFFFFFFFF#32 ^^^ BitVec.ofNat 32 m) f).toNat

/-- The crossbar's state given. -/
def withXb (x : Xbar) : State := { s0 with td := { s0.td with xb := x } }

theorem test_CrossingCompletes_met :
    ((lit [4]).domain 4 = 0 ∧ s0.fd.d2d.retired.contains 23 = false ∧ s0.fd.d2d.training.contains 23 = false ∧ flitOk 23 (List.replicate 64 0) = false ∧
      flitOk 23 (flit0 23) = true ∧ bits (BitVec.ofNat 32 (beNat ((flit0 23).take 4)) : Word) 26 16 = (s0.d2dDir 23 .tdToFd).expect ∧
      (s0.d2dDir 23 .tdToFd).fails < 7) ∧
    (let s := s0.setD2d { s0.fd.d2d with dirs := [(47, { (default : D2dDir) with fails := 7, expect := 5 })] }
     7 ≤ (s.d2dDir 23 .tdToFd).fails ∧ bits (BitVec.ofNat 32 (beNat ((flit0 23).take 4)) : Word) 26 16 ≠ (s.d2dDir 23 .tdToFd).expect) ∧
    (s0.setD2d { s0.fd.d2d with training := [23] }).fd.d2d.training.contains 23 = true ∧
    (let s := { s0.setD2d { s0.fd.d2d with training := [23] } with spares := { s0.spares with lanes := [(47, 3)] } }
     s.fd.d2d.training.contains 23 = true ∧ tget zn s.spares.lanes (23 * 2 + b01 true) < 4) ∧
    (let s : State := { withXb { s0.td.xb with packs := [(voqKey 3 1 7, some default)] } with time := { s0.time with mono := 2040 } }
     tget none0 s.td.xb.packs (voqKey 3 1 7) = some default ∧ (default : Cell).since + 8 * s.rf 0xBF210000 31 24 ≤ s.mono) ∧
    (let c : Cell := { (default : Cell) with cls := 1, outs := [15] }
     let s := withXb { s0.td.xb with voqs := [(voqKey 31 1 15, [c])] }
     31 < 32 ∧ 15 < 16 ∧ c.cls = 1 ∧ c.outs = [15] ∧ s.td.fab.ready = [] ∧ s.fd.d2d.stalled = [] ∧ s.td.xb.voqs = [(voqKey 31 1 15, [c])]) ∧
    (let s := withXb { s0.td.xb with crossing := [(31, default)] }
     s.td.xb.crossing = [(31, default)] ∧ (default : Cell).chunks = [] ∧ (tget dflt s.td.xb.rx (voqKey 0 0 31)).pid = none ∧
     (default : Cell).seq = (tget dflt s.td.xb.rx (voqKey 0 0 31)).expect) := by
  (repeat' with_reducible apply And.intro) <;> decide +kernel

/-- A flit that waits on a VC. -/
def waiting (vs : List Nat) (t : D2dTx) : D2dTx := t.queue (vs.map (fun v => ⟨v, 3, [], 1, none⟩))

theorem test_FlitsAreServedByClass_met :
    (waiting [7, 0] default).ready 7 = true ∧
    (let t := waiting [4, 2, 3] default
     t.ready 7 = false ∧ t.starved < 63 ∧ (List.range 4).any t.ready = true ∧ t.pick = some 2) ∧
    (let t := { waiting [0, 2] default with turns := [(0, 1)] }; (t.ready 4 || t.ready 5) = false ∧ t.pick = some 2) ∧
    (let t := waiting [6] default; t.ready 7 = false ∧ (List.range 4).any t.ready = false ∧ t.ready 6 = true) ∧
    (let t := { waiting [0, 5] default with starved := 63 }
     t.ready 7 = false ∧ (t.ready 4 || t.ready 5) = true ∧ 63 ≤ t.starved ∧ t.pick = some 5) ∧
    (let t := waiting [4] default; t.ready 7 = false ∧ (t.ready 4 || t.ready 5) = true ∧ (List.range 4).any t.ready = false ∧ t.ready 6 = false) ∧
    (let f : TxFlit := ⟨0, 3, [], 1, none⟩; let t := { waiting [1] default with again := 1, replay := [(9, f, [1])] }
     t.again = 0 + 1 ∧ t.again ≤ t.replay.length ∧ t.replay[t.replay.length - t.again]? = some (9, f, [1])) ∧
    (let t := waiting [1] default; t.again = 0 ∧ t.replay.length < 512 ∧ t.pick = some 1) := by
  (repeat' with_reducible apply And.intro) <;> decide +kernel

/-- Link 0 enabled, with the state given. -/
def withLink (x : FLink) : State :=
  (({ s0 with cfg := { s0.cfg with regs := [(0xBF250020, 1)] }, time := { s0.time with mono := 1000000 } } : State).setDomain 8 0).putFlink 0 x
/-- A cell header with a true HEC. -/
def head0 : BitVec 128 := BitVec.ofNat 128 (crc8From 0xFF#8 (beBytes 15 0)).toNat
/-- A link in service with credit. -/
def linkUp0 : FLink := ⟨3, 0, 0, true, [1, 1, 1], [0, 0, 0], 0, []⟩
/-- One chunk that waits in a stream of class `cls`. -/
def streamIn (cls : Nat) (alt : Nat) : State :=
  let s := withLink linkUp0
  s.setFab { s.td.fab with streams := [(cls * 65536, ⟨[default], 0⟩)], altern := [(0, alt)] }

theorem test_FabricCompletes_met :
    (cellHec head0 = head0.extractLsb' 0 8 ∧ cellHec (head0 ^^^ 1) ≠ (head0 ^^^ 1).extractLsb' 0 8) ∧
    (let s := withLink ⟨3, 5, 0, false, [], [], 0, []⟩
     s.linkOn 0 = true ∧ (s.flink 0).st = 3 ∧ (s.flink 0).run + 1 < 7 ∧ (s.flink 0).inServ = false ∧
     (s.flink 0).since + 1000000 ≤ s.mono) ∧
    (let s := withLink ⟨2, 5, 0, false, [], [], 0, []⟩; s.linkOn 0 = true ∧ (s.flink 0).st = 2 ∧ (s.flink 0).run + 1 = 6) ∧
    (let s := withLink ⟨1, 0, 0, false, [], [], 0, []⟩; s.linkOn 0 = true ∧ (s.flink 0).st < 2) ∧
    (let s := withLink ⟨3, 0, 0, true, [], [], 0, [(1535, 900001)]⟩
     tget zn (s.flink 0).stops 1535 = 900000 + 1 ∧ 900000 + 100000 ≤ s.mono) ∧
    (streamIn 0 0).nextStream 0 0 = some (0, 0, [default]) ∧
    ((streamIn 1 0).nextStream 0 0 = none ∧ tget zn (streamIn 1 0).td.fab.altern 0 = 0 ∧
      (streamIn 1 0).nextStream 0 1 = some (0, 0, [default])) ∧
    ((streamIn 2 1).nextStream 0 0 = none ∧ tget zn (streamIn 2 1).td.fab.altern 0 ≠ 0 ∧
      (streamIn 2 1).nextStream 0 2 = some (0, 0, [default])) ∧
    (s0.nextStream 15 0 = none ∧ s0.nextStream 15 1 = none ∧ s0.nextStream 15 2 = none) ∧
    (let p : List Word := [0xFFFFC000, 0x80000010]
     qmapBad hTd p = false ∧ s0.slipOrQuiet = false ∧ (p.drop 1).length = pf p 0 13 8 + 1 ∧ (p.drop 1).all (bits · 3 0 == 0) = true ∧
     s0.mirrorRefuses 0x430 hTd = false) ∧
    (qmapBad hTd [0xFFFFC000] = false ∧ s0.mirrorRefuses 0x431 hTd = false) := by
  (repeat' with_reducible apply And.intro) <;> decide +kernel

/-- A stream context in the landing stage at 2 ms. -/
def withCtx (x : FCtx) : State :=
  ({ s0 with time := { s0.time with mono := 2000000 } } : State).putCtx (ctxKey 511 15 2 0xFFFF) x
/-- A packet subject to duplicate elimination. -/
def dupPkt : TdPkt := { tdPkt with dc := true, ssid := 9 }
/-- Its entry in the table. -/
def dupKnown (e : DupEnt) : State := s0.setFab { s0.td.fab with dups := [(dupKey 9 false 0 0, e)] }

theorem test_LandingCompletes_met :
    (let x : FCtx := ⟨0, [(0, 0, default)], none, 0⟩; let s := withCtx x
     tfind s.td.fab.ctxs (ctxKey 511 15 2 0xFFFF) = some x ∧ tget dflt s.td.fab.ctxs (ctxKey 511 15 2 0xFFFF) = x ∧
     x.held.any (fun h => h.2.1 + s.reordTmo ≤ s.mono) = true) ∧
    (let x : FCtx := ⟨0, [], none, 1000000⟩; let s := withCtx x
     tfind s.td.fab.ctxs (ctxKey 511 15 2 0xFFFF) = some x ∧ x.held = [] ∧ x.part = none ∧ x.last + 1000000 ≤ s.mono) ∧
    (let s := dupKnown ⟨0, 0⟩; tfind s.td.fab.dups (dupKey 9 false 0 0) = some ⟨0, 0⟩ ∧ 0 + 0 ≤ s.mono) ∧
    (let s := dupKnown ⟨0, 1⟩
     dupPkt.dc = true ∧ tfind s.td.fab.dups (dupKey dupPkt.ssid dupPkt.ov dupPkt.osrc.toNat dupPkt.manifest.toNat) = some ⟨0, 1⟩ ∧
     s.mono < 0 + 1) ∧
    (tfind s0.td.fab.dups (dupKey 9 false 0 0) = none ∧ s0.td.fab.dups.length < 1048576) := by
  (repeat' with_reducible apply And.intro) <;> decide +kernel

/-! ## Witnesses: line ports and Span groups -/

theorem test_CodewordLock_met :
    (let c : CwLock := ⟨false, 3, 0, 0⟩; c.lock = false ∧ c.good = 3) ∧ (let c : CwLock := ⟨false, 2, 0, 0⟩; c.lock = false ∧ c.good < 3) ∧
    (let c : CwLock := ⟨true, 0, 7, 0⟩; c.lock = true ∧ c.bad = 7) ∧ (let c : CwLock := ⟨true, 0, 6, 0⟩; c.lock = true ∧ c.bad < 7) := by
  decide

/-- A Span port of one lane. -/
def spanPort : PortCfg := { (default : PortCfg) with up := true, type := 4 }
/-- A group of one carrier with 8 instances on port 0, MAX_SKEW 10 µs. -/
def spanCfg0 : SpanCfg := ⟨true, 0, false, 0, false, 9, 2000, 100, 1, [⟨0, 8, 8, 8⟩]⟩
/-- Port 0 on group 0, the line domain on, at 20 ms; lane 0, instance 0 and the group as given. -/
def spanState (l : Lane) (x : Inst) (r : SpanRun) : State :=
  (({ s0 with cfg := { s0.cfg with ports := [(0, some spanPort)], spans := [(0, some spanCfg0)] },
              time := { s0.time with mono := 20000000 },
              line := { s0.line with lanes := [(0, l)], insts := [(0, x)], spans := [(0, r)] } } : State).setDomain 6 0)
/-- A locked lane. -/
def locked (f : Fsm) : Lane := { (default : Lane) with cw := ⟨true, 0, 0, 0⟩, fsm := f }
/-- The overhead of a frame of MFAS 0 and SFC 0 as sent. -/
def oh0 : List Byte := unscramble 0 0 (beBytes 6 fasPattern.toNat ++ List.replicate 54 0 ++ beBytes 2 (crc16 (List.replicate 54 0)).toNat ++ [0, 0])

theorem test_LanesComplete_met :
    (let s := spanState default default default
     s.portAt 0 = some (0, spanPort) ∧ spanPort.type = 4 ∧ spanPort.up = true ∧ s.lineOn = true ∧ (s.lane 0).cw.lock = false ∧
     (s.lane 0).locw = false ∧ (s.lane 0).cw.since + 200000 ≤ s.mono) ∧
    (let s := spanState (locked .hunt) default default
     (s.lane 0).cw.lock = true ∧ (s.lane 0).fsm = .hunt ∧ (s.lane 0).cands = [] ∧
     BitVec.ofNat 48 (beNat (oh0.take 6)) = fasPattern ∧ oh0.length = 64 ∧
     ohOk (unscramble (beNat ((oh0.drop 6).take 1)) (beNat ((oh0.drop 7).take 2)) oh0) = true) ∧
    (let s := spanState (locked .confirm) default default
     (s.lane 0).fsm = .confirm ∧ (s.lane 0).cands.filterMap (·.next []) = []) ∧
    (let s := spanState { locked .flywheel with errs := 4 } default default
     (s.lane 0).cw.lock = true ∧ (s.lane 0).fsm = .flywheel ∧ (s.lane 0).errs = 4) ∧
    (let s := spanState { locked .hunt with locw := true } default default
     (s.lane 0).locw = true ∧ (s.lane 0).cw.lock = true ∧ (s.lane 0).cw.since + 1000000 ≤ s.mono) := by
  (repeat' with_reducible apply And.intro) <;> decide +kernel

/-- A port 3 of a type, as it runs. -/
def withPort (type : Nat) (r : PortRun) : State :=
  { lit [6] with
    cfg := { s0.cfg with ports := [(3, some { (default : PortCfg) with up := true, type := type, maxFrame := 64 })] }
    line := { s0.line with ports := [(3, r)] } }

theorem test_LinePortsComplete_met :
    (∀ x ∈ [(1, PortDefect.localFault), (2, PortDefect.flexeFrame), (3, PortDefect.otnSection 2)], let s := withPort x.1 default
     (s.port 3).map (·.type) = some x.1 ∧ s.lineOn = true ∧ x.2.fits x.1 ((s.port 3).getD default).lanes = true ∧ x.2 ≠ .otnBip8 ∧
     x.2 ∉ (s.portRun 3).std) ∧
    (let s := withPort 1 { (default : PortRun) with std := [.localFault] }
     PortDefect.localFault ∈ (s.portRun 3).std ∧ PortDefect.localFault.fits 1 ((s.port 3).getD default).lanes = true) ∧
    ((withPort 3 default).port 3).map (·.type) = some 3 ∧
    (let s := withPort 1 { (default : PortRun) with errs := 1024, badRun := 6 }
     max 1 (s.rf (0x7F021400 + 4 * 3) 31 8) ≤ (s.portRun 3).errs ∧ (s.portRun 3).deg = false ∧
     max 2 (min 10 (s.rf (0x7F021400 + 4 * 3) 7 4)) ≤ (s.portRun 3).badRun + 1) ∧
    (∀ t ∈ [2, 3], ((withPort t { (default : PortRun) with entries := some [1] }).port 3).map (·.type) = some t ∧
      ((withPort t { (default : PortRun) with entries := some [1] }).portRun 3).entries = some [1]) ∧
    (let r : PortRun := { (default : PortRun) with hold := true }
     let s : State := { withPort 4 r with line := { (withPort 4 r).line with lanes := [(3, locked .hunt)] } }
     (s.lane 3).cw.lock = true ∧ (s.portRun 3).justHeld = false ∧ (s.portRun 3).hold = true) ∧
    (let s := withPort 4 { (default : PortRun) with justHeld := true }
     (s.lane 3).cw.lock = false ∧ (s.portRun 3).justHeld = true) := by
  (repeat' with_reducible apply And.intro) <;> decide +kernel

/-- A frame of 64 bytes with a type. -/
def frameOf (ty : Nat) : List Byte := List.replicate 12 0 ++ beBytes 2 ty ++ List.replicate 50 0
/-- The one frame that waits at port node 3. -/
def txFrame : List Byte × EgInfo := (frameOf 0, { (default : EgInfo) with tailIn := true })

theorem test_LineFramesComplete_met :
    (let s := (withPort 1 default).setDomain 6 0; let c : PortCfg := { (default : PortCfg) with up := true, type := 1, maxFrame := 64 }
     s.portList.find? (fun x => x.2.channels.contains 0) = some (3, c) ∧ s.lineOn = true ∧ c.up = true ∧ s.portStops 3 c = false ∧
     (s.portRun 3).seek.contains (.clientLock 0) = false ∧
     ((frameOf 0).take 63).length < 64 ∧ c.maxFrame < (frameOf 0 ++ [0]).length ∧ 64 ≤ (frameOf 0x8808).length ∧
     (frameOf 0x8808).length ≤ c.maxFrame ∧ be16 (frameOf 0x8808) 12 = 0x8808 ∧ be16 (frameOf 0x0800) 12 ≠ 0x8808 ∧
     targetIs hFd 1 0x3F = true ∧ pf [0x06000000] 0 24 0 = 0 ∧ s.port (pf [0x06000000] 0 31 25) = some c ∧ s.pwr.mode ≠ .slipway ∧
     s.mirrorRefuses 0x503 hFd = false) ∧
    (let s := (withPort 1 default).setEng { s0.fd.eng with tx := [(3, [txFrame])] }
     tget nil0 s.fd.eng.tx 3 = [txFrame] ∧ txFrame.2.tailIn = true ∧ s.drives 3 = true) ∧
    (let f : List Byte × EgInfo := (frameOf 0, default)
     let s := (withPort 1 default).setEng { s0.fd.eng with tx := [(3, [f])] }
     tget nil0 s.fd.eng.tx 3 = [f] ∧ f.2.tailIn = false ∧ f.2.begun = false ∧ s.drives 3 = true) ∧
    (let f : List Byte × EgInfo := (frameOf 0, { (default : EgInfo) with begun := true })
     let s := (withPort 1 default).setEng { s0.fd.eng with tx := [(3, [f])] }
     tget nil0 s.fd.eng.tx 3 = [f] ∧ f.2.tailIn = false ∧ f.2.begun = true ∧ s.drives 3 = true) := by
  (repeat' with_reducible apply And.intro) <;> decide +kernel

theorem test_PortAndGroupCommandsComplete_met :
    (∀ a ∈ [0xFE900000, 0xFF900000], let p : List Word := [BitVec.ofNat 32 a, 0x0051F400, 0]
     s0.portCfgBad hFd p = false ∧ hFd.priv ≠ 2 ∧ s0.slipOrQuiet = false ∧ s0.portLimit (pf p 0 31 25) (portCfgOf p) (bit (par p 0) 24) = false ∧
     s0.mirrorRefuses 0x500 hFd = false ∧ ((s0.port (pf p 0 31 25)).map (·.up)).getD false = false ∧
     (s0.takes (pf p 0 31 25) (portCfgOf p)).any (fun x => x.2.up) = false) ∧
    (bit (par [0xFE900000] 0) 24 = false ∧ bit (par [0xFF900000] 0) 24 = true) ∧
    (∀ a ∈ [0xFA000000, 0xFE000000], let p : List Word := [BitVec.ofNat 32 a, 0xFFF1F400, 0x00640001, 0x00204080]
     let s : State := { s0 with cfg := { s0.cfg with ports := [(0, some spanPort)] } }
     s.spanCfgBad hFd p = false ∧ s.slipOrQuiet = false ∧ s.deskewFits (pf p 0 31 27) (spanCfgOf p) = true ∧
     s.mirrorRefuses 0x501 hFd = false ∧ s.span (pf p 0 31 27) = none) ∧
    (bit (par [0xFA000000] 0) 26 = false ∧ bit (par [0xFE000000] 0) 26 = true) ∧
    (let p : List Word := [0, 0x07000000, 0, 0, 0]
     let s : State := { spanState default default default with pwr := { s0.pwr with mode := .standalone } }
     p.length = 5 ∧ pf p 0 26 0 = 0 ∧ s.span (pf p 0 31 27) = some spanCfg0 ∧ (s.pwr.mode ≠ .standby ∨ spanCfg0.prot = true) ∧ spanCfg0.resizeBad (resizeCounts p) = false ∧
     modeForwards s.pwr.mode = true ∧ s.pwr.mode ≠ .standby ∧ (s.spanRun (pf p 0 31 27)).txShake.ph = 0 ∧
     s.mirrorRefuses 0x502 hFd = false) := by
  (repeat' with_reducible apply And.intro) <;> decide +kernel

/-- An instance whose deskew FIFO holds block 0. -/
def instHas : Inst := { (default : Inst) with fifo := [⟨0, [], 0⟩] }
/-- A header word with a true check: an idle one. -/
def hdrWord : Word64 := BitVec.ofNat 64 (crc16 (beBytes 6 0)).toNat
/-- A group that reads words. -/
def wordsIn (d : Delin) (n : Nat) (w : Word64) : State :=
  spanState default default { (default : SpanRun) with delin := d, valids := n, words := [some w] }

theorem test_SpanReceiveCompletes_frame : (List.replicate 16384 (0 : Byte)).length = 16384 := by
  rw [List.length_replicate]

theorem test_SpanReceiveCompletes_met :
    (let s := spanState (locked .inFrame) default default
     s.port 0 = some spanPort ∧ s.lineOn = true ∧ 7 < 8 * spanPort.lanes ∧
     (s.lane (0 + 7 % spanPort.lanes)).fsm = .inFrame ∧ (s.inst 0 7).acc = false) ∧
    (let s := spanState (locked .inFrame) { (default : Inst) with acc := true, fasBad := 4 } default
     (s.inst 0 0).acc = true ∧ 2 < diffBits (BitVec.ofNat 48 (beNat (List.replicate 6 0))) fasPattern ∧ (s.inst 0 0).fasBad = 4) ∧
    (∀ g ∈ [0, 7], let s := spanState default instHas { (default : SpanRun) with reading := true, rdG := g }
     s.span 0 = some spanCfg0 ∧ (s.spanRun 0).reading = true ∧
     s.readCal 0 spanCfg0 = (spanCfg0, 0) ∧
     (s.cycleTimes spanCfg0 ((s.spanRun 0).rdG - ((s.spanRun 0).rdG - 0) % spanCfg0.krx)).filterMap (·.2) = [0] ∧
     readTime spanCfg0 [0] ([].foldl min 0) ([].foldl max 0) ≤ s.mono) ∧
    (let s := spanState default { instHas with fifo := [⟨9, [], 0⟩] } { (default : SpanRun) with reading := true }
     (s.cycleTimes spanCfg0 0).filterMap (·.2) = [] ∧ s.laterTime spanCfg0 (0 + spanCfg0.krx) = some 0 ∧ 0 + 9240 ≤ s.mono) ∧
    ((0 - 0) % spanCfg0.krx + 1 < spanCfg0.krx ∧ spanCfg0.krx ≤ (7 - 0) % spanCfg0.krx + 1) ∧
    (headerOk hdrWord = true ∧ headerOk (hdrWord ^^^ 1) = false) ∧
    (let s := wordsIn .hunt 0 hdrWord; s.span 0 = some spanCfg0 ∧ (s.spanRun 0).words = [some hdrWord] ∧ (s.spanRun 0).delin = .hunt) ∧
    (let s := wordsIn .presync 2 hdrWord; (s.spanRun 0).delin = .presync ∧ (s.spanRun 0).skip = 0 ∧ (s.spanRun 0).valids = 2) ∧
    (let s := wordsIn .sync 0 (hdrWord ^^^ 1); (s.spanRun 0).delin = .sync ∧ (s.spanRun 0).skip = 0 ∧ (s.spanRun 0).pkt = none) := by
  (repeat' with_reducible apply And.intro) <;> decide +kernel

/-- The group with no lost instances: every one of its calendar accepted in a lane in frame. -/
def healthy (r : SpanRun) : State :=
  let s := spanState (locked .inFrame) default r
  { s with line := { s.line with insts := (List.range 8).map (fun i => (i, { (default : Inst) with acc := true, mf := 1, sf := 5 })) } }

theorem test_SpanResizeCompletes_met :
    (let s := spanState default default default
     s.span 0 = some spanCfg0 ∧ s.lineOn = true ∧ spanCfg0.up = true ∧ (s.spanRun 0).delin ≠ .sync ∧ (s.spanRun 0).delinAt + 1000000 ≤ s.mono) ∧
    (let s := healthy { (default : SpanRun) with glos := true, gpart := true, delin := .sync }
     (s.spanRun 0).glos = true ∧ (s.spanRun 0).delin = .sync ∧ max (s.spanRun 0).delinAt (s.spanRun 0).clearAt + 10000000 ≤ s.mono ∧
     s.noneLost 0 spanCfg0 = true ∧ (s.spanRun 0).gpart = true ∧ max (s.spanRun 0).lastLoss (s.spanRun 0).clearAt + 10000000 ≤ s.mono) ∧
    (let s := spanState default default { (default : SpanRun) with txShake := ⟨2, 0, [8], [7], 0⟩ }
     (s.spanRun 0).txShake.ph = 2 ∧ (s.spanRun 0).txShake.new ≠ [] ∧ (s.lead spanCfg0).mf = 0 ∧
     (s.lead spanCfg0).sf = (s.spanRun 0).txShake.sfc) ∧
    (let s : State := { spanState default default { (default : SpanRun) with mirror := some [7] } with pwr := { s0.pwr with mode := .standby } }
     (s.spanRun 0).mirror = some [7] ∧ s.pwr.mode = .standby ∧ (s.lead spanCfg0).mf = 0) ∧
    (let s := healthy { (default : SpanRun) with rxShake := ⟨3, 0, [8], [7], 5⟩ }
     let u : State := { s with line := { s.line with insts := [(0, { (default : Inst) with acc := true, mf := 1, firstG := some 40 })] } }
     (u.leadIn spanCfg0).acc = true ∧ (u.leadIn spanCfg0).mf = 1 ∧ (u.leadIn spanCfg0).firstG = some 40 ∧
     (s.leadIn spanCfg0).acc = true ∧ (s.leadIn spanCfg0).mf = 1 ∧ (s.spanRun 0).rxShake.new ≠ [] ∧ (s.spanRun 0).rxShake.ph = 3 ∧
     (s.leadIn spanCfg0).sf = (s.spanRun 0).rxShake.sfc) ∧
    (let s := spanState default default { (default : SpanRun) with txShake := ⟨2, 0, [8], [], 65535⟩ }
     (s.spanRun 0).txShake.ph = 2 ∧ (s.spanRun 0).txShake.new = [] ∧
     (s.lead spanCfg0).sf = ((s.spanRun 0).txShake.sfc + 1) % 65536 ∧ (s.spanRun 0).rxShake.ph ≠ 3) ∧
    (let s := healthy { (default : SpanRun) with rxShake := ⟨3, 0, [8], [], 4⟩ }
     (s.spanRun 0).rxShake.ph = 3 ∧ (s.spanRun 0).rxShake.new = [] ∧
     (s.leadIn spanCfg0).sf = ((s.spanRun 0).rxShake.sfc + 1) % 65536 ∧ (s.spanRun 0).txShake.ph ≠ 2) ∧
    (let s := spanState default default { (default : SpanRun) with txShake := ⟨1, 0, [8], [7], 0⟩ }
     (s.spanRun 0).txShake.ph = 1 ∧ (s.spanRun 0).reqAt + spanCfg0.tmo * 1000000 ≤ s.mono) ∧
    (let s := spanState default default default
     s.port 0 = some spanPort ∧ s.carrierOf 0 = some (0, 0, spanCfg0, ⟨0, 8, 8, 8⟩) ∧ s.lineOn = true ∧ spanPort.up = true ∧
     (s.spanRun 0).rxShake.ph ≠ 1) := by
  (repeat' with_reducible apply And.intro) <;> decide +kernel

/-! ## Witnesses: slices, alignment, the tether, the role -/

/-- A packet of 64 bytes that is the first fragment of an IPv4 datagram. -/
def fragPkt : List Byte := List.replicate 12 0 ++ [0x08, 0x00, 0x45, 0, 0, 50, 0, 1, 0x20, 0, 64, 17] ++ List.replicate 40 0
/-- It at the head of slice 0's staging FIFO. -/
def stagedPkt : Staged := ⟨{ (default : RxPkt) with bytes := fragPkt }, 0, 0⟩
/-- Slice 0 with that packet, under a rule bank. -/
def arrived (b : RuleBank) : State :=
  { lit [14, 15] with
            cfg := { s0.cfg with fd := { s0.cfg.fd with rules := b } },
            fd := { s0.fd with gang := { s0.fd.gang with staging := [(0, [stagedPkt])] },
                               eng := { s0.fd.eng with egress := [(0, [(stagedPkt, default)])] } } }
/-- A move of bucket 4095 to slice 3. -/
def move3 : GangMove := ⟨4095, 3, false, [], 0, false, none, false⟩

theorem test_SlicesComplete_met :
    (let s := arrived default
     tget nil0 s.fd.gang.staging 0 = [stagedPkt] ∧ s.hasPhys 0 = true ∧ s.domain (ingressDomain (s.physOf 0)) = 0 ∧ s.xbarHeld 0 = false ∧
     s.busyThreads 0 false < (s.engOf (s.physOf 0)).ein * 4 ∧ bit ((s.bankOf s.curVer).profile 0 0) 7 = false) ∧
    (let s := arrived { (default : RuleBank) with profiles := [(0, [0x80, 0])] }
     s.rf 0x7F060600 31 31 = 1 ∧ bit ((s.bankOf s.curVer).profile 0 0) 7 = true ∧
     (fragInfo (s.cfgReg 0x7F040000) fragPkt).isSome = true) ∧
    (let s := arrived default
     tget nil0 s.fd.eng.egress 0 = [(stagedPkt, default)] ∧ s.domain (ingressDomain (s.physOf 0) + 1) = 0 ∧ s.busyThreads 0 true < (s.engOf (s.physOf 0)).eeg * 4 ∧
     (parsePacket [] [] fragPkt 0).1 ≠ .short ∧ (parsePacket [(0, [0x3FC000, 0, 0, 0])] [] fragPkt 0).1 = .short) ∧
    (let s : State := { s0 with fd := { s0.fd with frags := [default] }, time := { s0.time with mono := 2000000 } }
     s.fd.frags[0]? = some default ∧ (default : Frag).created + ms 2 ≤ s.mono ∧ (default : Frag).held = []) ∧
    (lit [5]).domain 5 = 0 ∧
    (let p : List Word := [0xFF000030]
     fdWide hFd = true ∧ p.length = 1 ∧ pf p 0 2 0 = 0 ∧ pf p 0 31 20 + pf p 0 19 8 ≤ 4095 ∧ s0.deepOn = false ∧
     s0.slipOrQuiet = false ∧ s0.hasPhys (pf p 0 7 4) = true ∧ s0.fd.gang.cmd = none ∧ s0.rollStep = false ∧ s0.fenceRuns = false ∧
     s0.mirrorRefuses 0xD10 hFd = false) ∧
    (let s := s0.setGang { s0.fd.gang with moves := [move3] }
     s.fd.gang.holding 4095 = some move3 ∧ tget zn s.fd.gang.counts 4095 = 0) ∧
    (let s := ({ s0 with time := { s0.time with mono := 10000 } } : State).setGang { s0.fd.gang with moves := [move3], counts := [(4095, 1)] }
     move3.since + 10000 ≤ s.mono ∧ s.fd.gang.holding 4095 = some move3 ∧ tget zn s.fd.gang.counts 4095 ≠ 0 ∧ move3.drain = false) := by
  (repeat' with_reducible apply And.intro) <;> decide +kernel

/-- The acting member of a formed pair, with its tether up on lane 0 and channel 4095 in alignment. -/
def paired (a : Align) : State :=
  ({ s0 with cfg := { s0.cfg with pair := { s0.cfg.pair with en := true, mirror := true } },
             pair := { s0.pair with act := true, formed := true, tetherUp := true, lanes := 1, chans := [(4095, a)],
                                    peer := some default } } : State).setDomain 9 0 |>.setDomain 6 0

theorem test_AlignmentCompletes_met :
    ((paired default).lineOn = true ∧ ((paired default).align 4095).enabled = false) ∧
    (let s := paired { (default : Align) with enabled := true }; (s.align 4095).enabled = true ∧ (s.align 4095).lock = false) ∧
    (let s := paired { (default : Align) with enabled := true, lock := true }
     (s.align 4095).enabled = true ∧ (s.align 4095).lock = true ∧ (s.align 4095).began = none) ∧
    (let a : Align := { (default : Align) with enabled := true, lock := true, peerLock := true, began := some 0 }
     let s := paired a
     (s.align 4095).enabled = true ∧ (s.align 4095).lock = true ∧ (s.align 4095).began = some 0 ∧ (0 : Word64).toNat + 100000 ≤ (100000 : Word64).toNat ∧
     s.pair.formed = true ∧ (s.putPos 4095 7).holds { a with markers := [(100000, 7)] } = true ∧ (s.align 4095).sent = none ∧
     (s.align 4095).retryAt = none) ∧
    (let s := paired { (default : Align) with retryAt := some 0 }; (s.align 4095).retryAt = some 0 ∧ 0 ≤ s.mono) ∧
    (∀ op ∈ [0, 1, 2], let p : List Word := [BitVec.ofNat 32 (0xFFF00000 + op * 64)]
     let s := paired default
     pf p 0 5 0 = 0 ∧ pf p 0 31 20 + (pf p 0 19 8 + 1) ≤ 4096 ∧ s.pair.act = true ∧ s.mirrorRefuses 0x601 hDev = false ∧
     pf p 0 7 6 = op ∧ pf p 0 19 8 + 1 ≤ 64) := by
  (repeat' with_reducible apply And.intro) <;> decide +kernel

/-- A frame of a TTYPE with a true TCRC. -/
def frameT (ttype : Byte) (lseq : Word) : TetherFrame :=
  let f : TetherFrame := ⟨ttype, 0, lseq, 0, [], 0⟩
  { f with tcrc := TetherFrame.crc f }

theorem test_TetherCompletes_met :
    (let s := paired default
     s.tetherOn = true ∧ (⟨1, 0, 0, 0, [], 0⟩ : TetherFrame).tcrc ≠ TetherFrame.crc ⟨1, 0, 0, 0, [], 0⟩ ∧
     (frameT 8 0).tcrc = TetherFrame.crc (frameT 8 0) ∧ ((frameT 8 0).lseq - (s.takeAck (frameT 8 0)).pair.rxSeq).toNat = 0 ∧
     (frameT 8 0).ttype.toNat = 8 ∧
     ((s.takeAck (frameT 8 0)).setPair { (s.takeAck (frameT 8 0)).pair with rxSeq := (frameT 8 0).lseq + 1 }).pair.ahead.find?
       (·.lseq == (1 : Word)) = none) ∧
    (∀ n ∈ [1, 1023, 1024], let s := paired default; let f := frameT 1 (BitVec.ofNat 32 n)
     f.tcrc = TetherFrame.crc f ∧ (f.lseq - (s.takeAck f).pair.rxSeq).toNat = n ∧
     (s.takeAck f).pair.ahead.any (·.lseq == f.lseq) = false ∧ (s.takeAck f).pair.tetherUp = true) ∧
    (let p := paired default
     let s : State := { p with time := { p.time with mono := 1000000 }, pair := { p.pair with tetherUp := false, statusFrom := some 0, goodAt := 950000 } }
     s.tetherOn = true ∧ s.pair.tetherUp = false ∧ s.pair.statusFrom = some 0 ∧ 0 + 1000000 ≤ s.mono ∧ s.mono < s.pair.goodAt + 100000) ∧
    (let s : State := { paired default with time := { s0.time with mono := 100000 } }
     s.pair.tetherUp = true ∧ s.pair.goodAt + 100000 ≤ s.mono) ∧
    (let s := (paired default).setPair { (paired default).pair with locks := [(7, ⟨true, 0, 0, 0⟩)] }
     let t : State := { s with time := { s.time with mono := 1000000 } }
     t.domain 9 = 0 ∧ (tget dflt t.pair.locks 7).lock = true ∧ (tget dflt t.pair.locks 7).since + 1000000 ≤ t.mono ∧
     t.pair.lanes.getLsbD 7 = false) ∧
    (let p := paired default
     let s : State := { p with time := { p.time with mono := 2000 }, pair := { p.pair with ahead := [frameT 1 3] } }
     s.pair.ahead ≠ [] ∧ s.pair.gapAt + 2000 ≤ s.mono) ∧
    ((paired default).tetherOn = true ∧ (paired default).pair.act = true) ∧
    (let w : MirrorWait := ⟨⟨0x400, hTd, []⟩, 0, [], 0⟩
     let s := (paired default).setPair { (paired default).pair with waits := [w] }
     s.pair.waits = [w] ∧ w.since + 1000000 ≤ ({ s with time := { s.time with mono := 1000000 } } : State).mono) := by
  (repeat' with_reducible apply And.intro) <;> decide +kernel

/-- A member that does not act, in an enabled pair with a referee, in STANDBY. -/
def standby (r : Option ModeReq) : State :=
  ({ s0 with cfg := { s0.cfg with pair := { s0.cfg.pair with en := true, auto := true, refEn := true } },
             pair := { s0.pair with refOk := true, allow := 2, holdoff := some 0 },
             time := { s0.time with mono := 5000000 },
             pwr := { s0.pwr with mode := .standby, modeReq := r } } : State).setDomain 9 0

theorem test_RoleCompletes_met :
    s0.pair.oselFault = false ∧
    (let s := standby none
     s.cfg.pair.en = true ∧ s.pair.act = false ∧ s.claimConds = true ∧ s.pair.holdoff = some 0 ∧
     0 + (if s.pair.sideB then 3000 else 2000) ≤ s.mono ∧ s.claimCmd = none ∧ s.autoClaims = true) ∧
    (let r : ModeReq := ⟨.active, none, true⟩; let s := standby (some r)
     s.claimConds = true ∧ s.claimCmd = some r ∧ r.prepared = true) ∧
    (let s : State := { s0 with pair := { s0.pair with yielded := true }, time := { s0.time with mono := 10000000 } }
     s.pair.yielded = true ∧ s.pair.yieldAt + 10000000 ≤ s.mono) ∧
    (let s := standby none
     s.refOn = true ∧ s.pair.refLost = false ∧ s.pair.verdictAt + ms s.cfg.pair.refTmo ≤ s.mono ∧ verdictBad 0 = some 0) ∧
    (let body : Nat := 9 * 2 ^ 52 + 2 * 2 ^ 46 + 1 * 2 ^ 44 + 0xFFFF * 2 ^ 12
     let w : Word64 := BitVec.ofNat 64 (body * 256 + (crc8From 0xFF#8 (beBytes 7 body)).toNat)
     verdictBad w = none ∧ (standby none).pair.refLost = false ∧ (standby none).pair.allow = BitVec.ofNat 2 (bits w 55 54) ∧ (standby none).allowsSide = true) ∧
    ((standby none).cfg.pair.en = true ∧ (standby none).pwr.mode = .standby ∧ (8 : Fin 9).val ≠ 4 ∧
      ((standby none).pair.mirrorOff = false ∧ ((standby none).setPair { (standby none).pair with mirrorOff := true }).pair.mirrorOff = true)) ∧
    (∀ en ∈ [0, 1], let p : List Word := [BitVec.ofNat 32 (en * 2 ^ 31 + 2 * 2 ^ 20), 0xC8000000]
     devWide hDev = true ∧ pf p 0 6 0 = 0 ∧ pf p 1 24 16 = 0 ∧ 2 ≤ (pairCfgOf p).refTmo ∧ 1 ≤ (pairCfgOf p).alignWin ∧
     (pairCfgOf p).alignWin ≤ 100 ∧ hdrUser hDev = false ∧ s0.slipOrQuiet = false ∧ s0.mirrorRefuses 0x600 hDev = false ∧
     (pairCfgOf p).refEn = s0.cfg.pair.refEn ∧ (pairCfgOf p).mirror = s0.cfg.pair.mirror ∧
     (pairCfgOf p).peerNode = s0.cfg.pair.peerNode ∧ (pairCfgOf p).en = (en == 1) ∧ modeOpensStatic s0.pwr.mode = true) ∧
    (s0.pwr.mode ≠ .slipway ∧ s0.mirrorRefuses 0x602 hDev = false) ∧
    (let p : List Word := [0x80000000]
     pf p 0 30 0 = 0 ∧ (paired default).cfg.pair.en = true ∧ (paired default).pair.act = true ∧ bit (par p 0) 31 = true ∧
     (paired default).mirrorRefuses 0x603 hDev = false) := by
  (repeat' with_reducible apply And.intro) <;> decide +kernel

/-! ## Witnesses: memory, store, time, OAM, counters -/

/-- Stack 3 as given. -/
def withStack (k : Stack) : State := (lit [13]).putStack 3 k
/-- A pseudo-channel 62 as given. -/
def withPc (c : Pc) : State := withStack ((s0.stack 3).putPc 62 c)

theorem test_MemoryUpkeepCompletes_met :
    ((lit [13]).domain (10 + 3) = 0 ∧ (withStack (s0.stack 3)).domain (10 + 3) = 0 ∧ (s0.stack 3).selfRefresh = false ∧ tget zn ((s0.stack 3).pc 62).debt 127 + (1 - 0) * (2 / 1) < 16) ∧
    (let s := withPc { (s0.stack 3).pc 62 with debt := [(127, 14)] }
     (s.stack 3).selfRefresh = false ∧ 16 ≤ tget zn ((s.stack 3).pc 62).debt 127 + (1 - 0) * (2 / 1)) ∧
    (2 ≤ 9 ∧ 9 ≤ 9 ∧ 589823 ≤ 589823 ∧ (s0.stack 3).serves 62 = true ∧ ((s0.stack 3).pc 62).ues = [] ∧
      (((((s0.stack 3).pc 62).ces.filter (fun e : Nat × Nat => s0.spares.poh < e.2 + 24)) ++ [(589823, s0.spares.poh)]).filter
        (fun e : Nat × Nat => e.1 == 589823)).length < 3) ∧
    (let s := withPc { (s0.stack 3).pc 62 with ces := [(589823, 0), (589823, 0)] }
     (s.stack 3).serves 62 = true ∧
      3 ≤ (((((s.stack 3).pc 62).ces.filter (fun e : Nat × Nat => s.spares.poh < e.2 + 24)) ++ [(589823, s.spares.poh)]).filter
        (fun e : Nat × Nat => e.1 == 589823)).length) ∧
    (let s := withPc { (s0.stack 3).pc 62 with copying := [5] }
     ((s.stack 3).pc 62).copying.contains 5 = true ∧ (s.stack 3).serves 62 = true) ∧
    (let s := withStack { s0.stack 3 with swap := some (62, 0) }; (s.stack 3).swap = some (62, 0) ∧ (s.stack 3).waits = []) ∧
    ((lit [2]).domain 2 = 0 ∧ ({ lit [2] with spares := { s0.spares with unwritten := [default] } } : State).spares.unwritten = [default]) ∧
    (let p : List Word := [0, 16]
     1 ≤ pf p 1 4 0 ∧ pf p 1 4 0 ≤ 16 ∧ pf p 1 31 5 = 0 ∧ s0.mirrorRefuses 0xC03 hDev = false) ∧
    (∀ k ∈ [0, 1, 2, 3], let p : List Word := [BitVec.ofNat 32 (k * 2 ^ 30)]
     pf p 0 29 0 = 0 ∧ s0.pwr.mode ≠ .slipway ∧ s0.mirrorRefuses 0xC00 hDev = false ∧ pf p 0 31 30 = k) ∧
    (let p : List Word := [0xA0000000, 0xC400EFFF, 0]
     let f := s0.spareApply (pf p 0 31 28) (pf p 1 29 24) (pf p 1 23 0) (par p 2).toNat
     pf p 0 27 0 = 0 ∧ spareUnitOk (pf p 0 31 28) (pf p 1 31 30) (pf p 1 29 24) (pf p 1 23 0) (par p 2).toNat = true ∧
     hdrUser hDev = false ∧ s0.slipOrQuiet = false ∧ s0.mirrorRefuses 0xC02 hDev = false ∧ f.1 = (false, false, false)) ∧
    (let p : List Word := [0xA0000000, 0xC400EFFF, 0]
     let s : State := { s0 with mem := { s0.mem with defects := [(61439, 61440)] } }
     (s.spareApply (pf p 0 31 28) (pf p 1 29 24) (pf p 1 23 0) (par p 2).toNat).1.1 = true) := by
  (repeat' with_reducible apply And.intro) <;> decide +kernel

/-- A checkpoint scheduled or running, with a full one in the store and an image staged. -/
def ckpt (r : Option CkptRun) (tokens : Nat) : State :=
  { s0 with mem := { s0.mem with run := r, tokens := tokens }, store := { s0.store with ckpts := [default], staged := some Setup.reset } }

theorem test_StoreCompletes_met :
    (let s := lit [2]
     s.domain 2 = 0 ∧ 61439 < 61440 ∧ s.mem.retiring = [] ∧ s.ckptBusy = false ∧ ¬ 8760 ≤ s.spares.poh - tget zn s.mem.wroteAt 61439 ∧
     (tfind s.mem.moved 61439).isSome = false) ∧
    (let s : State := { lit [2] with spares := { s0.spares with poh := 8760 } }; 8760 ≤ s.spares.poh - tget zn s.mem.wroteAt 61439) ∧
    (let s : State := { lit [2] with mem := { s0.mem with moved := [(61439, 7)] } }; (tfind s.mem.moved 61439).isSome = true) ∧
    (let s : State := { lit [2] with time := { s0.time with mono := 86400000000000 }, pwr := { (lit [2]).pwr with fwRuns := true } }
     s.domain 2 = 0 ∧ s.mem.reported + 86400000000000 ≤ s.mono ∧ s.pwr.fwRuns = true ∧ s.mem.pcAt + 10000000000 ≤ s.mono) ∧
    (let p (k : Nat) : List Word := [BitVec.ofNat 32 (k * 2 ^ 30), 0, 0]
     targetIs (hdr 3 4) 3 4 = true ∧ s0.slipOrQuiet = false ∧ s0.pwr.mode ≠ .test ∧ s0.mirrorRefuses 0xC01 (hdr 3 4) = false ∧
     pf (p 0) 0 29 0 = 0 ∧ pf (p 0) 0 31 30 = 0 ∧ s0.tooSoon (s0.tickOf (par64 (p 0) 1)) = false ∧ s0.mem.run = none ∧
     s0.nearActivation (par64 (p 0) 1) = false ∧
     pf (p 1) 0 31 30 = 1 ∧ (ckpt none (1048576 * jByte)).store.ckpts ≠ [] ∧
     1048576 * jByte ≤ (ckpt none (1048576 * jByte)).mem.tokens ∧ pf (p 2) 0 31 30 = 2) ∧
    (let r : CkptRun := ⟨true, 0, none, false⟩; let s := ckpt (some r) (1024 * jByte)
     s.mem.run = some r ∧ r.kib = none ∧ s.reached r.due = true ∧ r.incr = true ∧ 1 * 1024 * jByte ≤ s.mem.tokens ∧
     s.mem.tokens < 2 * 1024 * jByte) ∧
    (let r : CkptRun := ⟨false, 0, none, false⟩; let s := ckpt (some r) 0
     s.mem.run = some r ∧ s.reached r.due = true ∧ r.incr = false ∧ s.tooSoon s.time.ticks = false) ∧
    (let r : CkptRun := ⟨false, 0, some 9, false⟩; let s := ckpt (some r) 0
     s.mem.run = some r ∧ s.store.staged = some Setup.reset ∧ r.kib = some 9) := by
  (repeat' with_reducible apply And.intro) <;> decide +kernel

/-- The 1PPS input in use. -/
def ppsState (t : Time) : State := { s0 with cfg := { s0.cfg with regs := [(0x3F020000, 0x80000000)] }, time := t }
/-- A valid time-of-day message of second 7. -/
def todMsg : List Byte :=
  let m : List Byte := [0x56, 0x54, 0x01, 1] ++ beBytes 6 7 ++ [0, 37, 0, 0]
  m ++ beBytes 2 (crc16 m).toNat

theorem test_TimeCompletes_met :
    (let p (k : Nat) (v : Word) : List Word := [BitVec.ofNat 32 (k * 2 ^ 30), v, 0]
     devWide hDev = true ∧ hdrUser hDev = false ∧ s0.pwr.mode ≠ .slipway ∧ s0.rf 0x3F020000 31 31 = 0 ∧
     s0.mirrorRefuses 0x910 hDev = false ∧ pf (p 0 0) 0 29 0 = 0 ∧ pf (p 0 0) 0 31 30 = 0 ∧ pf (p 1 0) 0 31 30 = 1 ∧
     pf (p 2 10000000) 0 31 30 = 2 ∧ (par64 (p 2 10000000) 1).toInt.natAbs ≤ 10000000 ∧ pf (p 3 65536000) 0 31 30 = 3 ∧
     (par64 (p 3 65536000) 1).toInt.natAbs ≤ 65536000 ∧ s0.mirrorRefuses 0x911 hDev = false) ∧
    ({ s0 with time := { s0.time with slew := some 0 } } : State).time.slew = some 0 ∧
    (let s := ppsState { s0.time with servo := .holdover, todNext := some 7 }
     s.ppsOn = true ∧ s.servo = .holdover ∧ s.edgeLabel = (some 7, true)) ∧
    (let s := ppsState { s0.time with servo := .locked, lastEdge := some 0, dev := 1000010001 }
     s.ppsOn = true ∧ s.time.lastEdge = some 0 ∧ s.servo = .locked ∧
     1000010000 < (s.now.toNat : Int) - (0 : Word64).toNat ∧ (0 : Word64).toNat + 1000010000 < s.now.toNat) ∧
    (let s := ppsState { s0.time with servo := .locked, lastEdge := some 0, dev := 999989999 }
     s.ppsOn = true ∧ s.time.lastEdge = some 0 ∧ s.servo = .locked ∧ (s.now.toNat : Int) - (0 : Word64).toNat < 999990000) ∧
    (let s : State := { s0 with time := { s0.time with tset := true, dev := 3000000000, mono := 1000000000 } }
     s.test.tapHolds = false ∧ s0.time.tset = false ∧ s.time.tset = true ∧ s.pwr.mode ≠ .slipway ∧ s.wholeSecond = true ∧
     s.time.ppsRose + s.ppsWidth ≤ s.mono) ∧
    (∀ d ∈ [100000000, 900000000], let s := ppsState { s0.time with lastEdge := some 0, dev := BitVec.ofNat 64 d }
     s.ppsOn = true ∧ s.time.lastEdge = some 0 ∧ todValid todMsg = true ∧ 100000000 ≤ s.now.toNat - (0 : Word64).toNat ∧
     s.now.toNat - (0 : Word64).toNat ≤ 900000000) := by
  (repeat' with_reducible apply And.intro) <;> decide +kernel

/-- A session 16383, in STANDALONE with the OAM engine on. -/
def oamState (c : OamCfg) (r : OamRun) : State :=
  ({ s0 with cfg := { s0.cfg with regs := [(0xBF2A0000, 0x80000000)], oam := [(16383, some c)] },
             pwr := { (lit [7, 14]).pwr with mode := .standalone }, time := { s0.time with dev := 4000000000, mono := 4000000000 } } : State).putOam 16383 r
/-- A BFD session, and a CCM one. -/
def bfd : OamCfg := { (default : OamCfg) with en := true, mult := 3, txInt := 1000000, rxInt := 1000000, disc := 5, tpl := List.replicate 42 0 }
def ccm : OamCfg := { (default : OamCfg) with ccm := true, en := true, txInt := 4, tpl := List.replicate 96 0 }
/-- A BFD control packet in UDP over IPv4, for no discriminator of this side. -/
def bfdFrame : List Byte :=
  List.replicate 12 0 ++ [0x08, 0x00, 0x45, 0, 0, 52, 0, 0, 0, 0, 64, 17] ++ List.replicate 10 0 ++ [0, 0, 0x0E, 0xC8, 0, 32, 0, 0]
    ++ [0x20, 0x40, 1, 24, 0, 0, 0, 9] ++ List.replicate 16 0

/-- A BFD frame that waits in the OAM sink queue under a session. -/
def sinkEnt (k : Nat) (tail : Option Bool) : QEnt :=
  { qEnt with pkt := { tdPkt with bytes := bfdFrame, tail, emeta := BitVec.ofNat 32 k }, len := bfdFrame.length }
/-- Session 5 configured, and that frame. -/
def sinkState (k : Nat) (tail : Option Bool) : State :=
  let s := oamState bfd default
  State.putQ { s with cfg := { s.cfg with oam := [(5, some bfd)] } } 0 { (default : QRun) with ents := [sinkEnt k tail], depth := bfdFrame.length }

theorem test_OamCompletes_met :
    (let p : List Word := [0xFFFC4000, 0, 3300, 3300, 0x03101200, 5, 0, 0, 0, 0]
     s0.oamBad hTd p = false ∧ hTd.priv ≠ 2 ∧ s0.slipOrQuiet = false ∧ s0.mirrorRefuses 0x900 hTd = false ∧
     s0.oamCfg (pf p 0 31 18) = none) ∧
    (let p : List Word := [0xFFFC0000]
     tdWide hTd = true ∧ pf p 0 17 0 = 0 ∧ s0.mirrorRefuses 0x901 hTd = false ∧ s0.oamCfg (pf p 0 31 18) = none ∧
     (oamState ccm default).oamCfg (pf p 0 31 18) = some ccm ∧ ccm.ccm = true ∧
     (oamState bfd default).oamCfg (pf p 0 31 18) = some bfd ∧ bfd.ccm = false ∧ (oamState bfd default).slipOrQuiet = false ∧
     (oamState bfd default).mirrorRefuses 0x901 hTd = false ∧ s0.mirrorRefuses 0x902 hTd = false) ∧
    (let s := oamState ccm { (default : OamRun) with leaving := 1, nextTx := some 0 }
     s.oamSends = true ∧ (s.oamRun 16383).nextTx = some 0 ∧ 0 ≤ s.mono ∧ ccm.en = true ∧
     ((s.oamSend 16383 ccm false).oamRun 16383).leaving = 1) ∧
    (let s := oamState ccm { (default : OamRun) with nextTx := some 0 }; (s.oamRun 16383).nextTx = some 0 ∧ ((s.oamSend 16383 ccm false).oamRun 16383).leaving ≠ 1) ∧
    (let r : OamRun := { (default : OamRun) with state := 3, rMult := 3 }; let s := oamState bfd r
     s.oamSends = true ∧ s.oamRun 16383 = r ∧ r.rxAt + detectNs bfd r ≤ s.mono ∧ 2 ≤ r.state) ∧
    (let s := oamState ccm default; (s.oamRun 16383).rxAt + detectNs ccm (s.oamRun 16383) ≤ s.mono ∧
      ({ s with time := { s.time with mono := 0 } } : State).mono < (s.oamRun 16383).rxAt + detectNs ccm (s.oamRun 16383)) ∧
    (∀ x ∈ [(5, some false), (5, some true), (0x3FFF, some false)], let s := sinkState x.1 x.2
     s.oamOn = true ∧ modeForwards s.pwr.mode = true ∧ (s.qrun (s.rf 0xBF2A0000 30 13)).ents = [sinkEnt x.1 x.2] ∧
     s.headReady (sinkEnt x.1 x.2) = true ∧ (sinkEnt x.1 x.2).pkt.tail = x.2) ∧
    (let v := (sinkState 5 (some false)).leaveQ 0 (sinkEnt 5 (some false))
     (if v.oam.gotSec = v.time.secNo then v.oam.got else 0) < 8000000 ∧
     (let u : State := { v with oam := { v.oam with got := 1, gotSec := v.time.secNo } }
      (u.oamTake (oamSession (sinkEnt 5 (some false)).pkt) bfdFrame).isSome = true ∧ u.oamSends = true ∧
      (u.oamTake (oamSession (sinkEnt 0x3FFF (some false)).pkt) bfdFrame).isNone = true)) ∧
    (let s := sinkState 5 (some false)
     let v := ({ s with oam := { s.oam with got := 8000000, gotSec := s.time.secNo } } : State).leaveQ 0 (sinkEnt 5 (some false))
     8000000 ≤ (if v.oam.gotSec = v.time.secNo then v.oam.got else 0)) ∧
    (let p : List Word := [0xE0400000]
     pf p 0 15 0 = 0 ∧ 1 ≤ pf p 0 22 16 ∧ pf p 0 22 16 ≤ 64 ∧ pf p 0 31 23 + pf p 0 22 16 ≤ 512 ∧
     s0.mirrorRefuses 0x903 hTd = false) := by
  (repeat' with_reducible apply And.intro) <;> decide +kernel

/-- A snapshot of counters 0 to 4095 of space 0. -/
def snapState (cut : Bool) : State := s0.setCnt { s0.cnt with snaps := [(0, some ⟨false, 0, 0, 4096, cut⟩)] }

theorem test_CountersComplete_met :
    (tdWide hTd = true ∧ s0.slipOrQuiet = false) ∧
    ((lit [13]).domain (10 + 3) = 0 ∧ ((lit [13]).stack 3).serves 62 = true) ∧
    (let p : List Word := [0xFC00E000, 0x00000FFF, 0x00000001]
     pf p 0 25 24 = 0 ∧ pf p 0 12 0 = 0 ∧ pf p 1 31 24 = 0 ∧ pf p 2 31 25 = 0 ∧ pf p 2 24 0 ≠ 0 ∧
     pf p 1 23 0 + pf p 2 24 0 ≤ spaceSize (pf p 0 13 13) ∧ hdrUser hTd = false ∧ s0.mirrorRefuses 0x803 hTd = false) ∧
    (let p : List Word := [0xFFF80000, 0x0E000000, 0, 0]
     pf p 0 16 0 = 0 ∧ pf p 1 10 8 = 0 ∧ (cntOfWords p).event ≤ 14 ∧ (cntOfWords p).byLen = false ∧
     s0.mirrorRefuses 0x800 hTd = false) ∧
    (let p : List Word := [0, 1, 0, 0, 4096]
     pf p 0 29 0 = 0 ∧ 1 ≤ (par p 4).toNat ∧ (par p 4).toNat ≤ (if pf p 0 31 31 = 0 then 4096 else 1048576) ∧
     (par p 3).toNat + (par p 4).toNat ≤ spaceSize (pf p 0 31 31) ∧
     s0.noGrant hTd 0 (pf p 0 31 31) (par p 3).toNat (par p 4).toNat = false ∧ tget none0 s0.cnt.snaps (pf p 0 31 31) = none ∧
     s0.nearActivation (par64 p 1) = false ∧ s0.mirrorRefuses 0x801 hTd = false) ∧
    (let p : List Word := [64, 4032]
     pf p 0 28 8 = 0 ∧ (bit (par p 0) 30 && bit (par p 0) 29) = false ∧ 1 ≤ pf p 0 7 0 ∧ pf p 0 31 31 = 0 ∧ pf p 0 7 0 ≤ 64 ∧
     (par p 1).toNat + pf p 0 7 0 ≤ spaceSize 0 ∧ s0.noGrant hTd 0 0 (par p 1).toNat (pf p 0 7 0) = false ∧
     s0.mirrorRefuses 0x802 hTd = false) ∧
    (let p : List Word := [0x200000AF]
     pf p 0 27 8 = 0 ∧ pf p 0 7 0 < (scopeSize (pf p 0 31 29)).2 ∧ s0.mirrorRefuses 0x804 hTd = false) ∧
    (let s := snapState false; tget none0 s.cnt.snaps 0 = some ⟨false, 0, 0, 4096, false⟩ ∧ s.reached 0 = true) ∧
    tget none0 (snapState true).cnt.snaps 0 = some ⟨false, 0, 0, 4096, true⟩ := by
  (repeat' with_reducible apply And.intro) <;> decide +kernel

/-! ## Witnesses: rings and registers -/

/-- The endpoint and the dies are on. -/
def up : State :=
  { s0 with pwr := { s0.pwr with domains := (List.range 63).map (fun d => (d + 1, 0)), phase := 6, startDue := none }, host := { s0.host with rom := false } }
/-- Ring 7 enabled for PRIV 1 with a command waiting, and outbound ring 0 enabled or not. -/
def ringState (out : Bool) : State :=
  { up with host := { up.host with regs := [(0x3F070178, 0x80400000)] ++ (if out then [(0x3F070208, 0x80000000)] else []) ++ [(0x3F078000, 64)] } }
/-- The words of a NOP for ring 7 with RING_SEQ 9, and of one with a bad length. -/
def nopWords : List Word := [0x00000014, 0x0000E800, 0x3F000000, 9]
def oddWords : List Word := [0x00000015, 0x0000E800, 0x3F000000, 9]
/-- A held attention wait, which names another state. -/
def heldWait : Started := ⟨0x001, hDev, [0x00400000]⟩
/-- A punt of ring 0. -/
def puntRec (n : Nat) : PuntRec := ⟨0, 5, false, false, 3, 0, 1, 1, 0, 0, 0, 0, List.replicate n 7⟩
/-- It waits, with outbound ring 0 on or off and its OTAIL there. -/
def punting (out : Bool) (head : Nat) : State :=
  let s := ringState out
  { s with host := { s.host with punts := [puntRec 60], outs := if head = 0 then [] else [(0, ⟨head⟩)] } }

theorem test_HostRingsComplete_met :
    (up.pcieUp = true ∧ (ringState true).ringOn 7 = true ∧ bit (0 : Word) 31 = false ∧ (ringState true).mayFetch 7 = true) ∧
    (packetOf (withTrailer oddWords)).len % 4 ≠ 0 ∧
    (let s := ringState true; let b := withTrailer nopWords; let p := packetOf b
     p.len % 4 = 0 ∧ 20 ≤ p.len ∧ p.len ≤ 65532 ∧ p.len ≤ s.cmdBytes 7 ∧ trailerBad (b.take 19) p.len = true ∧
     trailerBad b p.len = false ∧ p.prio = 7 ∧ ((s.passCommand 7 p.len).ring 7).expect = none ∧
     (let s1 := s.passCommand 7 p.len
      let s2 := s1.setRing 7 { s1.ring 7 with expect := some (p.w3 + 1) }
      s2.headCheck p (p.priv == 3 || p.priv < s2.topPriv 7) s2.romServes = none)) ∧
    (s0.mirrorRefuses 0x000 hDev = false ∧ s0.mirrorRefuses 0x003 hDev = false ∧ s0.mirrorRefuses 0x001 hDev = false) ∧
    (let p : List Word := [0xFA010000]
     1 ≤ pf p 0 31 22 ∧ pf p 0 31 22 ≤ 1000 ∧ pf p 0 1 0 = 0 ∧ (s0.ring (srcRing hDev)).held = none ∧ s0.differs (par p 0) = false ∧
     s0.differs (par [0xFA000000] 0) = true) ∧
    (let s := s0.setRing 7 { s0.ring 7 with held := some (heldWait, 0) }
     (s.ring 7).held = some (heldWait, 0) ∧ s.differs (par heldWait.par 0) = true ∧ 0 ≤ s.mono) ∧
    (let s : State := { inMode .quiescent with host := { s0.host with ctrlAwake := true }, time := { s0.time with mono := 10000000 } }
     s.pwr.mode = .quiescent ∧ s.host.ctrlAwake = true ∧ s.host.ctrlAt + 10000000 ≤ s.mono ∧
     ∀ n, n < 8 → (s.ring n).running = none ∧ (s.ring n).doneAt + 10000000 ≤ s.mono) ∧
    (let q (out : Bool) (head : Nat) : State := { punting out head with host := { (punting out head).host with punts := [] } }
     (punting false 0).host.punts = [puntRec 60] ∧ (q false 0).outOn 0 = false ∧
     (q true 16256).outOn 0 = true ∧ (q true 16256).outRoom 0 64 < ((q true 16256).puntBytes (puntRec 60)).length ∧
     (q true 0).outOn 0 = true ∧ ((q true 0).puntBytes (puntRec 60)).length ≤ (q true 0).outRoom 0 64) := by
  (repeat' with_reducible apply And.intro) <;> decide +kernel

/-- The window at a block. -/
def windowAt (s : State) (k : Nat) : State := { s with host := { s.host with regs := [(0x3F070010, BitVec.ofNat 32 (k * 65536))] } }

theorem test_BarCompletes_met :
    (up.pcieUp = true ∧ (0x00010#20).toNat % 4 = 0 ∧ up.barAddr 0x00010 = some (0x3F070010, false) ∧
     (false && up.blockOff 0x3F07) = false ∧ (windowAt up 0xBF22).barAddr 0x2FFFC = some (0xBF22FFFC, true) ∧
     (windowAt up 0xBF22).pcieUp = true ∧ (true && (windowAt up 0xBF22).blockOff 0xBF22) = false ∧
     (0x30000#20).toNat % 4 = 0 ∧ up.barAddr (0x30000#20).toNat = none) ∧
    (let s := windowAt (s0.setDomain 1 0) 0xBF22
     s.pcieUp = true ∧ s.barAddr (0x2FFFC#20).toNat = some (0xBF22FFFC, true) ∧ s.blockOff 0xBF22 = true) ∧
    ((0xFFFFE#20).toNat % 2 = 0 ∧ (0xFFFF8#20).toNat % 8 = 0) ∧
    (up.blockOff 0x7F08 = false ∧ up.blockOff 0xBF22 = false ∧ up.blockOff 0x3F05 = false ∧ up.blockOff 0xBF2C = false) ∧
    (bit ((s0.setHw 0x3F050020 0x80).hwReg 0x3F050020) 7 = true) ∧
    (let s : State := { up with 
       wr := { up.wr with hw := [(0x3F070404, 0x80000000)] }, host := { up.host with regs := [(0x3F070400, 2)] } }
     s.mbxGo = true ∧ s.mbxCode (s.cfgReg 0x3F070400).toNat (s.rf 0x3F070404 3 0 + 1) ≠ codeOk) ∧
    (∃ r, regRowAt 0x3F050100 = some r ∧ r.mask .tv = 0) := by
  (repeat' with_reducible apply And.intro) <;> first | exact ⟨_, rfl, by decide +kernel⟩ | decide +kernel

theorem test_RegisterCommandsComplete_met :
    (devWide hDev = true ∧ hDev.priv ≠ 2 ∧ (0xBFFFFFFC#32).toNat % 4 = 0) ∧
    (let p : List Word := [0x3F05FC00, 256]
     (par p 0).toNat % 4 = 0 ∧ pf p 1 31 9 = 0 ∧ 1 ≤ pf p 1 8 0 ∧ pf p 1 8 0 ≤ 256 ∧ rangePast (par p 0).toNat (pf p 1 8 0) = false ∧
     (addrsFrom (par p 0).toNat (pf p 1 8 0)).any inMb = false ∧ up.romServes = false ∧ up.mirrorRefuses 0x100 hDev = false) ∧
    (let p : List Word := [0xBF220040, 64]
     (par p 0).toNat % 4 = 0 ∧ pf p 1 31 7 = 0 ∧ 1 ≤ pf p 1 6 0 ∧ pf p 1 6 0 ≤ 64 ∧ (p ++ List.replicate 64 0).length = 2 + pf p 1 6 0 ∧
     rangePast (par p 0).toNat (pf p 1 6 0) = false ∧ inPcie (par p 0).toNat = false ∧ up.mirrorRefuses 0x101 hDev = false) ∧
    (let r := up.regWrites 1 0x3F030030 0 [0]
     up.romServes = false ∧ r.2.2 ≠ codeTimeout ∧ r.1.pwRuns 0x3F030030 1 = false ∧
     ({ up with wr := { up.wr with busy := [0xBF22] } } : State).cmdBars 0xBF220040 0 0xFFFFFFFF#32 = some codeTimeout) ∧
    (let u := up.cmdWrite 1 0x3F030030 0 0
     u.pwRuns 0x3F030030 1 = false ∧
     (up.cmdWrite 1 0xBF2C0100 3 0xFFFFFFFF).pwRuns 0xBF2C0100 1 = true ∧
     ({ up with wr := { up.wr with busy := [0xBF22] } } : State).blockBusy 0xBF22 = true) ∧
    (let a := 0x3F030030
     a % 4 = 0 ∧ hasMk a = false ∧ inPcie a = false ∧ inMb a = false ∧ up.staticBars a 0 0xFFFFFFFF = false ∧
     up.blockBusy (a / 65536) = false ∧ up.romServes = false ∧ up.mirrorRefuses 0x102 hDev = false) ∧
    (let a := 0x3F010010; let p : List Word := [0x3F010010, 1]
     (par p 0).toNat = a ∧ pf p 1 31 4 = 0 ∧ pf p 1 3 0 ≠ 0 ∧ mbRegs.contains (a, pf p 1 3 0 + 1) = true ∧ inPcie a = false ∧
     (p ++ [0, 0]).length = 2 + (pf p 1 3 0 + 1) ∧ up.blockBusy (a / 65536) = false ∧ up.romServes = false ∧
     up.mirrorRefuses 0x103 hDev = false ∧ up.mirrorRefuses 0x104 hDev = false) := by
  (repeat' with_reducible apply And.intro) <;> decide +kernel

/-! ## Witnesses: modes, power, rails, resets -/

/-- A MODE_SET's first parameter. -/
def modeP (m : Mode) : List Word := [BitVec.ofNat 32 (modeCode m * 2 ^ 29)]
/-- A MODE_SET that waits. -/
def waits (m : Mode) (pair : Bool) : State :=
  let s := inMode .boot
  { s with pwr := { s.pwr with modeReq := some ⟨m, some ⟨0x002, hDev, modeP m⟩, false⟩ },
           cfg := { s.cfg with pair := { s.cfg.pair with en := pair } } }

theorem test_ModesComplete_met :
    (∀ m ∈ [Mode.boot, .quiescent, .slipway], let p := modeP m; let s : State := { s0 with mem := { s0.mem with tokens := 2 ^ 60 }, store := { s0.store with ckpts := [default] } }
     modeOf (pf p 0 31 29) = m ∧ p.length = 1 ∧ pf p 0 28 0 = 0 ∧ hDev.priv ≠ 2 ∧ s.modeWrong m = false ∧ s.modeBusy m = false ∧
     s.quiesceRefused = false) ∧
    (Mode.boot = s0.pwr.mode ∧ Mode.quiescent ≠ s0.pwr.mode) ∧
    ((waits .active true).isClaim .active = true ∧ (waits .slipway false).isClaim .slipway = false ∧
     (waits .standby true).isClaim .standby = false ∧ (waits .standby true).pwr.mode ≠ .test) ∧
    (let s : State := { s0 with pwr := { s0.pwr with quiescing := true } }; s.pwr.quiescing = true ∧ s.mem.run = none) ∧
    (let s : State := { inMode .drain with time := { s0.time with mono := 1000000000 } }
     s.pwr.mode = .drain ∧ s.pwr.drainSaid = false ∧ s.queuesEmpty = true ∧ s.pwr.drainAt + ms 1000 ≤ s.mono) := by
  (repeat' with_reducible apply And.intro) <;> decide +kernel

/-- A window has ended, and is measured. -/
def windowed (s : State) : State :=
  let s : State := { s with time := { s.time with dev := 100000 } }
  (s.setPwr { s.pwr with window := s.now.toNat / 100000 }).ferryMeasure [default] [(4095, 7)]

/-- STANDALONE with the ferryman on, which keeps `k` halves, and slice 15 in a state. -/
def ferrying (k st : Nat) : State :=
  let s := inMode .standalone
  let s : State := { s with cfg := { s.cfg with ferry := { s.cfg.ferry with en := true, idle := true, off := true, qoff := true, minSlices := k } },
                            pwr := { s.pwr with domains := [(5, 0), (62, 0), (63, 0)], gatedAt := [(15, 1)] } }
  s.setGang { s.fd.gang with st := if st = 0 then [] else [(15, st)] }

theorem test_FerrymanCompletes_met :
    (let s : State := { ferrying 16 1 with time := { s0.time with dev := 100000 } }
     s.now.toNat / 100000 ≠ s.pwr.window ∧ s.domain 5 = 0 ∧ s0.now.toNat / 100000 = s0.pwr.window) ∧
    (windowed (inMode .boot)).ferryRuns = false ∧
    (let s := windowed (ferrying 16 1)
     s.ferryRuns = true ∧ s.inService.length + s.fd.gang.wakes.length < s.ferryNeed (slices.map (tget zn s.fd.gang.use)).sum) ∧
    (let s := windowed (ferrying 16 0)
     s.ferryRuns = true ∧ s.inService.length + s.fd.gang.wakes.length = s.ferryNeed (slices.map (tget zn s.fd.gang.use)).sum) ∧
    (let s := windowed (ferrying 1 0)
     s.ferryRuns = true ∧ s.ferryNeed (slices.map (tget zn s.fd.gang.use)).sum < s.inService.length + s.fd.gang.wakes.length ∧
     (ferrying 1 0).pwr.lowSince = none ∧ 1 ≤ (ferrying 1 0).cfg.ferry.downMs) := by
  (repeat' with_reducible apply And.intro) <;> decide +kernel

/-- Every bucket of slice 15 maps to slice 0. -/
def moved15 : Tab Nat := (List.range 256).map (fun b => (16 * b + 15, 0))

theorem moved15_away (b : Nat) (h : b < 4096) : tget homeRest moved15 b ≠ 15 := by
  have key : ∀ (l : List Nat), (tget homeRest (l.map (fun b => (16 * b + 15, 0))) b = 0) ∨
      (tget homeRest (l.map (fun b => (16 * b + 15, 0))) b = b % 16 ∧ ∀ k ∈ l, b ≠ 16 * k + 15) := by
    intro l
    induction l with
    | nil => right; simp [tget, homeRest]
    | cons k l ih =>
      simp only [List.map_cons, tget]
      by_cases e : b = 16 * k + 15
      · left; simp [e]
      · rcases ih with i | ⟨i, j⟩
        · left; simp [e, i]
        · right; refine ⟨by simp [e, i], fun m hm => ?_⟩
          rcases List.mem_cons.1 hm with rfl | hm
          · exact e
          · exact j m hm
  rcases key (List.range 256) with i | ⟨i, j⟩
  · unfold moved15; omega
  · have := j (b / 16) (List.mem_range.2 (by omega))
    unfold moved15; intro e; rw [i] at e; omega

/-- STANDALONE with slice 15 being drained, and empty. -/
def draining15 : State :=
  let s := (ferrying 1 3).setPwr { (ferrying 1 3).pwr with draining := some 15 }
  s.setGang { s.fd.gang with map := moved15 }

theorem test_FerrymanCompletes_met_drain :
    draining15.pwr.draining = some 15 ∧ draining15.bucketsOf 15 = [] ∧ draining15.ingressEmpty 15 = true := by
  refine ⟨rfl, ?_, by decide +kernel⟩
  refine List.filter_eq_nil_iff.2 fun b hb => ?_
  have := moved15_away b (List.mem_range.1 hb)
  simpa [State.bucketSlice, draining15, State.setGang] using this

theorem test_FerrymanCompletes_met_rest :
    (let s : State := { ferrying 1 1 with time := { s0.time with mono := 2000000000 } }
     s.ferryRuns = true ∧ s.cfg.ferry.off = true ∧ s.sliceSt 15 = 1 ∧ s.fd.gang.wakes.contains 15 = false ∧
     tget zn s.pwr.gatedAt 15 + ms s.cfg.ferry.offMs ≤ s.mono + 1) ∧
    (let s : State := { ferrying 1 0 with time := { s0.time with mono := 2000000000 } }
     let s := s.setPwr { s.pwr with emptyAt := [(63, 1999998000)], quietAt := [(15, 1999000000)] }
     tfind s.pwr.emptyAt 63 = some 1999998000 ∧ 1999998000 + 2000 ≤ s.mono ∧ tfind s.pwr.quietAt 15 = some 1999000000 ∧
     1999000000 + ms 1 ≤ s.mono ∧ s.inputEmpty (queueDomain 15) = true ∧ s.cfg.ferry.idle = true ∧ s.domain 63 = 0 ∧ s.inputEmpty 63 = true ∧ s.pwr.idle.contains 63 = false ∧ s.cfg.ferry.qoff = true ∧
     s.domain (queueDomain 15) = 0 ∧ s.cfg.td.queues.all (fun q => sliceOfQ q.1 != 15 || !q.2.en) = true) ∧
    (let p (k : Nat) : List Word := if k = 0 then [0x20000000 + 16 * 2 ^ 21 + 95 * 2 ^ 14, 0x06400000] else [0x70000000, 0]
     devWide hDev = true ∧ hdrUser hDev = false ∧ s0.pwr.mode ≠ .slipway ∧ s0.mirrorRefuses 0xE00 hDev = false ∧
     s0.mirrorRefuses 0xE01 hDev = false ∧ pf (p 1) 0 31 30 = 1 ∧ pf (p 1) 0 26 0 = 0 ∧ pf (p 1) 0 28 27 ≠ 3 ∧ par (p 1) 1 = 0 ∧
     pf (p 0) 0 31 30 = 0 ∧ pf (p 0) 0 13 0 = 0 ∧ pf (p 0) 1 3 0 = 0 ∧ 1 ≤ (ferryCfgOf (p 0)).minSlices ∧
     (ferryCfgOf (p 0)).minSlices ≤ 16 ∧ 50 ≤ (ferryCfgOf (p 0)).high ∧ (ferryCfgOf (p 0)).high ≤ 95 ∧
     (ferryCfgOf (p 0)).downMs ≠ 0 ∧ s0.cfg.ferry.en = false) := by
  (repeat' with_reducible apply And.intro) <;> decide +kernel

/-- A PLL as given. -/
def withPll (k : Nat) (x : Pll) : State := up.putPll k x

theorem test_RailsComplete_met :
    s0.dead = false ∧ (s0.pwr.refLost = false ∧ s0.ppsOn = false ∧ (s0.setPwr { s0.pwr with refLost := true }).pwr.refLost = true) ∧
    ((7 : Fin 8) ≠ 2 ∧ (up.pll 7).stopped = false ∧ (up.pll 7).dead = false ∧ (pllDomains 7).any (fun d => up.domain d < 2) = true) ∧
    (let s := withPll 7 ⟨true, false, [0, 0]⟩
     (s.pll 7).stopped = true ∧ (s.pll 7).dead = false ∧
     3 ≤ ((s.pll 7).fails.filter (fun t => s.mono < t + 1000000000) ++ [s.mono]).length) ∧
    (let s := withPll 7 ⟨true, false, [0]⟩; ((s.pll 7).fails.filter (fun t => s.mono < t + 1000000000) ++ [s.mono]).length < 3) ∧
    (∀ c ∈ [(100 : Int), -40], (c = 100 ∨ c ≤ (s0.warnLimit : Int)) ∧ c ≤ (s0.tripLimit : Int)) ∧ s0.pwr.warnHeld = false ∧
    ((s0.warnLimit : Int) < 126 ∧ (s0.tripLimit : Int) < 126 ∧ s0.pwr.tripped = false ∧
     (s0.setPwr { s0.pwr with warnHeld := true }).pwr.warnHeld = true ∧ (s0.setPwr { s0.pwr with tripped := true }).pwr.tripped = true) ∧
    (tget zn s0.pwr.hbmTemp 3 ≤ 95 ∧ 95 < (96 : Int).toNat ∧ (95 : Int).toNat ≤ 95) ∧
    (let s := s0.setPins { s0.pins with railsOk := true }
     (s.rail 10).out = false ∧ s.pins.railsOk = true ∧ s.dead = false ∧ (s.rail 10).missed < 2 ∧ s.polls 10 = true ∧ 2 ≤ (10 : Fin 11).val) ∧
    (s0.ageingDue 2 = true ∧ 11 > 10 ∧ tget zn s0.pwr.avsSteps 2 < 8 ∧ (s0.rail (avsRow 2)).alarms = false) := by
  (repeat' with_reducible apply And.intro) <;> decide +kernel

/-- A start whose banks' verification ends so. -/
def report (a b : BitVec 4) : StartReport := { (default : StartReport) with causeA := a, causeB := b }
/-- RAILS_OK is high, the slipway request pin as given. -/
def railed (q : Bool) : State := s0.setPins { s0.pins with railsOk := true, slipReqN := q }
/-- Step 3 of a start that `s` has due. -/
def started (s : State) (r : StartReport) : State :=
  let s := ((s.setPwr { s.pwr with railsWait := false, duration := min 65535 r.durationMs }).power [1, 2]).atPhase 1
  let s := s.setPwr { s.pwr with agedAt := [] }
  if s.pwr.mode = .boot then s else s.enterMode .boot

theorem test_ResetsComplete_met :
    (s0.dead = false ∧ 199 < 200 ∧ 1000 ≤ 1000 ∧ 200 ≤ 999 ∧ 999 < 1000 ∧ (railed true).pins.railsOk = true ∧ (railed true).dead = false) ∧
    (trising s0.host.regs = true ∧ trising s0.host.rings = true ∧
     (let s := ringState true; trising s.host.regs = true ∧ trising s.host.rings = true ∧ s.ringOn 7 = true)) ∧
    (let s : State := { s0.setPwr { s0.pwr with fwRuns := true } with time := { s0.time with mono := 100000000 } }
     s.pwr.fwRuns = true ∧ s.fw.restarting ≠ 2 ∧ s.pwr.watchdog + ms 100 ≤ s.mono) ∧
    (∀ k ∈ [1, 2], let s : State := { s0.setPwr { s0.pwr with restart := some k } with time := { s0.time with mono := 100000 } }
     s.pwr.restart = some k ∧ s.pwr.restartAt + 100000 ≤ s.mono) ∧
    (s0.pwr.startDue = some .policy ∧ s0.pins.railsOk = false) ∧
    (∀ q ∈ [true, false], let r : StartReport := { report 5 7 with slipReq := q }; let s := railed q
     s.pwr.startDue = some .policy ∧ (r.slipReq = true ∨ (started s r).pins.slipReqN = false)) ∧
    (let r := report 5 7; let s := railed true
     r.slipReq = false ∧ (started s r).pins.slipReqN = true ∧ ((started s r).bootImage r).1 = false) ∧
    (∀ p ∈ [none, some 2], let r : StartReport := { report 0 7 with failPhase := p }; let s := railed true
     r.slipReq = false ∧ (started s r).pins.slipReqN = true ∧ ((started s r).bootImage r).1 = true ∧ r.failPhase = p) ∧
    (s0.pwr.railsWait = false ∧ (s0.setPwr { s0.pwr with railsWait := true }).pwr.railsWait = true) := by
  (repeat' with_reducible apply And.intro) <;> decide +kernel

/-! ## Witnesses: firmware, the slipway, events, link test -/

/-- The first 0x200 bytes of a firmware image for A1 with a payload of 64 bytes, SVN 3 and every device named. -/
def imageHead : List Byte :=
  beBytes 8 0x4A4C4B494D414745 ++ beBytes 2 1 ++ [1, 0] ++ beBytes 4 0x00010002 ++ beBytes 2 3 ++ [0, 0] ++ beBytes 4 0xB256 ++ [2]
    ++ List.replicate 7 0 ++ List.replicate 8 0 ++ beBytes 8 64 ++ List.replicate 0x58 0 ++ [0, 2] ++ beBytes 2 0 ++ beBytes 2 9
    ++ List.replicate 0x172 0
/-- A bank 1 image, staged in whole or in part. -/
def bank1 (had : Nat) : Image := { (default : Image) with state := 2, head := imageHead, length := 688, had }
/-- Sessions, images, an activation, and a restart stage as given. -/
def fwState (x : Option Session) (i : Tab Image) (a : Option Activation) (k : Nat) : State :=
  let s : State := { s0 with fw := { s0.fw with images := i, activation := a, restarting := k, verifying := [1] }, time := { s0.time with mono := 2000000000 } }
  match x with | some x => s.putSession 0 (some x) | none => s
/-- A session that has 64 of 688 bytes. -/
def sess64 : Session := ⟨false, 0, 688, List.replicate 64 0, 0, 0, 0, false⟩

theorem test_FirmwareCompletes_met :
    (let p (k : Nat) : List Word := [[0, 688], [0x40000000, 64, 624, 64, 0], [0x80000000], [0xC0000000]].getD k []
     hdrUser hDev = false ∧ s0.pwr.mode ≠ .quiescent ∧ s0.mirrorRefuses 0x700 hDev = false ∧
     s0.stageBad hDev (p 0) = false ∧ pf (p 0) 0 31 30 = 0 ∧ s0.session 0 = none ∧ bit (par (p 0) 0) 28 = false ∧
     (∀ k ∈ [1, 2, 3], let s := fwState (some sess64) [] none 0
      s.stageBad hDev (p k) = false ∧ pf (p k) 0 31 30 = k ∧ s.session 0 = some sess64 ∧ s.ctlBusy = false)) ∧
    imageHead.length = 0x200 ∧
    (∀ n ∈ [688, 687], let s := fwState none [(1, bank1 n)] none 0
     s.fw.verifying.contains 1 = true ∧ s.session (imageObj 1) = none ∧ (s.verifyCause 1 [] [] = if n = 688 then 0 else 14)) ∧
    (let x : Session := { sess64 with bytes := List.replicate 688 0, verifying := true }; let s := fwState (some x) [(1, bank1 688)] none 0
     s.session (imageObj 1) = some x ∧ x.verifying = true ∧ x.slip = false ∧ s.stageTo (imageObj 1) = 1 ∧ s.verifyCause 1 [] [] = 0 ∧
     imageObj 1 = 0 ∧ ((s.image 1).judged 0 []).type = 1) ∧
    (let s := fwState (some sess64) [] none 0
     s.openSession 0 = some sess64 ∧ sess64.slip = false ∧ sess64.last + 1000000000 ≤ s.mono) ∧
    (s0.mirrorRefuses 0x701 hDev = false ∧ s0.mirrorRefuses 0x702 hDev = false ∧ s0.mirrorRefuses 0x703 hDev = false ∧
     s0.noActivation = false ∧ s0.fw.trial = false ∧ par64 [0x80000000, 0xFFFFFFFF, 0xFFFFFFFF] 1 = allOnes) ∧
    (let p : List Word := [0x80000000]; let s := s0.setFw { s0.fw with trial := true }
     pf p 0 27 0 = 0 ∧ pf p 0 31 30 = 2 ∧ s.fw.trial = true ∧ s.pwr.mode ≠ .slipway) ∧
    (∀ st ∈ [3, 7], let s := fwState none [(1, { bank1 688 with state := st })] none 0; let p : List Word := [0, 1000000, 0]
     par64 p 1 ≠ allOnes ∧ s.noActivation = false ∧ s.now.toNat + 1000000 ≤ (par64 p 1).toNat ∧ (s.image 1).state = st ∧
     (∀ c ∈ s.activateBars 0 (par64 p 1) false, c.1 = false) ∧ (∀ c ∈ s.activateBars 0 (par64 p 1) true, c.1 = false)) ∧
    (pf [0x80000000] 0 30 0 = 0 ∧ s0.mirrorRefuses 0x704 hDev = false) ∧
    (∀ o ∈ [0, 1], let s := fwState none [] (some ⟨o, 1, 0⟩) 0
     s.fw.activation = some ⟨o, 1, 0⟩ ∧ s.reached 0 = true ∧ s.fw.restarting = 0 ∧ s.instantNear 0 = false ∧ ∀ n, n < 8 → (s.ring n).held = none) ∧
    (let s := fwState none [] (some ⟨0, 1, 0⟩) 0
     let s : State := { s with fd := { s.fd with rules := { s.fd.rules with sched := some 300000000 } } }; s.instantNear 0 = true) ∧
    (let s := (fwState none [] (some ⟨0, 1, 0⟩) 1).setRing 7 { s0.ring 7 with running := some heldWait }
     s.fw.restarting = 1 ∧ s.quiet = false ∧ s.fw.restartAt + ms 100 ≤ s.mono) ∧
    (let s := fwState none [] (some ⟨0, 1, 0⟩) 2
     s.restartLoads = s ∧ s.fw.restarting = 2 ∧ (s.image 1).valid = false ∧ s.fw.restartAt + ms 250 ≤ s.mono) ∧
    (let s := fwState none [(1, { bank1 688 with state := 3 })] (some ⟨0, 1, 0⟩) 2; let s := s.setFw { s.fw with restartAt := 1750000000 }
     s.restartLoads = s ∧ s.fw.restarting = 2 ∧ (s.image 1).valid = true ∧ s.mono ≤ s.fw.restartAt + ms 250) := by
  (repeat' with_reducible apply And.intro) <;> decide +kernel

/-- A slipway message with its CRC. -/
def slipMsg (type sess ofs n : Nat) (data : List Byte) : List Byte :=
  let b := [BitVec.ofNat 8 type, 0] ++ beBytes 2 sess ++ beBytes 4 ofs ++ beBytes 4 n ++ [0, 0, 0, 0] ++ data
  b ++ beBytes 4 (crcRing b).toNat
/-- A message's body. -/
def slipOf (m : List Byte) : List Byte := m.take (m.length - 4)
theorem beNat_beBytes4 (w : Word) : beNat (beBytes 4 w.toNat) = w.toNat := by
  have := w.isLt
  simp only [beNat, beBytes, List.foldl, BitVec.toNat_ofNat]
  omega

/-- A message with its CRC is taken, whatever it says. -/
theorem slipBody_msg (type sess ofs n : Nat) (data : List Byte) :
    slipBody (slipMsg type sess ofs n data) = some (slipOf (slipMsg type sess ofs n data)) := by
  unfold slipMsg slipOf slipBody
  simp only
  generalize hb : [BitVec.ofNat 8 type, 0] ++ beBytes 2 sess ++ beBytes 4 ofs ++ beBytes 4 n ++ [0, 0, 0, 0] ++ data = b
  have hl : 16 ≤ b.length := by rw [← hb]; simp [beBytes]
  have h4 : (beBytes 4 (crcRing b).toNat).length = 4 := rfl
  have e : (b ++ beBytes 4 (crcRing b).toNat).length - 4 = b.length := by simp [h4]
  rw [e, List.drop_left, List.take_left, beNat_beBytes4]
  rw [if_neg]
  simp [h4]; omega

/-- A transfer of session 9 that has so many of 1,028 bytes. -/
def slipSess (k since : Nat) : Session := ⟨true, 9, 1028, List.replicate k 0, since, 0, 0, false⟩
/-- The port has that address. -/
def withIp : State := { s0 with host := { s0.host with regs := [(0x3F060000, 0xC0000201)] } }

theorem test_SlipwayCompletes_met :
    (let m := slipMsg 1 9 0 688 imageHead; let b := slipOf m
     let armed := s0.putSession 0 (some ⟨true, 0, 688, [], 0, 0, 0, false⟩)
     slipBody m = some b ∧ headNum b 0 1 = 1 ∧ BitVec.ofNat 16 (headNum b 2 2) ≠ 0 ∧ s0.slipLink.slipObj = none ∧
     s0.slipLink.slipArmed (headNum (b.drop 16) 0x00A 1) = none ∧ armed.slipLink.slipObj = none ∧
     armed.slipLink.slipArmed (headNum (b.drop 16) 0x00A 1) = some 0 ∧ (b.drop 16).length = 0x200 ∧
     armed.slipLink.imageCause 0 (headNum b 8 4) (b.drop 16) [] = 0) ∧
    (let m := slipMsg 3 9 1024 4 [1, 2, 3, 4]; let b := slipOf m
     slipBody m = some b ∧ headNum b 2 2 = 9 ∧ headNum b 0 1 = 3 ∧ (b.drop 16).length = headNum b 8 4 ∧
     headNum b 4 4 + headNum b 8 4 = 1028 ∧ headNum b 4 4 = 1024 ∧
     (∀ k ∈ [1024, 0], let s := s0.putSession 0 (some (slipSess k 62)); s.slipLink.slipObj = some (0, slipSess k 62)) ∧
     (slipSess 1024 62).bytes.length = 1024 ∧ (slipSess 0 62).bytes.length < 1024 ∧ (slipSess 1024 62).since < 63) ∧
    (let m := slipMsg 5 9 0 0 []; let b := slipOf m
     slipBody m = some b ∧ headNum b 2 2 = 9 ∧ headNum b 0 1 = 5 ∧ (slipSess 1024 1).bytes.length < (slipSess 1024 1).length ∧
     (slipSess 1028 1).length ≤ (slipSess 1028 1).bytes.length ∧ 0 < (slipSess 1024 1).since) ∧
    (let s : State := { s0.putSession 0 (some (slipSess 1024 1)) with time := { s0.time with mono := 1000000 } }
     s.slipObj = some (0, slipSess 1024 1) ∧ (slipSess 1024 1).acked + ms 1 ≤ s.mono) ∧
    ((0xC0000201#32).toNat = withIp.slipLink.portIp ∧ (0xC0000202#32).toNat ≠ withIp.slipLink.portIp) := by
  refine ⟨⟨slipBody_msg 1 9 0 688 imageHead, ?_⟩, ?_⟩
  all_goals (repeat' with_reducible apply And.intro) <;> decide +kernel

theorem test_EventsComplete_met :
    (nextEvent s0.ev.flight = none ∧
     (let r : EvRec := ⟨0x012, 5, 40, false⟩; nextEvent [⟨0x1FF, 0, 41, false⟩, r, ⟨0, 0, 60, false⟩] = some r)) ∧
    (let p (k : Nat) : List Word := [[0x20000020], [0x00000001], [0x01FE0002], [0x80000000]].getD k []
     devWide hDev = true ∧ hdrUser hDev = false ∧ s0.mirrorRefuses 0xB00 hDev = false ∧
     (∀ k ∈ [0, 1, 2, 3], pf (p k) 0 28 25 = 0 ∧ pf (p k) 0 15 8 = 0) ∧ bit (par (p 0) 0) 29 = true ∧ pf (p 0) 0 7 0 ≤ 32 ∧
     bit (par (p 1) 0) 29 = false ∧ 1 ≤ pf (p 1) 0 7 0 ∧ pf (p 3) 0 31 30 = 2) ∧
    (let p : List Word := [0x41FE0002]
     pf p 0 31 30 = 1 ∧ pf p 0 28 25 = 0 ∧ pf p 0 15 8 = 0 ∧ 1 ≤ pf p 0 7 0 ∧ pf p 0 24 16 + pf p 0 7 0 ≤ 512) ∧
    (let p : List Word := [0x00000200, 0]
     pf p 0 31 30 = 0 ∧ pf p 0 29 25 = 0 ∧ pf p 0 15 10 = 0 ∧ par p 1 = 0 ∧ 1 ≤ pf p 0 9 0 ∧ pf p 0 24 16 + pf p 0 9 0 ≤ 512 ∧
     s0.mirrorRefuses 0xB01 hDev = false) ∧
    (let p : List Word := [0x81FF0001]
     pf p 0 30 25 = 0 ∧ pf p 0 15 10 = 0 ∧ 1 ≤ pf p 0 9 0 ∧ pf p 0 24 16 + pf p 0 9 0 ≤ 512 ∧ s0.pwr.mode ≠ .slipway ∧
     s0.mirrorRefuses 0xB02 hDev = false) ∧
    (lit [3]).domain 3 = 0 ∧ (s0.host.cores.contains 3 = true ∧ s0.host.coreFlags.contains 3 = false ∧ s0.host.coreSpares = [4]) ∧
    (let s : State := { s0 with host := { s0.host with coreFlags := [3] } }
     s.host.cores.contains 3 = true ∧ s.host.coreFlags.contains 3 = true ∧ s.host.coreSpares = 4 :: []) ∧
    (let s : State := { lit [3] with host := { s0.host with cores := [3], coreFlags := [3], coreSpares := [] } }
     s.domain 3 = 0 ∧ s.host.cores.contains 3 = true ∧ s.host.coreFlags.contains 3 = true ∧ s.host.coreSpares = [] ∧ s.host.cores.length = 1) := by
  (repeat' with_reducible apply And.intro) <;> decide +kernel

/-- A PRBS7 run whose generator begins with ones. -/
def prbs7 (lock : Bool) : Prbs := ⟨0xC00, 0, lock, 0, 0, 0, 0, 0x7F⟩

theorem test_TestsComplete_met :
    (let p : List Word := [0x2BF00C00, 0]; let s := inMode .test
     prbsBad hDev p = false ∧ hdrUser hDev = false ∧ s.pwr.mode = .test ∧ s.slipOrQuiet = false ∧ pf p 0 31 29 ≠ 3 ∧
     s.mirrorRefuses 0xA00 hDev = false) ∧
    (let s : State := { s0 with host := { s0.host with loopback := true } }
     s.host.loopback = true ∧ s.host.loopAt + ms (bits (s.prbs 4 0).ins 15 0) ≤ s.mono) ∧
    (let p : List Word := [0x2A01F000]
     pf p 0 31 29 < 6 ∧ pf p 0 19 12 ≤ 31 ∧ pf p 0 10 0 = 0 ∧ pf p 0 28 20 + pf p 0 19 12 + 1 ≤ prbsUnits (pf p 0 31 29) ∧
     s0.slipOrQuiet = false ∧ s0.mirrorRefuses 0xA01 hDev = false ∧ bit (par p 0) 11 = false) ∧
    (∀ k ∈ [true, false], let s := s0.putPrbs 1 191 (prbs7 k)
     191 < prbsUnits 1 ∧ (s.prbs 1 191).runs = true ∧ (s.prbs 1 191).chk = true ∧ (s.prbs 1 191).lock = k ∧ (s.prbs 1 191).loop = 0 ∧
     1024 < 1025 ∧ 1025 ≤ 4096) ∧
    (prbs7 false).locks (symbolBits 1 ((prbs7 false).wire 1 2056)) = true ∧ s0.dead = false ∧
    (let p (k : Nat) : List Word := if k = 0 then [0x80000000] else [0x28000000]; let h := hdr 3 4
     (∀ k ∈ [0, 1], pf (p k) 0 24 0 = 0 ∧ pf (p k) 0 30 27 ≤ 8) ∧ hdrUser h = false ∧ s0.mirrorRefuses 0xA02 h = false ∧
     bit (par (p 0) 0) 31 = true ∧ bit (par (p 1) 0) 31 = false ∧ pf (p 1) 0 30 27 ≠ 6 ∧
     bistTarget h (pf (p 1) 0 30 27) (bit (par (p 1) 0) 25) = true ∧ s0.bistMode (pf (p 1) 0 30 27) = true ∧
     s0.bistRun (pf (p 1) 0 30 27) = none) ∧
    (let s : State := { s0 with test := { s0.test with running := [(8, some (0x40000000, 63))] } }
     s.bistRun 8 = some (0x40000000, 63) ∧ bit (0x40000000 : Word) 26 = false) ∧ 7 ≤ (0xFF#8).toNat := by
  (repeat' with_reducible apply And.intro) <;> decide +kernel

/-! ## Witnesses: what holds of every command -/

theorem test_StepRunsTheFrontCommand_met : State.reset.pending = [] := rfl

theorem test_EveryStepKeepsTheTollhouseOn_met : TollhouseOn State.reset ∧ (∃ t, step State.reset = .next t) ∧
    ∃ t, exec .tapReset State.reset = .next t := ⟨rfl, ⟨_, rfl⟩, ⟨_, rfl⟩⟩

theorem test_ChecksDecideInOrder_met :
    (let s : State := { s0 with cfg := { s0.cfg with pair := { s0.cfg.pair with en := true, mirror := true } } }
     s.mirrorRefuses 0x900 hTd = true) ∧ s0.mirrorRefuses 0x900 hTd = false ∧
    (let rest : List (Bool × Byte) := [(false, codeBusy), (true, codeFull), (true, codeInUse)]
     rest = [(false, codeBusy)] ++ (true, codeFull) :: [(true, codeInUse)] ∧ (∀ x ∈ [((false : Bool), codeBusy)], x.1 = false)) := by
  (repeat' with_reducible apply And.intro) <;> decide +kernel

/-- A log full of unread entries. -/
def fullLog : State := { s0 with ev := { s0.ev with log := List.replicate 1024 ⟨0, 0x000, 0, 0, false⟩ } }

theorem test_EveryOccurrenceIsCounted_met :
    (let r : EvRec := ⟨0x1FF, 0, 0, false⟩; let s : State := { s0 with ev := { s0.ev with flight := [r] } }
     attnLevel r.src = some 1 ∧ trising s.ev.counts = true ∧ r.limited = false ∧ s.ev.mask.getLsbD r.src = false ∧
     nextEvent s.ev.flight = some r ∧ s.ev.owed = false ∧ s.unread < 1024) ∧
    (let s : State := { s0 with ev := { s0.ev with mask := BitVec.ofNat 512 (2 ^ 511) } }; s.ev.mask.getLsbD 0x1FF = true) ∧
    1024 ≤ fullLog.unread ∧ (⟨0x1FF, 0, 0, true⟩ : EvRec).limited = true := by
  (repeat' with_reducible apply And.intro) <;> decide +kernel

theorem test_UnalignedAccessesAreDropped_met :
    up.pcieUp = true ∧ (0xFFFFE#20).toNat % 4 ≠ 0 ∧ (0xFFFFF#20).toNat % 2 ≠ 0 ∧
    (let ds : List (BitVec 4 × Word) := [(15, 0), (15, 0)]; ds ≠ [] ∧ (0xFFFF4#20).toNat % (if ds.length = 1 then 4 else 8) ≠ 0) ∧
    (let ds : List (BitVec 4 × Word) := [(5, 0)]; ds ≠ [] ∧ contiguous (enablesOf ds) = false) := by
  (repeat' with_reducible apply And.intro) <;> decide +kernel

theorem test_QuietCommandsReplyOnFailureAlone_met :
    (let h : Hdr := ⟨.ring 7, 0, 7, 1, false, true, 0, 0x3F, 0⟩; let s := ringState true
     h.src = .ring 7 ∧ h.norply = true ∧ s.ringOn 7 = true ∧ (s.ring 7).orphans.contains h = false ∧ trising s.host.rings = true) ∧
    codeBusy ≠ codeOk ∧ codeBusy ≠ codeDeferred ∧
    (let s := (ringState true).setRing 7 { s0.ring 7 with running := some heldWait }
     s.ringOn 7 = true ∧ (s.ring 7).running = some heldWait ∧ trising s.host.rings = true) := by
  (repeat' with_reducible apply And.intro) <;> decide +kernel

theorem test_PortHoldTakesEffect_met :
    (let p : List Word := [0xAFFA0000]
     tdWide hTd = true ∧ pf p 0 13 0 = 0 ∧ pf p 0 31 24 = 175 ∧ pf p 0 23 14 = 1000 ∧ hTd.priv ≠ 2 ∧ s0.slipOrQuiet = false ∧
     s0.mirrorRefuses 0x404 hTd = false ∧ trising s0.cfg.td.holds = true ∧ (s0.pnode 175).st ≠ 1) ∧
    (let s : State := { s0 with time := { s0.time with mono := 2000000000 }, td := { s0.td with sched := { s0.td.sched with ports := [(175, ⟨1, false, 0, 0, 0⟩)] } } }
     (s.pnode 175).st = 1 ∧ (s.pnode 175).since + 1000 * 1000000 ≤ s.mono) := by
  (repeat' with_reducible apply And.intro) <;> decide +kernel

theorem test_MeterColoursAreSound_met :
    (meterDecide ⟨true, 1, 1, 100, 100⟩ ⟨100, 100, 0, 0⟩ 64 0).1 = 0 ∧
    (meterDecide ⟨true, 1, 1, 100, 100⟩ ⟨10, 10, 0, 0⟩ 64 0).1 = 2 := by
  (repeat' with_reducible apply And.intro) <;> decide +kernel

/-! ## The check of operands refuses each ill-formed command -/

/-- A tether frame of a type, with FLAGS and so many payload bytes. -/
def tetherOf (ttype flags : Byte) (n : Nat) : TetherFrame := ⟨ttype, flags, 0, 0, List.replicate n 0, 0⟩

theorem test_wellFormed_start : wellFormed (.start { (default : StartReport) with failPhase := some 6 }) = false ∧
    wellFormed (.railsOkRise { (default : StartReport) with failPhase := some 6 }) = false ∧ wellFormed (.start default) = true := by
  decide
theorem test_wellFormed_tether :
    wellFormed (.tetherStatus (tetherOf 2 0 0)) = false ∧ wellFormed (.tetherBucketSweep (tetherOf 1 0 0)) = false ∧
    wellFormed (.tetherOamState (tetherOf 1 0 0)) = false ∧ wellFormed (.tetherMirroredCommand (tetherOf 1 0 0)) = false ∧
    wellFormed (.tetherMirroredReply (tetherOf 1 0 0)) = false ∧ wellFormed (.tetherAlignment (tetherOf 1 0 0)) = false ∧
    wellFormed (.tetherManifestCheck (tetherOf 1 0 0)) = false ∧ wellFormed (.tetherAck (tetherOf 1 0 0)) = false ∧
    wellFormed (.tetherSpanHandshake (tetherOf 1 0 0)) = false ∧ wellFormed (.tetherStatus (tetherOf 1 0 0)) = true := by decide
/-- FLAGS bit 0 is a NAK's, which only an acknowledgement may be (R334). -/
theorem test_wellFormed_flags : wellFormed (.tetherStatus (tetherOf 1 1 0)) = false ∧ wellFormed (.tetherAck (tetherOf 8 1 0)) = true ∧
    wellFormed (.tetherAck (tetherOf 8 2 0)) = false := by decide
theorem test_wellFormed_payload (n : Nat) (h : 65536 ≤ n) : wellFormed (.tetherStatus (tetherOf 1 0 n)) = false := by
  have : ¬ n < 65536 := by omega
  simp [wellFormed, TetherFrame.isType, tetherOf, this]
theorem test_wellFormed_flit : wellFormed (.flitReceive 0 .fdToTd (List.replicate 63 0)) = false ∧
    wellFormed (.flitReceive 0 .fdToTd (List.replicate 64 0)) = true := by decide
theorem test_wellFormed_fetch : wellFormed (.commandFetch 0 [21, 0, 0]) = false ∧ wellFormed (.commandFetch 0 [3, 0, 0]) = true := by decide
theorem test_wellFormed_stage : wellFormed (.fwStage (hdr 0 0x3F) [0x40000000, 0, 64, 0, 0] []) = false := by decide
theorem test_wellFormed_rows : wellFormed (.hbmPatrolScrub 0 0 589824 2 .clean) = false ∧
    wellFormed (.hbmRedirectComplete 0 0 589824) = false ∧ wellFormed (.hbmPatrolScrub 0 0 589823 2 .clean) = true := by decide
theorem test_wellFormed_prbs : wellFormed (.prbsCheckerLock 2 8 []) = false ∧ wellFormed (.prbsCheckerLockLoss 5 1 0 0) = false ∧
    wellFormed (.prbsCheckerLock 1 191 []) = true := by decide
theorem test_wellFormed_wide : wellFormed (.barWideAccess true 0 []) = false := by decide
theorem test_wellFormed_cell (n : Nat) (h : 256 < n) : wellFormed (.fabricCellReceive 0 0 (List.replicate n 0)) = false := by
  have : ¬ n ≤ 256 := by omega
  simp [wellFormed, this]
theorem test_wellFormed_slipway : wellFormed (.slipwayOffer (List.replicate 19 0) []) = false ∧
    wellFormed (.slipwayData (List.replicate 19 0)) = false ∧ wellFormed (.slipwayDone (List.replicate 19 0)) = false := by decide

/-! ## Single steps with results worked out from the spec -/

/-- The state that an outcome goes on with. -/
def nextOf : Host.Outcome State Fault Refusal → State
  | .next t => t
  | _ => s0

/-- R17: DEV_TOLLHOUSE_IDCODE of A1. -/
theorem test_idcode : idcodeWord = 0x1B2564E3 ∧ (nextOf (exec .tapReset s0)).test.tapReg = .idcode := by decide
/-- R545: x^7 + x^6 + 1 after seven ones gives six zeros, a one, five zeros and two ones. -/
theorem test_prbs7 : (prbs7 false).pattern 14 =
    [false, false, false, false, false, false, true, false, false, false, false, false, true, true] := by decide
/-- R546: 2,048 bits past the seed lock a checker, one bit less does not, and a wrong bit among them does not. -/
theorem test_prbs_lock :
    let rx := symbolBits 1 ((prbs7 false).wire 1 2056)
    (prbs7 false).locks (rx.take 2055) = true ∧ (prbs7 false).locks (rx.take 2054) = false ∧
    (prbs7 false).locks (rx.take 99 ++ [!(rx.getD 99 false)] ++ (rx.drop 100)) = false := by decide +kernel
/-- R469's worked example: of 0x00A5 a BAR write of 0x0080_0000 leaves 0x0025, and 0x0003_0002 then makes 0x0026. -/
theorem test_hostflag :
    let held : State := { up with host := { up.host with regs := [(0x3F010020, 0xA5)] } }
    let a := nextOf (exec (.hostflagWrite 0x00800000) held)
    a.rf 0x3F010020 15 0 = 0x25 ∧ (nextOf (exec (.hostflagWrite 0x00030002) a)).rf 0x3F010020 15 0 = 0x26 := by decide +kernel
/-- R526's worked example: DRAM berth 0x0C3_1A07, freed by TD.Q05 and owned by TD.Q03. -/
theorem test_wrong_owner_event :
    let s : State := s0.setBerths { s0.br with ring := [(0x08C31A07, 5, 3)] }
    (nextOf (exec .checkRingResult s)).ev.flight = [⟨0x109, 0x08C31A0700050003, 0, false⟩] := by decide +kernel
/-- R298's worked example. -/
theorem test_ccrc_init : ccrcInit 0x04A10 0x00001A2B3C40 = 0xF750C3BF := by decide
/-- FD_EXACT_TMAPn resets to TID = n: 0x0000_0500 for n = 5 (chapter 05). -/
theorem test_tmap_reset : s0.cfgReg 0x7F080114 = 0x500 := by decide +kernel
/-- R448: TD_BERTH_BSTAT stands at 0xBF22_FFFC and FD_AE_BSTAT of FD.S03 at 0x430A_FFFC. -/
theorem test_bstat_places : blockExists 0xBF22 = true ∧ blockExists 0x430A = true ∧ blockExists 0xBF2F = false := by decide +kernel
/-- R523, R524: REFCLK lost is a source of level 7, and the running firmware's trial one of level 6. -/
theorem test_levels : attnLevel 0x008 = some 7 ∧ attnLevel 0x1F0 = some 6 ∧ attnLevel 0x003 = some 4 ∧ attnLevel 0x013 = none := by decide
/-- R430: in BOOT a part that does not act has CHK 15 - 1. -/
theorem test_status : s0.status codeBusy = 0x2020000E := by decide
/-- R565: a low of 199 ns resets nothing, one of 1 µs does, from a running mode with event 0x004. -/
theorem test_reset_n : (nextOf (exec (.resetNRelease 199) (inMode .active))).pwr.mode = .active ∧
    (nextOf (exec (.resetNRelease 1000) (inMode .active))).pwr.mode = .boot ∧
    (nextOf (exec (.resetNRelease 1000) (inMode .active))).pwr.lastReset = 1 := by decide +kernel
/-- R422: a host that disables a ring whose command runs gets no reply to it. -/
theorem test_ring_disable : let s := (ringState true).setRing 7 { s0.ring 7 with running := some heldWait }
    ((nextOf (exec (.ringDisable 7 0) s)).ring 7).running = none ∧ ((nextOf (exec (.ringDisable 7 0) s)).ring 7).orphans = [hDev] := by
  decide +kernel
/-- R433: NOP answers on its ring: RTAIL moves by 64 and the word at the head of the reply echoes the opcode and LEN 20. -/
theorem test_nop_reply : let s := (ringState true).setRing 7 { s0.ring 7 with running := some ⟨0, hdr 0 0x3F, []⟩ }
    let t := nextOf (exec (.nop { hdr 0 0x3F with src := .ring 7, prio := 7 } []) s)
    (t.ring 7).rtail = 64 ∧ (t.ring 7).last.getD 0 0 = 0x00000014 ∧ (t.ring 7).running = none := by decide +kernel
/-- R200: ADD wraps at 64 bits, SUB borrows, and the thread goes on at the next word. -/
theorem test_add_wraps :
    let t : Thread := { th with regs := List.replicate 16 0xFFFFFFFFFFFFFFFF#64 }
    let x := insn true 2
    let s := running t (insnWord x 0x01)
    ((nextOf (exec (.add x) s)).fd.eng.threads.map (fun t => (t.reg 2, t.pc))) = [(1, 0x1001)] := by decide +kernel
theorem test_sub_borrows :
    let x := insn true 6
    let s := running th (insnWord x 0x02)
    ((nextOf (exec (.sub x) s)).fd.eng.threads.map (fun t => (t.reg 2, t.pc))) = [(0xFFFFFFFFFFFFFFFF, 0x1001)] := by decide +kernel
/-- R529: a masked occurrence counts and is not logged. -/
theorem test_masked_event :
    let s : State := { s0 with ev := { s0.ev with mask := 1, flight := [⟨0, 7, 0, false⟩] } }
    let t := nextOf (exec .eventLogEntry s)
    tget z t.ev.counts 0 = 1 ∧ t.ev.log = [] := by decide +kernel
/-- The queue is first in, first out: the step runs the front command and leaves the rest. -/
theorem test_step_queue : step { s0 with pending := [.highz, .idcode] } = .next { s0.tapTakes 6 .bypass .bypass with pending := [.idcode] } := rfl

end Sys2Proof.Tests
end

section
/-! SUPPORT. PORT_HOLD (R285): what the command does, that ending a command leaves the traffic die alone, and O9. -/

namespace Sys2Proof.Machine

/-! ## Ending a command leaves the traffic die as it is -/

@[simp] theorem State.post_td (s : State) (src : Nat) (items : List (Nat × Nat)) : (s.post src items).td = s.td := rfl

@[simp] theorem State.count_td (s : State) (event addr cls : Nat) (master priv : Option Nat) (len : Nat) :
    (s.count event addr cls master priv len).td = s.td := rfl

@[simp] theorem State.diverge_td (s : State) (op : Nat) (own peer : Byte) : (s.diverge op own peer).td = s.td := rfl

@[simp] theorem State.tetherPut_td (s : State) (ttype : Byte) (payload : List Byte) :
    (s.tetherPut ttype payload).td = s.td := by
  unfold State.tetherPut State.tetherSend
  split <;> rfl

@[simp] theorem State.ringReply_td (s : State) (n : Nat) (norply : Bool) (code : Byte) (ws : List Word) :
    (s.ringReply n norply code ws).td = s.td := by
  unfold State.ringReply
  split <;> rfl

@[simp] theorem State.finish_td (s : State) (op : Nat) (h : Hdr) (npar : Nat) (code : Byte) (rs : List Word) :
    (s.finish op h npar code rs).td = s.td := by
  unfold State.finish
  cases h.src with
  | ring n => dsimp only; split <;> simp
  | tether => simp

@[simp] theorem State.finishDone_td (s : State) (op : Nat) (h : Hdr) (p : List Word) (code : Byte) (rs : List Word) :
    (s.finishDone op h p code rs).td = s.td := by
  unfold State.finishDone
  split
  · split <;> simp
  · simp

/-! ## The effect of PORT_HOLD -/

/-- The state with HOLD of port node `n` set to `v` ms. -/
def State.withHold (s : State) (n v : Nat) : State :=
  s.setTdCfg { s.cfg.td with holds := tset zn s.cfg.td.holds n v }

/-- A hold whose time is over by the HOLD in effect ends (R285). -/
def State.endHoldIfOver (s : State) (n : Nat) : State :=
  if (s.pnode n).st = 1 && s.holdOver n then s.toPort n 2 0x142 [] else s

/-- In a table whose keys rise, the HOLD written is the HOLD in effect. -/
theorem State.holdMs_withHold (s : State) (n v : Nat) (hr : trising s.cfg.td.holds = true) :
    (s.withHold n v).holdMs n = v := by
  simp [State.withHold, State.holdMs, tget_tset _ _ _ _ _ hr]

/-- The header and operands of a PORT_HOLD that meets none of its checks (R285, R291, R580). -/
structure PortHoldAccepted (h : Hdr) (p : List Word) (s : State) : Prop where
  target : tdWide h = true
  length : p.length = 1
  zeros  : pf p 0 13 0 = 0
  node   : pf p 0 31 24 < 176
  hold   : pf p 0 23 14 ≤ 1000
  priv   : h.priv ≠ 2
  mode   : s.slipOrQuiet = false
  acts   : s.mirrorRefuses 0x404 h = false

/-- An accepted PORT_HOLD sets HOLD, ends the hold whose time is then over, and answers OK. -/
theorem exec_portHold_accepted {h : Hdr} {p : List Word} {s : State} (ha : PortHoldAccepted h p s) :
    TakesEffect .portHold 0x404 h p s
      ((s.withHold (pf p 0 31 24) (pf p 0 23 14)).endHoldIfOver (pf p 0 31 24)) codeOk [] := by
  obtain ⟨target, length, zeros, node, hold, priv, mode, acts⟩ := ha
  have hbad : (!tdWide h || p.length != 1 || pf p 0 13 0 != 0 || decide (176 ≤ pf p 0 31 24)
      || decide (1000 < pf p 0 23 14)) = false := by
    simp [target, length, zeros, node, hold]
  have hperm : (h.priv == 2) = false := by simpa using priv
  exact congrArg Host.Outcome.next (runSimple_ok hbad hperm mode acts (by simp))

/-- R285 where the table of HOLDs is in its canonical order: the HOLD written is in effect, a hold whose time is over by it
ends at once, and any other node goes on as it stands. -/
theorem portHold_takesEffect_of_trising {h : Hdr} {p : List Word} {s : State} (ha : PortHoldAccepted h p s)
    (hr : trising s.cfg.td.holds = true) :
    let n := pf p 0 31 24
    let u := s.withHold n (pf p 0 23 14)
    u.holdMs n = pf p 0 23 14 ∧
    ((s.pnode n).st = 1 → (s.pnode n).since + ms (pf p 0 23 14) ≤ s.mono →
      TakesEffect .portHold 0x404 h p s (u.toPort n 2 0x142 []) codeOk []) ∧
    ((s.pnode n).st ≠ 1 ∨ s.mono < (s.pnode n).since + ms (pf p 0 23 14) →
      TakesEffect .portHold 0x404 h p s u codeOk []) := by
  intro n u
  have hread : u.holdMs n = pf p 0 23 14 := s.holdMs_withHold n _ hr
  have hnode : u.pnode n = s.pnode n := rfl
  have hmono : u.mono = s.mono := rfl
  have heff := exec_portHold_accepted ha
  refine ⟨hread, fun held expired => ?_, fun running => ?_⟩
  · have : u.endHoldIfOver n = u.toPort n 2 0x142 [] := by
      simp [State.endHoldIfOver, State.holdOver, hread, hnode, hmono, held, expired]
    exact this ▸ heff
  · have : u.endHoldIfOver n = u := by
      simp only [State.endHoldIfOver, State.holdOver, hread, hnode, hmono, Bool.and_eq_true, decide_eq_true_eq]
      exact if_neg (by omega)
    exact this ▸ heff

/-! ## O9 -/

/-- A state that lists HOLD of port node 0 twice: the node is HELD from `mono` 0 on, and no time has gone by. -/
def doubledHold : State :=
  { State.reset with
    cfg := { State.reset.cfg with td := { State.reset.cfg.td with holds := [(0, 1), (0, 1)] } }
    td := { State.reset.td with sched := { State.reset.td.sched with ports := [(0, ⟨1, false, 0, 0, 0⟩)] } } }

/-- A header from ring 0 with PRIV 1, to the traffic die die-wide. -/
def hdrTdWide : Hdr := ⟨.ring 0, 0, 0, 1, false, false, 2, 0x3F, 0⟩

/-- PORT_HOLD of port node 0 with HOLD 0 meets none of its checks in `doubledHold`. -/
theorem doubledHold_accepts : PortHoldAccepted hdrTdWide [0] doubledHold where
  target := by decide
  length := rfl
  zeros := by decide
  node := by decide
  hold := by decide
  priv := by decide
  mode := by decide
  acts := by decide

/-- Putting HOLD at rest removes one of the two listings, and the other one is then in effect: the hold goes on. -/
theorem doubledHold_endHoldIfOver :
    (doubledHold.withHold 0 0).endHoldIfOver 0 = doubledHold.withHold 0 0 := rfl

/-- Refutes O9: that the HOLD written is in effect has the premise that the table of HOLDs lists each node once and in order,
but that a hold whose time is over ends does not. In `doubledHold` a PORT_HOLD with HOLD 0 leaves a HOLD of 1 ms in effect, so
the node stays HELD though the time already held, 0, is HOLD or more. With the premise both parts hold:
`portHold_takesEffect_of_trising`. -/
theorem not_portHoldTakesEffect : ¬ Obligations.PortHoldTakesEffect := by
  unfold Obligations.PortHoldTakesEffect
  rintro ⟨claim, -⟩
  have ha := doubledHold_accepts
  obtain ⟨-, -, ends, -⟩ := claim hdrTdWide [0] doubledHold ha.target ha.length ha.zeros ha.node ha.hold ha.priv ha.mode ha.acts
  have claimed : TakesEffect .portHold 0x404 hdrTdWide [0] doubledHold
      ((doubledHold.withHold 0 0).toPort 0 2 0x142 []) codeOk [] := ends rfl (by decide)
  have actual : TakesEffect .portHold 0x404 hdrTdWide [0] doubledHold (doubledHold.withHold 0 0) codeOk [] :=
    doubledHold_endHoldIfOver ▸ exec_portHold_accepted ha
  have same := congrArg State.td (Host.Outcome.next.inj (actual.symm.trans claimed))
  rw [State.finishDone_td, State.finishDone_td] at same
  have sameNode : (doubledHold.withHold 0 0).pnode 0 = ((doubledHold.withHold 0 0).toPort 0 2 0x142 []).pnode 0 := by
    unfold State.pnode
    rw [same]
  have stillHeld : ((doubledHold.withHold 0 0).pnode 0).st = 1 := rfl
  have flushing : (((doubledHold.withHold 0 0).toPort 0 2 0x142 []).pnode 0).st = 2 := rfl
  rw [← sameNode, stillHeld] at flushing
  exact absurd flushing (by decide)

end Sys2Proof.Machine
end

section
/-! SUPPORT. NORPLY (R428): what the end of a ring's command leaves on its ring, and O8. -/

namespace Sys2Proof.Machine

/-! ## Tables stay in order -/

/-- Keys that rise above `c` rise above each lower bound. -/
theorem tkeysAbove_of_le {α : Type} {t : Tab α} {b c : Nat} (hbc : b ≤ c) (h : tkeysAbove c t = true) :
    tkeysAbove b t = true := by
  cases t with
  | nil => rfl
  | cons p t =>
    simp only [tkeysAbove, Bool.and_eq_true, decide_eq_true_eq] at h ⊢
    exact ⟨by omega, h.2⟩

theorem trising_of_tkeysAbove {α : Type} {t : Tab α} {b : Nat} (h : tkeysAbove b t = true) : trising t = true := by
  cases t with
  | nil => rfl
  | cons p t =>
    simp only [tkeysAbove, Bool.and_eq_true] at h
    exact h.2

theorem tkeysAbove_tdel {α : Type} {t : Tab α} {b : Nat} (k : Nat) (h : tkeysAbove b t = true) :
    tkeysAbove b (tdel t k) = true := by
  induction t generalizing b with
  | nil => rfl
  | cons p t ih =>
    obtain ⟨above, rest⟩ : b < p.1 ∧ tkeysAbove p.1 t = true := by simpa [tkeysAbove] using h
    unfold tdel
    split
    · exact tkeysAbove_of_le above.le rest
    · simp [tkeysAbove, above, ih rest]

theorem trising_tdel {α : Type} {t : Tab α} (k : Nat) (h : trising t = true) : trising (tdel t k) = true := by
  cases t with
  | nil => rfl
  | cons p t =>
    unfold tdel
    split
    · exact trising_of_tkeysAbove h
    · exact tkeysAbove_tdel k h

/-- A write keeps the keys of a table rising. -/
theorem trising_tset {α : Type} [DecidableEq α] (d : Nat → α) {t : Tab α} (k : Nat) (a : α) (h : trising t = true) :
    trising (tset d t k a) = true := by
  unfold tset
  split
  · exact trising_tdel k h
  · rwa [trising_tins]

/-! ## An inbound ring after a write to it -/

section
variable {s : State}

/-- Where the rings are listed in order, the ring put is the ring read. -/
theorem State.ring_setRing_self (n : Nat) (r : InRing) (hr : trising s.host.rings = true) : (s.setRing n r).ring n = r := by
  simp [State.ring, tget_tset _ _ _ _ _ hr]

theorem State.trising_rings_setRing (n : Nat) (r : InRing) (hr : trising s.host.rings = true) :
    trising (s.setRing n r).host.rings = true :=
  trising_tset restRing n r hr

/-- RTAIL after a reply of the words `ws` and their trailer (R413, R414). -/
def State.rtailPast (s : State) (n : Nat) (ws : List Word) : Nat :=
  ((s.ring n).rtail + roundUp (withTrailer ws).length 64) % s.ringSize n

/-- A reply written moves RTAIL past it and stays the ring's last. -/
theorem State.ring_putReply_self (n : Nat) (ws : List Word) (hr : trising s.host.rings = true) :
    (s.putReply n ws).ring n = { s.ring n with rtail := s.rtailPast n ws, last := ws } := by
  simp [State.ring, State.putReply, State.rtailPast, tget_tset _ _ _ _ _ hr]

theorem State.trising_rings_putReply (n : Nat) (ws : List Word) (hr : trising s.host.rings = true) :
    trising (s.putReply n ws).host.rings = true :=
  trising_tset restRing n _ hr

/-! ## The end of a ring's command -/

/-- With EN 1 and NORPLY a reply is written for the codes other than OK and OK_DEFERRED, and for these alone (R428). -/
theorem State.replies_norply_eq_true_iff {n : Nat} {code : Byte} (on : s.ringOn n = true) :
    s.replies n true code = true ↔ code ≠ codeOk ∧ code ≠ codeDeferred := by
  simp [State.replies, on]

/-- The command that ran no longer runs, its reply is the ring's last, and RTAIL moves just where the reply is written. -/
theorem State.ring_ringReply_self (n : Nat) (norply : Bool) (code : Byte) (ws : List Word) (hr : trising s.host.rings = true) :
    (s.ringReply n norply code ws).ring n =
      { s.ring n with
        rtail := if s.replies n norply code then s.rtailPast n ws else (s.ring n).rtail
        last := ws, running := none, doneAt := s.time.mono } := by
  unfold State.ringReply
  split
  · rw [State.ring_setRing_self n _ (State.trising_rings_putReply n ws hr), State.ring_putReply_self n ws hr]
    rfl
  · rw [State.ring_setRing_self n _ (State.trising_rings_setRing n _ hr), State.ring_setRing_self n _ hr]
    rfl

/-- A reply held back leaves host memory as it was. -/
theorem State.ringReply_mem_of_not_replies {n : Nat} {norply : Bool} {code : Byte} (ws : List Word)
    (held : s.replies n norply code = false) : (s.ringReply n norply code ws).host.mem = s.host.mem := by
  simp [State.ringReply, held]

/-- A ring's command that no fall of EN has orphaned ends with `State.ringReply` on its ring (R417, R422). -/
theorem State.finish_of_ring {h : Hdr} {n : Fin 8} (op np : Nat) (code : Byte) (rs : List Word) (src : h.src = .ring n)
    (own : (s.ring n).orphans.contains h = false) :
    s.finish op h np code rs =
      let u := s.count 0x0B op h.prio.toNat none (some h.priv.toNat) 0
      u.ringReply n h.norply code (u.replyWords op h np code rs) := by
  unfold State.finish
  rw [src]
  exact if_neg (Bool.eq_false_iff.mp own)

/-- A ring whose command runs fetches no other (R417). -/
theorem State.mayFetch_of_running {n : Nat} {c : Started} (runs : (s.ring n).running = some c) : s.mayFetch n = false := by
  simp [State.mayFetch, runs]

end

/-! ## O8 -/

/-- Settles O8: the end of the command is `State.ringReply` behind one count, and with NORPLY that writes the reply exactly for
a code that is neither OK nor OK_DEFERRED. -/
theorem quietCommandsReplyOnFailureAlone : Obligations.QuietCommandsReplyOnFailureAlone := by
  unfold Obligations.QuietCommandsReplyOnFailureAlone
  intro op h np code rs s n src quiet on own hr t
  let u := s.count 0x0B op h.prio.toNat none (some h.priv.toNat) 0
  let ws := u.replyWords op h np code rs
  have ends : t = u.ringReply n true code ws := quiet ▸ State.finish_of_ring op np code rs src own
  have ring := State.ring_ringReply_self (s := u) n true code ws hr
  have written := State.replies_norply_eq_true_iff (s := u) (code := code) on
  rw [ends]
  refine ⟨by rw [ring], fun success => ?_, fun notOk notDeferred => ⟨ws, by rw [ring], ?_⟩, fun c => State.mayFetch_of_running⟩
  · have held : u.replies n true code = false := by
      rw [Bool.eq_false_iff, ne_eq, written]
      tauto
    exact ⟨State.ringReply_mem_of_not_replies ws held, by rw [ring, held]; rfl⟩
  · rw [ring, written.mpr ⟨notOk, notDeferred⟩]
    rfl

end Sys2Proof.Machine
end

section
/-! SUPPORT. Unaligned BAR accesses (R460): an event logged at most once a second, the accesses that count as unaligned, and O7. -/

namespace Sys2Proof.Machine

section
variable {s : State}

/-! ## An event logged at most once a second -/

/-- The occurrence is passed on, marked as said already where its subject was logged in this DEVTIME second (R529). -/
theorem State.postOnce_flight (src subject : Nat) (items : List (Nat × Nat)) :
    (s.postOnce src subject items).ev.flight = s.ev.flight
      ++ [⟨src, evData items, s.time.dev, tget zn s.ev.once (src * 2 ^ 32 + subject) == s.time.secNo + 1⟩] := rfl

/-- The subject then counts as logged in this DEVTIME second. The table's keys need not rise: 0, the value at rest, is never
written. -/
theorem State.once_postOnce_self (src subject : Nat) (items : List (Nat × Nat)) :
    tget zn (s.postOnce src subject items).ev.once (src * 2 ^ 32 + subject) = s.time.secNo + 1 :=
  tget_tset_self zn s.ev.once _ _ (Nat.succ_ne_zero _)

theorem State.onlyIn_ev_postOnce (src subject : Nat) (items : List (Nat × Nat)) :
    OnlyIn [.ev] s (s.postOnce src subject items) := by
  intro p other
  cases p with
  | ev => exact absurd (List.mem_singleton_self _) other
  | _ => rfl

/-! ## The accesses that are unaligned (R460) -/

theorem execBarUnalignedAccess_of_pcieUp (up : s.pcieUp = true) (write : Bool) (off : BitVec 20) :
    execBarUnalignedAccess write off s = .next (s.barUnaligned write off.toNat) := by
  simp [execBarUnalignedAccess, up]

/-- A 32-bit write at an address that is no multiple of 4. -/
theorem execRegisterWrite_unaligned (up : s.pcieUp = true) {off : BitVec 20} (v : Word) (misaligned : off.toNat % 4 ≠ 0) :
    execRegisterWrite off v s = .next (s.barUnaligned true off.toNat) := by
  simp [execRegisterWrite, up, misaligned]

/-- A halfword access at an odd address. -/
theorem execBarNarrowAccess_unaligned (up : s.pcieUp = true) (write : Bool) {off : BitVec 20} (v : Word)
    (misaligned : off.toNat % 2 ≠ 0) : execBarNarrowAccess write true off v s = .next (s.barUnaligned write off.toNat) := by
  simp only [execBarNarrowAccess, up, Bool.not_true, Bool.false_eq_true, if_false, if_true]
  exact if_pos misaligned

/-- A wide access at an address that is no multiple of its size, up to 8 bytes, or with byte enables that leave a gap. -/
theorem execBarWideAccess_unaligned (up : s.pcieUp = true) (write : Bool) {off : BitVec 20} {ds : List (BitVec 4 × Word)}
    (nonempty : ds ≠ [])
    (bad : off.toNat % (if ds.length = 1 then 4 else 8) ≠ 0 ∨ contiguous (enablesOf ds) = false) :
    execBarWideAccess write off ds s = .next (s.barUnaligned write off.toNat) := by
  have runs : ¬ (!s.pcieUp || ds.isEmpty) = true := by simp [up, nonempty]
  have unaligned :
      (off.toNat % (if ds.length = 1 then 4 else 8) ≠ 0 || !contiguous (enablesOf ds)) = true := by
    simpa using bad
  unfold execBarWideAccess
  exact (if_neg runs).trans (if_pos unaligned)

end

/-! ## O7 -/

/-- Settles O7: each access that is unaligned ends in `State.barUnaligned`, which posts event 0x1E5 and, of a read, gives four
zero bytes. -/
theorem unalignedAccessesAreDropped : Obligations.UnalignedAccessesAreDropped := by
  unfold Obligations.UnalignedAccessesAreDropped
  intro off s up w r
  have dropped : s.barUnaligned true off.toNat = w := rfl
  have readsZero : s.barUnaligned false off.toNat = r := rfl
  refine ⟨State.postOnce_flight 0x1E5 0 _, State.once_postOnce_self 0x1E5 0 _, State.onlyIn_ev_postOnce 0x1E5 0 _,
    ?_, ?_, fun v misaligned => ?_, fun v misaligned => ⟨?_, ?_⟩, fun ds nonempty bad => ⟨?_, ?_⟩⟩
  · rw [exec_barUnalignedAccess, execBarUnalignedAccess_of_pcieUp up, dropped]
  · rw [exec_barUnalignedAccess, execBarUnalignedAccess_of_pcieUp up, readsZero]
  · rw [exec_registerWrite, execRegisterWrite_unaligned up v misaligned, dropped]
  · rw [exec_barNarrowAccess, execBarNarrowAccess_unaligned up true v misaligned, dropped]
  · rw [exec_barNarrowAccess, execBarNarrowAccess_unaligned up false v misaligned, readsZero]
  · rw [exec_barWideAccess, execBarWideAccess_unaligned up true nonempty bad, dropped]
  · rw [exec_barWideAccess, execBarWideAccess_unaligned up false nonempty bad, readsZero]

end Sys2Proof.Machine
end

section
/-! SUPPORT. The log head takes an occurrence (R528, R529, R531, R535): how each occurrence ends, that each is counted, and O6. -/

namespace Sys2Proof.Machine

section
variable {s : State} {r : EvRec}

/-! ## Entering the log -/

/-- Of the event side, an entry writes EVSEQ, the log and the newest entry of its source. -/
theorem State.logEnter_ev (s : State) (r : EvRec) : ∃ seq log newest, (s.logEnter r).ev = { s.ev with seq, log, newest } := by
  unfold State.logEnter
  dsimp only
  split <;> exact ⟨_, _, _, rfl⟩

theorem State.logEnter_counts (s : State) (r : EvRec) : (s.logEnter r).ev.counts = s.ev.counts := by
  obtain ⟨_, _, _, ev⟩ := s.logEnter_ev r
  rw [ev]

theorem State.logEnter_owed (s : State) (r : EvRec) : (s.logEnter r).ev.owed = s.ev.owed := by
  obtain ⟨_, _, _, ev⟩ := s.logEnter_ev r
  rw [ev]

/-! ## What becomes of an occurrence -/

/-- The log is full: the occurrence adds to LOST, sets OVF, and makes the head owe event 0x012 (R528). -/
def State.missEvent (s : State) : State := s.setEv { s.ev with lost := s.ev.lost + 1, ovf := true, owed := true }

/-- A once-per-second limit or a mask keeps the occurrence out of the log: it is noted and nothing else (R529, R535). -/
theorem State.takeEvent_of_suppressed {l : Nat} (listed : attnLevel r.src = some l)
    (suppressed : r.limited = true ∨ s.ev.mask.getLsbD r.src = true) : s.takeEvent r = s.noteEvent r.src := by
  have cond : (r.limited || (s.noteEvent r.src).ev.mask.getLsbD r.src) = true := by
    rwa [Bool.or_eq_true]
  simp only [State.takeEvent, listed, Option.isNone_some, Bool.false_eq_true, if_false]
  exact if_pos cond

/-- An occurrence that may be logged is noted, and then meets a full log or enters it (R528). -/
theorem State.takeEvent_of_loggable {l : Nat} (listed : attnLevel r.src = some l) (unlimited : r.limited = false)
    (unmasked : s.ev.mask.getLsbD r.src = false) :
    s.takeEvent r =
      if 1024 ≤ s.unread then (s.noteEvent r.src).missEvent else (s.noteEvent r.src).logEnter r := by
  have cond : ¬ (r.limited || (s.noteEvent r.src).ev.mask.getLsbD r.src) = true := by
    rw [unlimited, Bool.false_or, Bool.not_eq_true]
    exact unmasked
  simp only [State.takeEvent, listed, Option.isNone_some, Bool.false_eq_true, if_false]
  exact if_neg cond

/-- An occurrence of a listed source ends in one of three ways: it is suppressed, finds the log full, or enters it. -/
theorem State.takeEvent_cases {l : Nat} (listed : attnLevel r.src = some l) :
    s.takeEvent r = s.noteEvent r.src ∨
    (1024 ≤ s.unread ∧ s.takeEvent r = (s.noteEvent r.src).missEvent) ∨
    s.takeEvent r = (s.noteEvent r.src).logEnter r := by
  by_cases suppressed : r.limited = true ∨ s.ev.mask.getLsbD r.src = true
  · exact .inl (State.takeEvent_of_suppressed listed suppressed)
  · obtain ⟨unlimited, unmasked⟩ := not_or.mp suppressed
    rw [State.takeEvent_of_loggable listed (Bool.eq_false_iff.mpr unlimited) (Bool.eq_false_iff.mpr unmasked)]
    split
    next full => exact .inr (.inl ⟨full, rfl⟩)
    next => exact .inr (.inr rfl)

/-- However it ends, it adds one to the counter of its source (R529). -/
theorem State.takeEvent_counts {l : Nat} (listed : attnLevel r.src = some l) :
    (s.takeEvent r).ev.counts = tset z s.ev.counts r.src (tget z s.ev.counts r.src + 1) := by
  obtain noted | ⟨_, missed⟩ | entered := State.takeEvent_cases (s := s) listed
  · rw [noted]; rfl
  · rw [missed]; rfl
  · rw [entered, State.logEnter_counts]; rfl

/-- Only a full log makes the head owe event 0x012. -/
theorem State.takeEvent_owed_of_room {l : Nat} (listed : attnLevel r.src = some l) (room : s.unread < 1024) :
    (s.takeEvent r).ev.owed = s.ev.owed := by
  obtain noted | ⟨full, _⟩ | entered := State.takeEvent_cases (s := s) listed
  · rw [noted]; rfl
  · omega
  · rw [entered, State.logEnter_owed]; rfl

theorem State.payOwed_of_not_owed (paid : s.ev.owed = false) : s.payOwed = s := by
  simp [State.payOwed, paid]

/-- With room in the log nothing comes to be owed, so nothing follows the occurrence. -/
theorem State.payOwed_takeEvent_of_room {l : Nat} (listed : attnLevel r.src = some l) (paid : s.ev.owed = false)
    (room : s.unread < 1024) : (s.takeEvent r).payOwed = s.takeEvent r :=
  State.payOwed_of_not_owed ((State.takeEvent_owed_of_room listed room).trans paid)

theorem execEventLogEntry_of_next (next : nextEvent s.ev.flight = some r) :
    execEventLogEntry s = .next ((s.setEv { s.ev with flight := s.ev.flight.erase r }).takeEvent r).payOwed := by
  simp only [execEventLogEntry, next]

end

/-! ## O6 -/

/-- Settles O6: `State.takeEvent` notes each occurrence before it asks for a limit, a mask or room, and what it does after that
leaves the counters alone. -/
theorem everyOccurrenceIsCounted : Obligations.EveryOccurrenceIsCounted := by
  unfold Obligations.EveryOccurrenceIsCounted
  intro s r l listed t
  have counted : t.ev.counts = tset z s.ev.counts r.src (tget z s.ev.counts r.src + 1) := State.takeEvent_counts listed
  refine ⟨counted, fun rising => ?_, fun k other => ?_, fun suppressed => ?_, fun unlimited unmasked full => ?_,
    fun next paid room => ?_⟩
  · rw [counted, tget_tset z _ _ _ _ rising, if_pos rfl]
  · rw [counted, tget_tset_ne z _ _ _ _ other]
  · have noted : t = s.noteEvent r.src := State.takeEvent_of_suppressed listed suppressed
    rw [noted]
    exact ⟨rfl, rfl⟩
  · have missed : t = (s.noteEvent r.src).missEvent :=
      (State.takeEvent_of_loggable listed unlimited unmasked).trans (if_pos full)
    rw [missed]
    exact ⟨rfl, rfl⟩
  · let w := s.setEv { s.ev with flight := s.ev.flight.erase r }
    have alone : (w.takeEvent r).payOwed = w.takeEvent r := State.payOwed_takeEvent_of_room listed paid room
    exact ⟨w.takeEvent r, by rw [exec_eventLogEntry, execEventLogEntry_of_next next, alone], State.takeEvent_counts listed⟩

end Sys2Proof.Machine
end

section
/-! SUPPORT. The tollhouse's domain through every operation of the model, file by file; from that, O3 and O4. Its
first lemma about a command's meaning says both that the meaning answers a next state and what that state's table of
domains lists for domain 0, so one case split over the commands settles both. -/

namespace Sys2Proof.Machine

/-- What the table of domains lists for the tollhouse's (R475). -/
def State.tollhouse (s : State) : Nat := tget restDomain s.pwr.domains 0

/-- That of the state that an outcome answers. -/
def tollhouseAfter : Out → Option Nat
  | .next t => some t.tollhouse
  | _ => none

@[simp] theorem tollhouseAfter_next (t : State) : tollhouseAfter (.next t) = some t.tollhouse := (rfl)

@[simp] theorem tollhouseAfter_ite (c : Prop) [Decidable c] (a b : Out) :
    tollhouseAfter (if c then a else b) = if c then tollhouseAfter a else tollhouseAfter b := apply_ite ..

@[simp] theorem tollhouse_ite (c : Prop) [Decidable c] (a b : State) :
    (if c then a else b).tollhouse = if c then a.tollhouse else b.tollhouse := apply_ite ..

@[simp] theorem tollhouse_snd_ite {α : Type} (c : Prop) [Decidable c] (a b : α × State) :
    (if c then a else b).2.tollhouse = if c then a.2.tollhouse else b.2.tollhouse :=
  apply_ite (fun x : α × State => x.2.tollhouse) ..

theorem State.domain_zero (s : State) : s.domain 0 = s.tollhouse := by
  simp [State.domain, pllOf, State.supplied, State.tollhouse]

@[simp] theorem tget_domains (s : State) : tget restDomain s.pwr.domains 0 = s.tollhouse := (rfl)

@[simp] theorem tget_tset_domains (t : Tab Nat) (d v : Nat) (h : d ≠ 0) :
    tget restDomain (tset restDomain t d v) 0 = tget restDomain t 0 := tget_tset_ne restDomain t d 0 v h.symm

@[simp] theorem ingressDomain_ne_zero (n : Nat) : ingressDomain n ≠ 0 := by
  unfold ingressDomain; omega

@[simp] theorem queueDomain_ne_zero (n : Nat) : queueDomain n ≠ 0 := by
  unfold queueDomain; omega

@[simp] theorem tollhouse_fst_ite {α : Type} (c : Prop) [Decidable c] (a b : State × α) :
    (if c then a else b).1.tollhouse = if c then a.1.tollhouse else b.1.tollhouse :=
  apply_ite (fun x : State × α => x.1.tollhouse) ..

@[simp] theorem tollhouse_mk (a b c d e f g p h i j k l m n o q r t u) :
    (State.mk a b c d e f g p h i j k l m n o q r t u).tollhouse = tget restDomain p.domains 0 := (rfl)

/-- The outcome is a next state, with the tollhouse's domain on where it was on in `s`. -/
def KeepsOn (s : State) (o : Out) : Prop := ∃ t, o = .next t ∧ (s.tollhouse = 0 → t.tollhouse = 0)

theorem keepsOn_next {s t : State} (keeps : s.tollhouse = 0 → t.tollhouse = 0) : KeepsOn s (.next t) := ⟨t, rfl, keeps⟩

theorem keepsOn_of_tollhouseAfter {s : State} {o : Out} (h : tollhouseAfter o = some s.tollhouse) : KeepsOn s o := by
  cases o with
  | next t => exact keepsOn_next fun on => (Option.some.inj h).trans on
  | fault r => cases h
  | refused r => cases h

/-- A fold of steps that each keep a quantity keeps it. -/
theorem foldl_keeps {σ α β : Type} (g : σ → β) {f : σ → α → σ} (keeps : ∀ s a, g (f s a) = g s) (l : List α) (s : σ) :
    g (l.foldl f s) = g s := by
  induction l generalizing s with
  | nil => rfl
  | cons a l ih => rw [List.foldl_cons, ih, keeps]

@[simp] theorem foldl_tollhouse {α : Type} {f : State → α → State} (keeps : ∀ s a, (f s a).tollhouse = s.tollhouse)
    (l : List α) (s : State) : (l.foldl f s).tollhouse = s.tollhouse :=
  foldl_keeps State.tollhouse keeps l s

/-! ### The operations that commands share -/

@[simp] theorem State.draw_tollhouse (s : State) : s.draw.2.tollhouse = s.tollhouse := (rfl)

@[simp] theorem State.setCfgReg_tollhouse (s a v) :
    (State.setCfgReg s a v).tollhouse = s.tollhouse := by simp [State.setCfgReg]

@[simp] theorem State.setHw_tollhouse (s a v) : (State.setHw s a v).tollhouse = s.tollhouse := (rfl)

@[simp] theorem State.hwBit_tollhouse (s a i) : (State.hwBit s a i).tollhouse = s.tollhouse := (rfl)

@[simp] theorem State.hwAdd_tollhouse (s a hi lo n top) : (State.hwAdd s a hi lo n top).tollhouse = s.tollhouse := (rfl)

@[simp] theorem State.hwPeak_tollhouse (s a hi lo v top) :
    (State.hwPeak s a hi lo v top).tollhouse = s.tollhouse := (rfl)

@[simp] theorem State.post_tollhouse (s src items) : (State.post s src items).tollhouse = s.tollhouse := (rfl)

@[simp] theorem State.postOnce_tollhouse (s src subject items) :
    (State.postOnce s src subject items).tollhouse = s.tollhouse := (rfl)

@[simp] theorem State.bump_tollhouse (s scope unit idx n) :
    (State.bump s scope unit idx n).tollhouse = s.tollhouse := (rfl)

@[simp] theorem State.countN_tollhouse (s e n) : (State.countN s e n).tollhouse = s.tollhouse := (rfl)

@[simp] theorem State.count_tollhouse (s event addr cls master priv len) :
    (State.count s event addr cls master priv len).tollhouse = s.tollhouse := (rfl)

@[simp] theorem State.countReg_tollhouse (s a write master priv) :
    (State.countReg s a write master priv).tollhouse = s.tollhouse := (rfl)

@[simp] theorem State.hbm_tollhouse (s region cls master) :
    (State.hbm s region cls master).tollhouse = s.tollhouse := (rfl)

@[simp] theorem State.hbmBerth_tollhouse (s cls slice) : (State.hbmBerth s cls slice).tollhouse = s.tollhouse := (rfl)

@[simp] theorem State.drop_tollhouse (s scope unit idx slice len) :
    (State.drop s scope unit idx slice len).tollhouse = s.tollhouse := by
  unfold State.drop
  split <;> simp

@[simp] theorem State.setDomain_tollhouse_of_ne (s d v) (h : d ≠ 0) : (State.setDomain s d v).tollhouse = s.tollhouse :=
  tget_tset_ne restDomain _ d 0 v h.symm

/-! ### The transmitters of the die-to-die interface -/

@[simp] theorem State.setD2d_tollhouse (s d) : (State.setD2d s d).tollhouse = s.tollhouse := (rfl)

@[simp] theorem State.putFlitTx_tollhouse (s k t) : (State.putFlitTx s k t).tollhouse = s.tollhouse := (rfl)

@[simp] theorem State.placeSend_tollhouse (s x) : (State.placeSend s x).tollhouse = s.tollhouse := by
  unfold State.placeSend
  split <;> simp

@[simp] theorem State.sendFlits_tollhouse (s up fs) :
    (State.sendFlits s up fs).tollhouse = s.tollhouse := by simp [State.sendFlits]

@[simp] theorem State.sendsDone_tollhouse (s k) : (State.sendsDone s k).tollhouse = s.tollhouse := (rfl)

@[simp] theorem State.resendAll_tollhouse (s m) :
    (State.resendAll s m).tollhouse = s.tollhouse := by simp [State.resendAll]

@[simp] theorem State.placeWaiting_tollhouse (s) :
    (State.placeWaiting s).tollhouse = s.tollhouse := by simp [State.placeWaiting]

@[simp] theorem State.flitTicks_tollhouse (s) : (State.flitTicks s).tollhouse = s.tollhouse := by simp [State.flitTicks]

/-! ### The command packet as a command's meaning sees it -/

@[simp] theorem State.setRing_tollhouse (s n r) : (State.setRing s n r).tollhouse = s.tollhouse := (rfl)

@[simp] theorem State.putReply_tollhouse (s n ws) : (State.putReply s n ws).tollhouse = s.tollhouse := (rfl)

@[simp] theorem State.ringReply_tollhouse (s n norply code ws) :
    (State.ringReply s n norply code ws).tollhouse = s.tollhouse := by simp [State.ringReply]

@[simp] theorem State.tetherSend_tollhouse (s ttype flags ack payload) :
    (State.tetherSend s ttype flags ack payload).tollhouse = s.tollhouse := by simp [State.tetherSend]

@[simp] theorem State.tetherPut_tollhouse (s ttype payload) :
    (State.tetherPut s ttype payload).tollhouse = s.tollhouse := by simp [State.tetherPut]

@[simp] theorem State.diverge_tollhouse (s op own peer) : (State.diverge s op own peer).tollhouse = s.tollhouse := (rfl)

@[simp] theorem State.finish_tollhouse (s op h npar code rs) :
    (State.finish s op h npar code rs).tollhouse = s.tollhouse := by
  unfold State.finish
  split <;> simp

@[simp] theorem State.finishDone_tollhouse (s op h p code rs) :
    (State.finishDone s op h p code rs).tollhouse = s.tollhouse := by simp [State.finishDone]

@[simp] theorem runCommand_tollhouse {eff : State → State × Byte × List Word} (keeps : ∀ s, (eff s).1.tollhouse = s.tollhouse)
    (op h p bad perm mode rest s) : (runCommand op h p bad perm mode rest eff s).tollhouse = s.tollhouse := by
  obtain ⟨c, -, rejected⟩ | done := runCommand_cases op h p bad perm mode rest eff s
  · rw [rejected, State.finish_tollhouse]
  · rw [done, State.finishDone_tollhouse, keeps]

@[simp] theorem runSimple_tollhouse {eff : State → State} (keeps : ∀ s, (eff s).tollhouse = s.tollhouse)
    (op h p bad perm mode rest s) : (runSimple op h p bad perm mode rest eff s).tollhouse = s.tollhouse :=
  runCommand_tollhouse (fun s => keeps s) op h p bad perm mode rest s

/-! ### What the stages of the forwarding die share -/

@[simp] theorem State.setGang_tollhouse (s g) : (State.setGang s g).tollhouse = s.tollhouse := (rfl)

@[simp] theorem State.setEng_tollhouse (s e) : (State.setEng s e).tollhouse = s.tollhouse := (rfl)

@[simp] theorem State.setLook_tollhouse (s l) : (State.setLook s l).tollhouse = s.tollhouse := (rfl)

@[simp] theorem State.setFdCfg_tollhouse (s f) : (State.setFdCfg s f).tollhouse = s.tollhouse := (rfl)

@[simp] theorem State.setSliceSt_tollhouse (s l v) :
    (State.setSliceSt s l v).tollhouse = s.tollhouse := by simp [State.setSliceSt]

@[simp] theorem State.mapHome_tollhouse (s) : (State.mapHome s).tollhouse = s.tollhouse := State.setGang_tollhouse ..

@[simp] theorem State.fillPunts_tollhouse (s) : (State.fillPunts s).tollhouse = s.tollhouse := (rfl)

@[simp] theorem State.addLost_tollhouse (s ring) : (State.addLost s ring).tollhouse = s.tollhouse := (rfl)

@[simp] theorem State.puntNoRoom_tollhouse (s r cause) : (State.puntNoRoom s r cause).tollhouse = s.tollhouse := (rfl)

@[simp] theorem State.punt_tollhouse (s r0) : (State.punt s r0).tollhouse = s.tollhouse := by
  unfold State.punt
  dsimp only
  repeat' split
  all_goals simp only [State.bump_tollhouse, State.postOnce_tollhouse, State.puntNoRoom_tollhouse, tollhouse_mk, tget_domains]

@[simp] theorem State.holdPeak_tollhouse (s) : (State.holdPeak s).tollhouse = s.tollhouse := (rfl)

@[simp] theorem State.stagingDrop_tollhouse (s slice p) :
    (State.stagingDrop s slice p).tollhouse = s.tollhouse := by simp [State.stagingDrop]

@[simp] theorem State.stir_tollhouse (s d) : (State.stir s d).tollhouse = s.tollhouse := (rfl)

@[simp] theorem State.enter_tollhouse (s slice p) :
    (State.enter s slice p).tollhouse = s.tollhouse := by simp [State.enter]

@[simp] theorem State.holdMove_tollhouse (s m p) :
    (State.holdMove s m p).tollhouse = s.tollhouse := by simp [State.holdMove]

@[simp] theorem State.place_tollhouse (s p) : (State.place s p).tollhouse = s.tollhouse := by
  unfold State.place
  repeat' split
  all_goals simp

@[simp] theorem State.arrive_tollhouse (s p) : (State.arrive s p).tollhouse = s.tollhouse := by simp [State.arrive]

@[simp] theorem State.freeChan_tollhouse (s chan) : (State.freeChan s chan).tollhouse = s.tollhouse := by
  unfold State.freeChan
  split <;> simp

@[simp] theorem State.leave_tollhouse (s p) : (State.leave s p).tollhouse = s.tollhouse := by simp [State.leave]

@[simp] theorem State.handOver_tollhouse (s slice p o) :
    (State.handOver s slice p o).tollhouse = s.tollhouse := by simp [State.handOver]

/-! ### Matching of routes -/

@[simp] theorem State.lpmLookup_tollhouse (s chan key missing bad) :
    (State.lpmLookup s chan key missing bad).2.tollhouse = s.tollhouse := by
  simp only [State.lpmLookup]
  repeat' split
  all_goals simp

/-- A record's outcome, an effect or an error, leaves the tollhouse's domain as it was. -/
def RecordKeeps {α : Type} (s : State) : Except (Byte × State) (State × α) → Prop
  | .ok r => r.1.tollhouse = s.tollhouse
  | .error e => e.2.tollhouse = s.tollhouse

theorem runRecords_tollhouse {step} (keeps : ∀ r s, RecordKeeps s (step r s)) (rs s a x) :
    (runRecords step rs s a x).1.tollhouse = s.tollhouse := by
  induction rs generalizing s a x with
  | nil => rfl
  | cons r rs ih =>
    have kept := keeps r s
    unfold runRecords
    split
    next eq => rw [ih]; rwa [eq] at kept
    next eq => rwa [eq] at kept

@[simp] theorem runBatch_tollhouse {step} (keeps : ∀ r s, RecordKeeps s (step r s)) (rs s) :
    (runBatch step rs s).1.tollhouse = s.tollhouse :=
  runRecords_tollhouse keeps rs s 0 0

@[simp] theorem lpmRecord_keeps (add r s) : RecordKeeps s (lpmRecord add r s) := by
  simp only [lpmRecord]
  repeat' split
  all_goals simp [RecordKeeps]

@[simp] theorem State.lpmRun_tollhouse (s op h p) :
    (State.lpmRun s op h p).tollhouse = s.tollhouse := by simp [State.lpmRun]

@[simp] theorem State.lpmCommand_tollhouse (s op h p) :
    (State.lpmCommand s op h p).tollhouse = s.tollhouse := by simp [State.lpmCommand]

@[simp] theorem execLpmAdd_tollhouse (h p s) :
    tollhouseAfter (execLpmAdd h p s) = some s.tollhouse := by simp [execLpmAdd]

@[simp] theorem execLpmDel_tollhouse (h p s) :
    tollhouseAfter (execLpmDel h p s) = some s.tollhouse := by simp [execLpmDel]

@[simp] theorem execLpmRebuildComplete_tollhouse (vrf v6 s) :
    tollhouseAfter (execLpmRebuildComplete vrf v6 s) = some s.tollhouse := by simp [execLpmRebuildComplete]

/-! ### Exact-match tables -/

@[simp] theorem State.setCluster_tollhouse (s c k) : (State.setCluster s c k).tollhouse = s.tollhouse := (rfl)

@[simp] theorem State.setXt_tollhouse (s t) : (State.setXt s t).tollhouse = s.tollhouse := (rfl)

@[simp] theorem State.relocate_tollhouse (s c src) : (State.relocate s c src).tollhouse = s.tollhouse := by
  unfold State.relocate
  split <;> simp

theorem State.makeRoom_tollhouse {s c wide tid key p t} (h : State.makeRoom s c wide tid key = some (p, t)) :
    t.tollhouse = s.tollhouse := by
  simp only [State.makeRoom] at h
  repeat' split at h
  · obtain ⟨-, rfl⟩ := Prod.mk.inj (Option.some.inj h); rfl
  · obtain ⟨_, -, eq⟩ := Option.map_eq_some_iff.mp h
    obtain ⟨-, rfl⟩ := Prod.mk.inj eq
    simp
  · cases h

theorem State.xPut_tollhouse {s c e r} (h : State.xPut s c e = some r) : r.1.tollhouse = s.tollhouse := by
  simp only [State.xPut] at h
  split at h
  · cases h; simp
  · split at h
    next room => cases h; simp [State.makeRoom_tollhouse room]
    · split at h
      · cases h; simp
      · cases h

@[simp] theorem State.retryStash_tollhouse (s c) : (State.retryStash s c).tollhouse = s.tollhouse := by
  simp only [State.retryStash]
  split
  · split
    · split
      next room => simp [State.makeRoom_tollhouse room]
      · rfl
    · simp
  · rfl

@[simp] theorem State.xDel_tollhouse (s c p) : (State.xDel s c p).tollhouse = s.tollhouse := by
  unfold State.xDel
  split <;> simp

@[simp] theorem State.noRoom_tollhouse (s c) : (State.noRoom s c).tollhouse = s.tollhouse := (rfl)

@[simp] theorem State.fresh_tollhouse (s e) : (State.fresh s e).2.tollhouse = s.tollhouse := (rfl)

@[simp] theorem State.xCount_tollhouse (s c kind) : (State.xCount s c kind).tollhouse = s.tollhouse := (rfl)

@[simp] theorem State.queueLearn_tollhouse (s c move e) :
    (State.queueLearn s c move e).tollhouse = s.tollhouse := by simp [State.queueLearn]

@[simp] theorem State.diverged_tollhouse (s c) : (State.diverged s c).tollhouse = s.tollhouse := (rfl)

@[simp] theorem State.crossLost_tollhouse (s c) : (State.crossLost s c).tollhouse = s.tollhouse := (rfl)

@[simp] theorem State.crossPost_tollhouse (s c x) :
    (State.crossPost s c x).tollhouse = s.tollhouse := by simp [State.crossPost]

@[simp] theorem State.learnHit_tollhouse (s c e) : (State.learnHit s c e).tollhouse = s.tollhouse := by
  unfold State.learnHit
  split <;> simp

@[simp] theorem State.learnEnt_tollhouse (s c e move) : (State.learnEnt s c e move).2.tollhouse = s.tollhouse := by
  unfold State.learnEnt
  split <;> simp

@[simp] theorem State.learnApply_tollhouse (s c) : (State.learnApply s c).tollhouse = s.tollhouse := by
  simp only [State.learnApply]
  split
  · rfl
  · split
    next put => simpa using State.xPut_tollhouse put
    · simp

@[simp] theorem State.crossApply_tollhouse (s c) : (State.crossApply s c).tollhouse = s.tollhouse := by
  simp only [State.crossApply]
  split
  · rfl
  · split
    · split
      · split <;> simp
      · simp
    · split
      · simp
      · split
        next put => simpa using State.xPut_tollhouse put
        · simp

@[simp] theorem execLearnApply_tollhouse (c s) :
    tollhouseAfter (execLearnApply c s) = some s.tollhouse := by simp [execLearnApply]

@[simp] theorem execCrossPostApply_tollhouse (c s) :
    tollhouseAfter (execCrossPostApply c s) = some s.tollhouse := by simp [execCrossPostApply]

@[simp] theorem State.wayLost_tollhouse (s c a) : (State.wayLost s c a).tollhouse = s.tollhouse := by
  unfold State.wayLost
  repeat' split
  all_goals simp

@[simp] theorem State.exactLookup_tollhouse (s slice tmpl port chan key missing bad) :
    (State.exactLookup s slice tmpl port chan key missing bad).2.tollhouse = s.tollhouse := by
  simp only [State.exactLookup]
  repeat' split
  all_goals simp

@[simp] theorem State.ageEntry_tollhouse (s c n) : (State.ageEntry s c n).tollhouse = s.tollhouse := by
  unfold State.ageEntry
  repeat' split
  all_goals simp

@[simp] theorem State.ageFrom_tollhouse (s c tid) : (State.ageFrom s c tid).tollhouse = s.tollhouse := (rfl)

@[simp] theorem State.ageAnew_tollhouse (s tids) :
    (State.ageAnew s tids).tollhouse = s.tollhouse := by simp [State.ageAnew]

@[simp] theorem execAgingPass_tollhouse (c tid bad s) :
    tollhouseAfter (execAgingPass c tid bad s) = some s.tollhouse := by simp [execAgingPass]

@[simp] theorem State.xPutAll_tollhouse (s e cl) : (State.xPutAll s e cl).1.tollhouse = s.tollhouse := by
  refine foldl_keeps (fun x : State × Bool => x.1.tollhouse) (fun x c => ?_) cl (s, false)
  split
  next put => exact (State.xPut_tollhouse put :)
  · rfl

@[simp] theorem insertRecord_keeps (cl r s) : RecordKeeps s (insertRecord cl r s) := by
  simp only [insertRecord]
  repeat' split
  all_goals simp [RecordKeeps]

@[simp] theorem deleteRecord_keeps (cl r s) : RecordKeeps s (deleteRecord cl r s) := by
  refine foldl_tollhouse (fun s c => ?_) cl s
  split <;> simp

@[simp] theorem execTblInsert_tollhouse (h p s) :
    tollhouseAfter (execTblInsert h p s) = some s.tollhouse := by simp [execTblInsert]

@[simp] theorem execTblDelete_tollhouse (h p s) :
    tollhouseAfter (execTblDelete h p s) = some s.tollhouse := by simp [execTblDelete]

@[simp] theorem execTblSearch_tollhouse (h p s) :
    tollhouseAfter (execTblSearch h p s) = some s.tollhouse := by simp [execTblSearch]

@[simp] theorem execTblNext_tollhouse (h p s) :
    tollhouseAfter (execTblNext h p s) = some s.tollhouse := by simp [execTblNext]

@[simp] theorem execTblIteratorTimeout_tollhouse (c h s) :
    tollhouseAfter (execTblIteratorTimeout c h s) = some s.tollhouse := by simp [execTblIteratorTimeout]

@[simp] theorem execTblFlushPort_tollhouse (h p s) :
    tollhouseAfter (execTblFlushPort h p s) = some s.tollhouse := by simp [execTblFlushPort]

@[simp] theorem State.flushEnd_tollhouse (s c port) : (State.flushEnd s c port).tollhouse = s.tollhouse := by
  simp only [State.flushEnd, State.setCluster_tollhouse]
  rw [foldl_tollhouse, foldl_tollhouse (by simp)]
  intro s x
  split <;> simp

@[simp] theorem execFlushComplete_tollhouse (port s) :
    tollhouseAfter (execFlushComplete port s) = some s.tollhouse := by
  unfold execFlushComplete
  split <;> simp

@[simp] theorem State.barrier_tollhouse (s) : (State.barrier s).tollhouse = s.tollhouse := by
  unfold State.barrier
  dsimp only
  rw [foldl_tollhouse (fun s c => foldl_tollhouse (fun s _ => s.crossApply_tollhouse c) _ s),
    foldl_tollhouse (fun s c => foldl_tollhouse (fun s _ => s.learnApply_tollhouse c) _ s)]

@[simp] theorem State.syncInto_tollhouse (s c write es n m) :
    (State.syncInto s c write es n m).1.tollhouse = s.tollhouse := by
  induction es generalizing s n m with
  | nil => rfl
  | cons e es ih =>
    unfold State.syncInto
    repeat' split
    all_goals rw [ih]
    next put => exact State.xPut_tollhouse put
    next put => exact State.xPut_tollhouse put
    · exact State.noRoom_tollhouse s c

@[simp] theorem State.syncPrune_tollhouse (s c o es n) : (State.syncPrune s c o es n).1.tollhouse = s.tollhouse := by
  induction es generalizing s n with
  | nil => rfl
  | cons e es ih =>
    unfold State.syncPrune
    repeat' split
    all_goals simp [ih]

@[simp] theorem State.syncRun_tollhouse (s r) : (State.syncRun s r).1.tollhouse = s.tollhouse := by
  simp only [State.syncRun]
  split <;> simp

@[simp] theorem State.syncFrees_tollhouse (s mode) :
    (State.syncFrees s mode).tollhouse = s.tollhouse := by simp [State.syncFrees]

@[simp] theorem execTblSync_tollhouse (h p s) : tollhouseAfter (execTblSync h p s) = some s.tollhouse := by
  simp only [execTblSync]
  split <;> simp

@[simp] theorem execTblSyncComplete_tollhouse (s) : tollhouseAfter (execTblSyncComplete s) = some s.tollhouse := by
  unfold execTblSyncComplete
  split <;> simp

@[simp] theorem State.hashCfgWrite_tollhouse (s v) : (State.hashCfgWrite s v).tollhouse = s.tollhouse := (rfl)

/-! ### Spares and the life log as every substitution uses them -/

@[simp] theorem State.recordLife_tollhouse (s kind cause loc old new left) :
    (State.recordLife s kind cause loc old new left).tollhouse = s.tollhouse := by simp [State.recordLife]

@[simp] theorem State.takeSpare_tollhouse (s kind) :
    (State.takeSpare s kind).tollhouse = s.tollhouse := by simp [State.takeSpare]

@[simp] theorem State.substitute_tollhouse (s kind cause loc old new) :
    (State.substitute s kind cause loc old new).tollhouse = s.tollhouse := by simp [State.substitute]

/-! ### Associative banks -/

@[simp] theorem State.setAsc_tollhouse (s a) : (State.setAsc s a).tollhouse = s.tollhouse := (rfl)

@[simp] theorem State.setAe_tollhouse (s t) : (State.setAe s t).tollhouse = s.tollhouse := (rfl)

@[simp] theorem State.activate_tollhouse (s set mask) : (State.activate s set mask).tollhouse = s.tollhouse := (rfl)

@[simp] theorem State.ascLookup_tollhouse (s b tmpl key missing bad) :
    (State.ascLookup s b tmpl key missing bad).2.tollhouse = s.tollhouse := by
  simp only [State.ascLookup]
  repeat' split
  all_goals simp

@[simp] theorem State.putRow_tollhouse (s c a e) : (State.putRow s c a e).tollhouse = s.tollhouse := (rfl)

@[simp] theorem State.dropRow_tollhouse (s c a) : (State.dropRow s c a).tollhouse = s.tollhouse := (rfl)

@[simp] theorem State.finalWrite_tollhouse (s m) : (State.finalWrite s m).tollhouse = s.tollhouse := by
  simp only [State.finalWrite]
  split <;> simp

theorem State.insertOne_keeps (s r) : RecordKeeps s (State.insertOne s r) := by
  simp only [State.insertOne]
  repeat' split
  all_goals simp [RecordKeeps]

@[simp] theorem State.insertEnd_tollhouse (s cmd applied aux fail placed) :
    (State.insertEnd s cmd applied aux fail placed).tollhouse = s.tollhouse := by simp [State.insertEnd]

@[simp] theorem State.insertGo_tollhouse (s cmd rs a x pl) :
    (State.insertGo s cmd rs a x pl).tollhouse = s.tollhouse := by
  induction rs generalizing s a x pl with
  | nil => exact State.insertEnd_tollhouse s cmd a x 0 pl
  | cons r rs ih =>
    have kept := s.insertOne_keeps r
    unfold State.insertGo
    split
    next eq => rw [State.insertEnd_tollhouse]; rwa [eq] at kept
    next eq => rw [ih]; rwa [eq] at kept
    next eq => rw [State.setAsc_tollhouse]; rwa [eq] at kept

@[simp] theorem ascWriteRec_keeps (r s) : RecordKeeps s (ascWriteRec r s) := by
  simp only [ascWriteRec]
  repeat' split
  all_goals simp [RecordKeeps]

@[simp] theorem ascDeleteRec_keeps (r s) : RecordKeeps s (ascDeleteRec r s) := by
  simp only [ascDeleteRec]
  repeat' split
  all_goals simp [RecordKeeps]

@[simp] theorem State.ascChainCfg_tollhouse (s h p) :
    (State.ascChainCfg s h p).tollhouse = s.tollhouse := by simp [State.ascChainCfg]

@[simp] theorem State.ascExec_tollhouse (s cmd) : (State.ascExec s cmd).tollhouse = s.tollhouse := by
  simp only [State.ascExec]
  split
  case h_2 => split <;> simp
  all_goals simp

@[simp] theorem State.ascNext_tollhouse (s n) : (State.ascNext s n).tollhouse = s.tollhouse := by
  induction n generalizing s with
  | zero => rfl
  | succ n ih =>
    unfold State.ascNext
    split <;> simp [ih]

@[simp] theorem State.ascCommand_tollhouse (s op h p) :
    (State.ascCommand s op h p).tollhouse = s.tollhouse := by simp [State.ascCommand]

@[simp] theorem execAscWrite_tollhouse (h p s) :
    tollhouseAfter (execAscWrite h p s) = some s.tollhouse := by simp [execAscWrite]

@[simp] theorem execAscInsert_tollhouse (h p s) :
    tollhouseAfter (execAscInsert h p s) = some s.tollhouse := by simp [execAscInsert]

@[simp] theorem execAscDelete_tollhouse (h p s) :
    tollhouseAfter (execAscDelete h p s) = some s.tollhouse := by simp [execAscDelete]

@[simp] theorem execAscSearch_tollhouse (h p s) :
    tollhouseAfter (execAscSearch h p s) = some s.tollhouse := by simp [execAscSearch]

@[simp] theorem execAscRead_tollhouse (h p s) :
    tollhouseAfter (execAscRead h p s) = some s.tollhouse := by simp [execAscRead]

@[simp] theorem execAscChainCfg_tollhouse (h p s) :
    tollhouseAfter (execAscChainCfg h p s) = some s.tollhouse := by simp [execAscChainCfg]

@[simp] theorem execAscBlockMoveStep_tollhouse (s) : tollhouseAfter (execAscBlockMoveStep s) = some s.tollhouse := by
  unfold execAscBlockMoveStep
  repeat' split
  all_goals simp

@[simp] theorem State.bankFails_tollhouse (s bank) : (State.bankFails s bank).tollhouse = s.tollhouse := by
  unfold State.bankFails
  split <;> simp

@[simp] theorem State.moveLoses_tollhouse (s c a) : (State.moveLoses s c a).tollhouse = s.tollhouse := by
  unfold State.moveLoses
  repeat' split
  all_goals simp

@[simp] theorem State.retireRow_tollhouse (s bank row) : (State.retireRow s bank row).tollhouse = s.tollhouse := by
  simp only [State.retireRow]
  repeat' split
  all_goals simp

@[simp] theorem execAscScrubCompare_tollhouse (bank row differs shadowBad s) :
    tollhouseAfter (execAscScrubCompare bank row differs shadowBad s) = some s.tollhouse := by
  unfold execAscScrubCompare
  repeat' split
  all_goals simp

@[simp] theorem State.bankSwap_tollhouse (s bank cause) : (State.bankSwap s bank cause).tollhouse = s.tollhouse := by
  unfold State.bankSwap
  split <;> simp

@[simp] theorem execAscSpareSwap_tollhouse (s) : tollhouseAfter (execAscSpareSwap s) = some s.tollhouse := by
  unfold execAscSpareSwap
  split <;> simp

@[simp] theorem execAscActMsEnd_tollhouse (s) :
    tollhouseAfter (execAscActMsEnd s) = some s.tollhouse := by simp [execAscActMsEnd]

/-! ### Pattern runs -/

@[simp] theorem State.putPrbs_tollhouse (s type unit x) : (State.putPrbs s type unit x).tollhouse = s.tollhouse := (rfl)

@[simp] theorem State.stopWhere_tollhouse (s f) : (State.stopWhere s f).tollhouse = s.tollhouse := by
  simp only [State.stopWhere]
  split <;> simp

@[simp] theorem State.stopRuns_tollhouse (s type f) :
    (State.stopRuns s type f).tollhouse = s.tollhouse := by simp [State.stopRuns]

@[simp] theorem State.bistEnd_tollhouse (s kind result failing ms) :
    (State.bistEnd s kind result failing ms).tollhouse = s.tollhouse := (rfl)

@[simp] theorem State.abortBist_tollhouse (s spare l) : (State.abortBist s spare l).tollhouse = s.tollhouse := by
  unfold State.abortBist
  split <;> simp

@[simp] theorem State.tickRuns_tollhouse (s) : (State.tickRuns s).tollhouse = s.tollhouse := (rfl)

/-! ### Moves of buckets between FD slices -/

@[simp] theorem State.surge_tollhouse (s) : (State.surge s).tollhouse = s.tollhouse := by simp [State.surge]

@[simp] theorem State.askWake_tollhouse_of_ne (s d) (h : d ≠ 0) : (State.askWake s d).tollhouse = s.tollhouse := by
  simp [State.askWake, h]

@[simp] theorem State.wakeHalf_tollhouse (s l) :
    (State.wakeHalf s l).tollhouse = s.tollhouse := by simp [State.wakeHalf]

@[simp] theorem State.loadHalf_tollhouse (s d seq) :
    (State.loadHalf s d seq).tollhouse = s.tollhouse := by simp [State.loadHalf]

@[simp] theorem State.loadSet_tollhouse (s phys seq) :
    (State.loadSet s phys seq).tollhouse = s.tollhouse := by simp [State.loadSet]

@[simp] theorem State.setRoll_tollhouse (s r) : (State.setRoll s r).tollhouse = s.tollhouse := (rfl)

@[simp] theorem State.slotRuns_tollhouse (s k) : (State.slotRuns s k).tollhouse = s.tollhouse := (rfl)

@[simp] theorem State.rollNext_tollhouse (s r) :
    (State.rollNext s r).tollhouse = s.tollhouse := by simp [State.rollNext]

@[simp] theorem State.rollDone_tollhouse (s r) :
    (State.rollDone s r).tollhouse = s.tollhouse := by simp [State.rollDone]

@[simp] theorem State.startMove_tollhouse (s b t pin drain) :
    (State.startMove s b t pin drain).tollhouse = s.tollhouse := by simp [State.startMove]

@[simp] theorem State.putPin_tollhouse (s b pin) : (State.putPin s b pin).tollhouse = s.tollhouse := (rfl)

@[simp] theorem State.pumpCmd_tollhouse (n s) : (State.pumpCmd n s).tollhouse = s.tollhouse := by
  induction n generalizing s with
  | zero => rfl
  | succ n ih =>
    simp only [State.pumpCmd]
    repeat' split
    all_goals simp [ih]

@[simp] theorem State.pumpDrain_tollhouse (n s) : (State.pumpDrain n s).tollhouse = s.tollhouse := by
  induction n generalizing s with
  | zero => rfl
  | succ n ih =>
    simp only [State.pumpDrain]
    repeat' split
    all_goals simp [ih]

@[simp] theorem State.pumpMoves_tollhouse (s) : (State.pumpMoves s).tollhouse = s.tollhouse := by simp [State.pumpMoves]

@[simp] theorem State.enterHeld_tollhouse (s l ps) :
    (State.enterHeld s l ps).tollhouse = s.tollhouse := by simp [State.enterHeld]

@[simp] theorem State.rollBack_tollhouse (s) : (State.rollBack s).tollhouse = s.tollhouse := by
  unfold State.rollBack
  split <;> simp

@[simp] theorem State.finishMove_tollhouse (s m) : (State.finishMove s m).tollhouse = s.tollhouse := by
  unfold State.finishMove
  split <;> simp

@[simp] theorem State.dropMove_tollhouse (s m) :
    (State.dropMove s m).tollhouse = s.tollhouse := by simp [State.dropMove]

@[simp] theorem execGangwayMoveDrained_tollhouse (b s) :
    tollhouseAfter (execGangwayMoveDrained b s) = some s.tollhouse := by
  unfold execGangwayMoveDrained
  split <;> simp

@[simp] theorem execGangwayMoveAbandon_tollhouse (b s) :
    tollhouseAfter (execGangwayMoveAbandon b s) = some s.tollhouse := by
  unfold execGangwayMoveAbandon
  split <;> simp

@[simp] theorem State.halfAwake_tollhouse (s l) :
    (State.halfAwake s l).tollhouse = s.tollhouse := by simp [State.halfAwake]

@[simp] theorem State.stopDrain_tollhouse (s l) :
    (State.stopDrain s l).tollhouse = s.tollhouse := by simp [State.stopDrain]

@[simp] theorem execGangwayMove_tollhouse (h p s) :
    tollhouseAfter (execGangwayMove h p s) = some s.tollhouse := by simp [execGangwayMove]

@[simp] theorem execPuntBucketRefill_tollhouse (s) : tollhouseAfter (execPuntBucketRefill s) = some s.tollhouse := by
  unfold execPuntBucketRefill
  split
  · rfl
  · simp only [tollhouseAfter_next, tollhouse_mk, tget_domains]

/-! ### Ingress meters -/

@[simp] theorem State.setSched_tollhouse (s x) : (State.setSched s x).tollhouse = s.tollhouse := (rfl)

@[simp] theorem State.setTdCfg_tollhouse (s x) : (State.setTdCfg s x).tollhouse = s.tollhouse := (rfl)

@[simp] theorem State.putPnode_tollhouse (s n p) : (State.putPnode s n p).tollhouse = s.tollhouse := (rfl)

@[simp] theorem State.setMeter_tollhouse (s m r) : (State.setMeter s m r).tollhouse = s.tollhouse := (rfl)

@[simp] theorem State.meter_tollhouse (s m n aware colour bad) :
    (State.meter s m n aware colour bad).2.tollhouse = s.tollhouse := by
  simp [State.meter]

@[simp] theorem execMeterRefill_tollhouse (m s) :
    tollhouseAfter (execMeterRefill m s) = some s.tollhouse := by simp [execMeterRefill]

@[simp] theorem execMeterSet_tollhouse (h p s) :
    tollhouseAfter (execMeterSet h p s) = some s.tollhouse := by simp [execMeterSet]

@[simp] theorem execMeterRead_tollhouse (h p s) :
    tollhouseAfter (execMeterRead h p s) = some s.tollhouse := by simp [execMeterRead]

/-! ### Action engines -/

@[simp] theorem State.putThread_tollhouse (s t) : (State.putThread s t).tollhouse = s.tollhouse := (rfl)

@[simp] theorem Thread.bump_tollhouse (t ing eg s) : (Thread.bump t ing eg s).tollhouse = s.tollhouse := by
  unfold Thread.bump
  split <;> simp

@[simp] theorem State.setFrags_tollhouse (s l) : (State.setFrags s l).tollhouse = s.tollhouse := (rfl)

@[simp] theorem State.fragUpd_tollhouse (s chan key f) : (State.fragUpd s chan key f).tollhouse = s.tollhouse := (rfl)

@[simp] theorem State.fragSweep_tollhouse (s) : (State.fragSweep s).tollhouse = s.tollhouse := (rfl)

@[simp] theorem State.orphan_tollhouse (s slice ver p) :
    (State.orphan s slice ver p).tollhouse = s.tollhouse := by simp [State.orphan]

@[simp] theorem State.flowCount_tollhouse (s idx bytes) : (State.flowCount s idx bytes).tollhouse = s.tollhouse := (rfl)

@[simp] theorem State.conclude_tollhouse (s slice p v o) : (State.conclude s slice p v o).tollhouse = s.tollhouse := by
  unfold State.conclude
  split <;> simp

@[simp] theorem State.followRes_tollhouse (s p r) : (State.followRes s p r).2.tollhouse = s.tollhouse := by
  simp only [State.followRes]
  repeat' split
  all_goals simp_all

@[simp] theorem State.fragResolve_tollhouse (s t v) : (State.fragResolve s t v).tollhouse = s.tollhouse := by
  simp only [State.fragResolve]
  repeat' split
  all_goals simp

@[simp] theorem State.unsend_tollhouse (s node n) : (State.unsend s node n).tollhouse = s.tollhouse := (rfl)

@[simp] theorem State.resize_tollhouse (s node n len) : (State.resize s node n len).tollhouse = s.tollhouse := (rfl)

@[simp] theorem State.egressOut_tollhouse (s t e) :
    (State.egressOut s t e).tollhouse = s.tollhouse := by simp [State.egressOut]

@[simp] theorem State.emit_tollhouse (s t v) : (State.emit s t v).tollhouse = s.tollhouse := by
  unfold State.emit
  repeat' split
  all_goals simp

@[simp] theorem State.emitHalf_tollhouse (slice eg n s) : (State.emitHalf slice eg n s).tollhouse = s.tollhouse := by
  induction n generalizing s with
  | zero => rfl
  | succ n ih =>
    unfold State.emitHalf
    repeat' split
    all_goals simp [ih]

@[simp] theorem State.restore_tollhouse (s slice eg) :
    (State.restore s slice eg).tollhouse = s.tollhouse := by simp [State.restore]

@[simp] theorem State.finishThread_tollhouse (s t v) :
    (State.finishThread s t v).tollhouse = s.tollhouse := by simp [State.finishThread]

@[simp] theorem State.resultOr_tollhouse (s st r) : (State.resultOr s st r).2.tollhouse = s.tollhouse := by
  simp [State.resultOr]

@[simp] theorem Front.add_tollhouse (f sel miss r s) : (Front.add f sel miss r s).2.tollhouse = s.tollhouse := by
  unfold Front.add
  split <;> simp

@[simp] theorem State.frontEnd_tollhouse (s slice bank p ls flt) :
    (State.frontEnd s slice bank p ls flt).2.tollhouse = s.tollhouse := by
  simp only [State.frontEnd]
  repeat' split
  all_goals simp_all

@[simp] theorem State.newThread_tollhouse (s slice eg p ver chan pc) :
    (State.newThread s slice eg p ver chan pc).2.tollhouse = s.tollhouse := by
  simp [State.newThread]

@[simp] theorem State.startThread_tollhouse (s t) : (State.startThread s t).tollhouse = s.tollhouse := by
  simp only [State.startThread]
  split <;> simp

@[simp] theorem State.classify_tollhouse (s slice p frag flt) :
    (State.classify s slice p frag flt).tollhouse = s.tollhouse := by
  simp only [State.classify]
  repeat' split
  all_goals simp

@[simp] theorem State.followThread_tollhouse (s slice p r) :
    (State.followThread s slice p r).tollhouse = s.tollhouse := by simp [State.followThread]

@[simp] theorem State.fragment_tollhouse (s slice p i flt) :
    (State.fragment s slice p i flt).tollhouse = s.tollhouse := by
  simp only [State.fragment]
  repeat' split
  all_goals simp

@[simp] theorem execIngressDispatch_tollhouse (slice flt s) :
    tollhouseAfter (execIngressDispatch slice flt s) = some s.tollhouse := by
  simp only [execIngressDispatch]
  repeat' split
  all_goals simp

@[simp] theorem execFragEntryExpire_tollhouse (i s) : tollhouseAfter (execFragEntryExpire i s) = some s.tollhouse := by
  unfold execFragEntryExpire
  split <;> simp

@[simp] theorem State.enterEgress_tollhouse (s slice p e st ls) :
    (State.enterEgress s slice p e st ls).tollhouse = s.tollhouse := by simp [State.enterEgress]

@[simp] theorem execEgressDispatch_tollhouse (slice s) :
    tollhouseAfter (execEgressDispatch slice s) = some s.tollhouse := by
  unfold execEgressDispatch
  split <;> simp

/-! ### The role of a pair member -/

@[simp] theorem State.setPair_tollhouse (s p) : (State.setPair s p).tollhouse = s.tollhouse := (rfl)

@[simp] theorem State.fabricWake_tollhouse (s) :
    (State.fabricWake s).tollhouse = s.tollhouse := by simp [State.fabricWake]

@[simp] theorem State.fabricDown_tollhouse (s) :
    (State.fabricDown s).tollhouse = s.tollhouse := by simp [State.fabricDown]

@[simp] theorem State.fabricFor_tollhouse (s m) :
    (State.fabricFor s m).tollhouse = s.tollhouse := by simp [State.fabricFor]

@[simp] theorem State.enterMode_tollhouse (s m) :
    (State.enterMode s m).tollhouse = s.tollhouse := by simp [State.enterMode]

@[simp] theorem State.dropRole_tollhouse (s cause) :
    (State.dropRole s cause).tollhouse = s.tollhouse := by simp [State.dropRole]

@[simp] theorem State.takeRole_tollhouse (s why) :
    (State.takeRole s why).tollhouse = s.tollhouse := by simp [State.takeRole]

@[simp] theorem State.endModeReq_tollhouse (s r code) : (State.endModeReq s r code).tollhouse = s.tollhouse := by
  unfold State.endModeReq
  split <;> simp

@[simp] theorem State.noteHoldoff_tollhouse (s) : (State.noteHoldoff s).tollhouse = s.tollhouse := (rfl)

@[simp] theorem State.judgeRole_tollhouse (s) : (State.judgeRole s).tollhouse = s.tollhouse := by
  unfold State.judgeRole
  repeat' split
  all_goals simp

@[simp] theorem State.postYield_tollhouse (s src items) :
    (State.postYield s src items).tollhouse = s.tollhouse := by simp [State.postYield]

@[simp] theorem State.tetherDown_tollhouse (s) :
    (State.tetherDown s).tollhouse = s.tollhouse := by simp [State.tetherDown]

@[simp] theorem State.tetherLane_tollhouse (s lane on) :
    (State.tetherLane s lane on).tollhouse = s.tollhouse := by simp [State.tetherLane]

@[simp] theorem State.judgeConflict_tollhouse (s) :
    (State.judgeConflict s).tollhouse = s.tollhouse := by simp [State.judgeConflict]

@[simp] theorem execIlkPeerChange_tollhouse (level s) :
    tollhouseAfter (execIlkPeerChange level s) = some s.tollhouse := by simp [execIlkPeerChange]

@[simp] theorem State.itemFails_tollhouse (s item) :
    (State.itemFails s item).tollhouse = s.tollhouse := by simp [State.itemFails]

@[simp] theorem execIlkReadbackFault_tollhouse (osel s) :
    tollhouseAfter (execIlkReadbackFault osel s) = some s.tollhouse := by simp [execIlkReadbackFault]

@[simp] theorem execInterlockHoldoffExpire_tollhouse (s) :
    tollhouseAfter (execInterlockHoldoffExpire s) = some s.tollhouse := by
  unfold execInterlockHoldoffExpire
  repeat' split
  all_goals simp

@[simp] theorem execYieldBlockExpire_tollhouse (s) :
    tollhouseAfter (execYieldBlockExpire s) = some s.tollhouse := by simp [execYieldBlockExpire]

@[simp] theorem execRefereeVerdictReceive_tollhouse (frame s) :
    tollhouseAfter (execRefereeVerdictReceive frame s) = some s.tollhouse := by
  unfold execRefereeVerdictReceive
  repeat' split
  all_goals simp

@[simp] theorem execRefereeTimeout_tollhouse (s) :
    tollhouseAfter (execRefereeTimeout s) = some s.tollhouse := by simp [execRefereeTimeout]

@[simp] theorem execStandbySelftestRound_tollhouse (item pass s) :
    tollhouseAfter (execStandbySelftestRound item pass s) = some s.tollhouse := by simp [execStandbySelftestRound]

/-! ### The action instruction set -/

@[simp] theorem State.countOnly_tollhouse (s src) : (State.countOnly s src).tollhouse = s.tollhouse := (rfl)

@[simp] theorem State.dropSlice_tollhouse (s l) : (State.dropSlice s l).tollhouse = s.tollhouse := by
  simp only [State.dropSlice]
  rw [foldl_tollhouse (by simp), State.setFrags_tollhouse, foldl_tollhouse (by simp), State.setEng_tollhouse,
    foldl_tollhouse, State.setEng_tollhouse, foldl_tollhouse (by simp), State.setGang_tollhouse]
  intro s t
  split <;> simp

@[simp] theorem State.fenceDrain_tollhouse (s l) : (State.fenceDrain s l).tollhouse = s.tollhouse := by
  simp only [State.fenceDrain, State.pumpMoves_tollhouse, State.postYield_tollhouse, State.setGang_tollhouse]
  rw [foldl_tollhouse (by simp)]
  simp

@[simp] theorem State.sliceSwap_tollhouse (s l cause) :
    (State.sliceSwap s l cause).tollhouse = s.tollhouse := by simp [State.sliceSwap]

@[simp] theorem State.doubleFault_tollhouse (s l) :
    (State.doubleFault s l).tollhouse = s.tollhouse := by simp [State.doubleFault]

@[simp] theorem State.parityError_tollhouse (s l addr) :
    (State.parityError s l addr).tollhouse = s.tollhouse := by simp [State.parityError]

@[simp] theorem State.progFault_tollhouse (s t cause) :
    (State.progFault s t cause).tollhouse = s.tollhouse := by simp [State.progFault]

@[simp] theorem State.settle_tollhouse (s t i) : (State.settle s t i).tollhouse = s.tollhouse := by
  unfold State.settle
  split <;> simp

@[simp] theorem State.issue_tollhouse {eff : Thread → State → Issued × State}
    (keeps : ∀ t s, (eff t s).2.tollhouse = s.tollhouse) (opc x cost looks s) :
    tollhouseAfter (State.issue opc x cost looks eff s) = some s.tollhouse := by
  simp only [State.issue, tollhouseAfter_next]
  split
  · rfl
  · repeat' split
    all_goals simp [keeps]

@[simp] theorem State.issueReg_tollhouse (opc cost x f s) :
    tollhouseAfter (State.issueReg opc cost x f s) = some s.tollhouse := by simp [State.issueReg]

@[simp] theorem execAdd_tollhouse (x s) : tollhouseAfter (execAdd x s) = some s.tollhouse := by simp [execAdd]

@[simp] theorem execSub_tollhouse (x s) : tollhouseAfter (execSub x s) = some s.tollhouse := by simp [execSub]

@[simp] theorem execAnd_tollhouse (x s) : tollhouseAfter (execAnd x s) = some s.tollhouse := by simp [execAnd]

@[simp] theorem execOr_tollhouse (x s) : tollhouseAfter (execOr x s) = some s.tollhouse := by simp [execOr]

@[simp] theorem execXor_tollhouse (x s) : tollhouseAfter (execXor x s) = some s.tollhouse := by simp [execXor]

@[simp] theorem execShl_tollhouse (x s) : tollhouseAfter (execShl x s) = some s.tollhouse := by simp [execShl]

@[simp] theorem execShr_tollhouse (x s) : tollhouseAfter (execShr x s) = some s.tollhouse := by simp [execShr]

@[simp] theorem execMovi_tollhouse (x s) : tollhouseAfter (execMovi x s) = some s.tollhouse := by simp [execMovi]

@[simp] theorem execMovh_tollhouse (x s) : tollhouseAfter (execMovh x s) = some s.tollhouse := by simp [execMovh]

@[simp] theorem execExt_tollhouse (x s) : tollhouseAfter (execExt x s) = some s.tollhouse := by simp [execExt]

@[simp] theorem execIns_tollhouse (x s) : tollhouseAfter (execIns x s) = some s.tollhouse := by simp [execIns]

@[simp] theorem State.branch_tollhouse (opc x c s) :
    tollhouseAfter (State.branch opc x c s) = some s.tollhouse := by simp [State.branch]

@[simp] theorem execBeq_tollhouse (x s) : tollhouseAfter (execBeq x s) = some s.tollhouse := by simp [execBeq]

@[simp] theorem execBne_tollhouse (x s) : tollhouseAfter (execBne x s) = some s.tollhouse := by simp [execBne]

@[simp] theorem execBlt_tollhouse (x s) : tollhouseAfter (execBlt x s) = some s.tollhouse := by simp [execBlt]

@[simp] theorem execBge_tollhouse (x s) : tollhouseAfter (execBge x s) = some s.tollhouse := by simp [execBge]

@[simp] theorem execJmp_tollhouse (x s) : tollhouseAfter (execJmp x s) = some s.tollhouse := by simp [execJmp]

@[simp] theorem Thread.field_tollhouse (t sel s) : (Thread.field t sel s).2.tollhouse = s.tollhouse := by
  unfold Thread.field
  repeat' split
  all_goals simp

@[simp] theorem execLdf_tollhouse (x s) : tollhouseAfter (execLdf x s) = some s.tollhouse := by simp [execLdf]

@[simp] theorem execStf_tollhouse (x s) : tollhouseAfter (execStf x s) = some s.tollhouse := by simp [execStf]

@[simp] theorem execLdh_tollhouse (x s) : tollhouseAfter (execLdh x s) = some s.tollhouse := by simp [execLdh]

@[simp] theorem execHash_tollhouse (x s) : tollhouseAfter (execHash x s) = some s.tollhouse := by simp [execHash]

@[simp] theorem State.issueLook_tollhouse {look : Thread → State → LkRes × State}
    (keeps : ∀ t s, (look t s).2.tollhouse = s.tollhouse) (opc x s) :
    tollhouseAfter (State.issueLook opc x look s) = some s.tollhouse := by
  refine State.issue_tollhouse (fun t s => ?_) ..
  dsimp only
  split <;> simp [keeps]

@[simp] theorem execLke_tollhouse (x s) : tollhouseAfter (execLke x s) = some s.tollhouse := by simp [execLke]

@[simp] theorem execLkl_tollhouse (x s) : tollhouseAfter (execLkl x s) = some s.tollhouse := by simp [execLkl]

@[simp] theorem execLka_tollhouse (x s) : tollhouseAfter (execLka x s) = some s.tollhouse := by simp [execLka]

@[simp] theorem execMtr_tollhouse (x s) : tollhouseAfter (execMtr x s) = some s.tollhouse := by simp [execMtr]

@[simp] theorem execActionLookupComplete_tollhouse (t s) :
    tollhouseAfter (execActionLookupComplete t s) = some s.tollhouse := by
  unfold execActionLookupComplete
  repeat' split
  all_goals simp

@[simp] theorem execCnt_tollhouse (x s) : tollhouseAfter (execCnt x s) = some s.tollhouse := by simp [execCnt]

@[simp] theorem execEdit_tollhouse (x s) : tollhouseAfter (execEdit x s) = some s.tollhouse := by simp [execEdit]

@[simp] theorem execPunt_tollhouse (x s) : tollhouseAfter (execPunt x s) = some s.tollhouse := by simp [execPunt]

@[simp] theorem execFwd_tollhouse (x s) : tollhouseAfter (execFwd x s) = some s.tollhouse := by simp [execFwd]

@[simp] theorem execDrop_tollhouse (x s) : tollhouseAfter (execDrop x s) = some s.tollhouse := by simp [execDrop]

@[simp] theorem execEngineCheckFail_tollhouse (slice egress threads s) :
    tollhouseAfter (execEngineCheckFail slice egress threads s) = some s.tollhouse := by simp [execEngineCheckFail]

@[simp] theorem execCsScrubRead_tollhouse (slice addr word s) :
    tollhouseAfter (execCsScrubRead slice addr word s) = some s.tollhouse := by simp [execCsScrubRead]

/-! ### What the rest of the part asks of line ports and Span groups -/

@[simp] theorem State.setLine_tollhouse (s l) : (State.setLine s l).tollhouse = s.tollhouse := (rfl)

@[simp] theorem State.putPortRun_tollhouse (s p r) : (State.putPortRun s p r).tollhouse = s.tollhouse := (rfl)

@[simp] theorem State.putSpanRun_tollhouse (s g r) : (State.putSpanRun s g r).tollhouse = s.tollhouse := (rfl)

@[simp] theorem State.putInst_tollhouse (s port i x) : (State.putInst s port i x).tollhouse = s.tollhouse := (rfl)

/-! ### Manifest alignment between the members of a pair -/

@[simp] theorem State.putAlign_tollhouse (s c a) : (State.putAlign s c a).tollhouse = s.tollhouse := (rfl)

@[simp] theorem State.pairCount_tollhouse (s n k) : (State.pairCount s n k).tollhouse = s.tollhouse := (rfl)

@[simp] theorem State.putPos_tollhouse (s c v) : (State.putPos s c v).tollhouse = s.tollhouse := (rfl)

@[simp] theorem State.tellAlign_tollhouse (s c kind t p) :
    (State.tellAlign s c kind t p).tollhouse = s.tollhouse := by simp [State.tellAlign]

@[simp] theorem State.chanLost_tollhouse (s c) :
    (State.chanLost s c).tollhouse = s.tollhouse := by simp [State.chanLost]

@[simp] theorem execAlignMarker_tollhouse (chan t pos s) :
    tollhouseAfter (execAlignMarker chan t pos s) = some s.tollhouse := by simp [execAlignMarker]

@[simp] theorem execAlignRetryTimer_tollhouse (chan s) :
    tollhouseAfter (execAlignRetryTimer chan s) = some s.tollhouse := by
  simp only [execAlignRetryTimer]
  split <;> simp

@[simp] theorem State.takeAlign_tollhouse (s f) : (State.takeAlign s f).tollhouse = s.tollhouse := by
  simp only [State.takeAlign]
  repeat' split
  all_goals simp

@[simp] theorem State.sampleMeet_tollhouse (s c same) :
    (State.sampleMeet s c same).tollhouse = s.tollhouse := by simp [State.sampleMeet]

@[simp] theorem State.sample_tollhouse (s c man bytes) : (State.sample s c man bytes).tollhouse = s.tollhouse := by
  simp only [State.sample]
  repeat' split
  all_goals simp

@[simp] theorem State.takeSamples_tollhouse (s f) : (State.takeSamples s f).tollhouse = s.tollhouse := by
  simp only [State.takeSamples]
  split
  · simp
  · refine foldl_tollhouse (fun s x => ?_) _ s
    split
    · rfl
    · split <;> simp

@[simp] theorem execManifestSampleExpire_tollhouse (s) :
    tollhouseAfter (execManifestSampleExpire s) = some s.tollhouse := (rfl)

@[simp] theorem execPairAlign_tollhouse (h p s) : tollhouseAfter (execPairAlign h p s) = some s.tollhouse := by
  simp only [execPairAlign]
  split <;> simp

@[simp] theorem State.handIn_tollhouse (s p) : (State.handIn s p).tollhouse = s.tollhouse := by simp [State.handIn]

/-! ### The scheduling tree -/

@[simp] theorem State.putBucket_tollhouse (s k b) : (State.putBucket s k b).tollhouse = s.tollhouse := (rfl)

@[simp] theorem State.timetable_tollhouse (s k) : (State.timetable s k).tollhouse = s.tollhouse := (rfl)

@[simp] theorem State.charge_tollhouse (s k len) :
    (State.charge s k len).tollhouse = s.tollhouse := by simp [State.charge]

@[simp] theorem execShaperRefill_tollhouse (kind node s) :
    tollhouseAfter (execShaperRefill kind node s) = some s.tollhouse := by simp [execShaperRefill]

@[simp] theorem State.retireOne_tollhouse (s k e) :
    (State.retireOne s k e).tollhouse = s.tollhouse := by simp [State.retireOne]

@[simp] theorem execTimetableRetire_tollhouse (s) :
    tollhouseAfter (execTimetableRetire s) = some s.tollhouse := by simp [execTimetableRetire]

@[simp] theorem execShaperSet_tollhouse (h p s) :
    tollhouseAfter (execShaperSet h p s) = some s.tollhouse := by simp [execShaperSet]

@[simp] theorem State.putDeficit_tollhouse (s k d) : (State.putDeficit s k d).tollhouse = s.tollhouse := (rfl)

@[simp] theorem execNodeCfg_tollhouse (h p s) :
    tollhouseAfter (execNodeCfg h p s) = some s.tollhouse := by simp [execNodeCfg]

@[simp] theorem State.toPort_tollhouse (s n st ev items) :
    (State.toPort s n st ev items).tollhouse = s.tollhouse := (rfl)

@[simp] theorem State.portLink_tollhouse (s n) : (State.portLink s n).tollhouse = s.tollhouse := by
  simp only [State.portLink]
  split <;> simp

@[simp] theorem execPortLinkChange_tollhouse (node s) :
    tollhouseAfter (execPortLinkChange node s) = some s.tollhouse := by simp [execPortLinkChange]

@[simp] theorem execPortHoldExpire_tollhouse (node s) :
    tollhouseAfter (execPortHoldExpire node s) = some s.tollhouse := by simp [execPortHoldExpire]

@[simp] theorem execPortHold_tollhouse (h p s) :
    tollhouseAfter (execPortHold h p s) = some s.tollhouse := by simp [execPortHold]

/-! ### Berths -/

@[simp] theorem State.setBerths_tollhouse (s b) : (State.setBerths s b).tollhouse = s.tollhouse := (rfl)

@[simp] theorem State.loseBerth_tollhouse (s b) : (State.loseBerth s b).tollhouse = s.tollhouse := (rfl)

@[simp] theorem State.retireBerth_tollhouse (s) : (State.retireBerth s).tollhouse = s.tollhouse := (rfl)

@[simp] theorem State.popBerth_tollhouse (t n bad s) : (State.popBerth t n bad s).2.tollhouse = s.tollhouse := by
  induction n generalizing bad s with
  | zero => rfl
  | succ n ih =>
    simp only [State.popBerth]
    split
    · rfl
    next b u next =>
      have kept : u.tollhouse = s.tollhouse := by
        split at next
        · cases next; simp
        · split at next
          · cases next; simp
          · cases next
      repeat' split
      all_goals simp [ih, kept]

@[simp] theorem State.allocBerth_tollhouse (s slice p bad) :
    (State.allocBerth s slice p bad).2.tollhouse = s.tollhouse := by
  simp only [State.allocBerth]
  split
  · simp
  · have kept := State.popBerth_tollhouse (poolTier p)
      (bad + s.br.quar.length + 1 + (if s.mem.lostPcs.isEmpty then 0 else tierSize 1)) bad s
    split
    next eq => rw [eq] at kept; simpa using kept
    next eq => rw [eq] at kept; simpa using kept

@[simp] theorem State.allocMany_tollhouse (slice p n bad l s) :
    (State.allocMany slice p n bad l s).2.tollhouse = s.tollhouse := by
  induction n generalizing bad l s with
  | zero => rfl
  | succ n ih =>
    have kept := State.allocBerth_tollhouse s slice p bad
    unfold State.allocMany
    split
    next eq => rw [eq] at kept; simpa [ih] using kept
    next eq => rw [eq] at kept; simpa using kept

@[simp] theorem State.freeAll_tollhouse (s slice l) : (State.freeAll s slice l).tollhouse = s.tollhouse := (rfl)

@[simp] theorem State.quarantine_tollhouse (s cause b slice) :
    (State.quarantine s cause b slice).tollhouse = s.tollhouse := by simp [State.quarantine]

@[simp] theorem execBerthFree_tollhouse (berth slice s) :
    tollhouseAfter (execBerthFree berth slice s) = some s.tollhouse := by
  simp only [execBerthFree]
  repeat' split
  all_goals simp

@[simp] theorem execCheckRingResult_tollhouse (s) : tollhouseAfter (execCheckRingResult s) = some s.tollhouse := by
  unfold execCheckRingResult
  split <;> simp

@[simp] theorem State.poolCfgWrite_tollhouse (s p v) : (State.poolCfgWrite s p v).tollhouse = s.tollhouse := by
  unfold State.poolCfgWrite
  dsimp only
  split
  · rw [State.post_tollhouse, State.setCfgReg_tollhouse]
  · exact State.setCfgReg_tollhouse ..

@[simp] theorem execBerthAudit_tollhouse (h p s) :
    tollhouseAfter (execBerthAudit h p s) = some s.tollhouse := by simp [execBerthAudit]

@[simp] theorem execBerthAuditRebuild_tollhouse (s) :
    tollhouseAfter (execBerthAuditRebuild s) = some s.tollhouse := by simp [execBerthAuditRebuild]

@[simp] theorem execBerthAuditComplete_tollhouse (s) :
    tollhouseAfter (execBerthAuditComplete s) = some s.tollhouse := by simp [execBerthAuditComplete]

@[simp] theorem execBerthQlist_tollhouse (h p s) :
    tollhouseAfter (execBerthQlist h p s) = some s.tollhouse := by simp [execBerthQlist]

/-! ### The control store -/

@[simp] theorem execActLoad_tollhouse (h p s) :
    tollhouseAfter (execActLoad h p s) = some s.tollhouse := by simp [execActLoad]

@[simp] theorem execActRead_tollhouse (h p s) :
    tollhouseAfter (execActRead h p s) = some s.tollhouse := by simp [execActRead]

@[simp] theorem State.setRot_tollhouse (s l v) : (State.setRot s l v).tollhouse = s.tollhouse := (rfl)

@[simp] theorem execRolloutStepStart_tollhouse (s) : tollhouseAfter (execRolloutStepStart s) = some s.tollhouse := by
  unfold execRolloutStepStart
  split <;> simp

@[simp] theorem State.rollFree_tollhouse (s l) :
    (State.rollFree s l).tollhouse = s.tollhouse := by simp [State.rollFree]

@[simp] theorem execRolloutStepSwitch_tollhouse (s) : tollhouseAfter (execRolloutStepSwitch s) = some s.tollhouse := by
  unfold execRolloutStepSwitch
  split <;> simp

@[simp] theorem execRolloutStepReload_tollhouse (pass s) :
    tollhouseAfter (execRolloutStepReload pass s) = some s.tollhouse := by
  unfold execRolloutStepReload
  split <;> simp

/-! ### Versions of the rule set -/

@[simp] theorem State.setRules_tollhouse (s r) : (State.setRules s r).tollhouse = s.tollhouse := (rfl)

@[simp] theorem execClsBegin_tollhouse (h p s) :
    tollhouseAfter (execClsBegin h p s) = some s.tollhouse := by simp [execClsBegin]

@[simp] theorem execClsStage_tollhouse (h p s) :
    tollhouseAfter (execClsStage h p s) = some s.tollhouse := by simp [execClsStage]

@[simp] theorem State.switchRules_tollhouse (s) : (State.switchRules s).tollhouse = s.tollhouse := by
  unfold State.switchRules
  split <;> simp

@[simp] theorem execClsCommit_tollhouse (h p s) :
    tollhouseAfter (execClsCommit h p s) = some s.tollhouse := by simp [execClsCommit]

@[simp] theorem execClsAbort_tollhouse (h p s) :
    tollhouseAfter (execClsAbort h p s) = some s.tollhouse := by simp [execClsAbort]

@[simp] theorem execClsSwitch_tollhouse (s) : tollhouseAfter (execClsSwitch s) = some s.tollhouse := by
  unfold execClsSwitch
  split <;> simp

/-! ### Counters -/

@[simp] theorem State.setCnt_tollhouse (s c) : (State.setCnt s c).tollhouse = s.tollhouse := (rfl)

@[simp] theorem State.cutDue_tollhouse (s) : (State.cutDue s).tollhouse = s.tollhouse := (rfl)

@[simp] theorem execCntGrant_tollhouse (h p s) :
    tollhouseAfter (execCntGrant h p s) = some s.tollhouse := by simp [execCntGrant]

@[simp] theorem execCntProgram_tollhouse (h p s) :
    tollhouseAfter (execCntProgram h p s) = some s.tollhouse := by simp [execCntProgram]

@[simp] theorem execCntSnapshot_tollhouse (h p s) :
    tollhouseAfter (execCntSnapshot h p s) = some s.tollhouse := by simp [execCntSnapshot]

@[simp] theorem execCntSnapshotInstant_tollhouse (space s) :
    tollhouseAfter (execCntSnapshotInstant space s) = some s.tollhouse := (rfl)

@[simp] theorem execCntSnapshotComplete_tollhouse (space s) :
    tollhouseAfter (execCntSnapshotComplete space s) = some s.tollhouse := by
  unfold execCntSnapshotComplete
  split <;> simp

@[simp] theorem execCntRead_tollhouse (h p s) : tollhouseAfter (execCntRead h p s) = some s.tollhouse := by
  simp only [execCntRead]
  split <;> simp

@[simp] theorem execPortCntRead_tollhouse (h p s) :
    tollhouseAfter (execPortCntRead h p s) = some s.tollhouse := by simp [execPortCntRead]

/-! ### The die-to-die interface -/

@[simp] theorem State.putDir_tollhouse (s m d x) : (State.putDir s m d x).tollhouse = s.tollhouse := (rfl)

@[simp] theorem State.linkSay_tollhouse (s m d msg) : (State.linkSay s m d msg).tollhouse = s.tollhouse := (rfl)

@[simp] theorem State.linkHear_tollhouse (s m d f) : (State.linkHear s m d f).tollhouse = s.tollhouse := (rfl)

@[simp] theorem State.retrain_tollhouse (s m) : (State.retrain s m).tollhouse = s.tollhouse := by simp [State.retrain]

@[simp] theorem State.flitFails_tollhouse (s m d) :
    (State.flitFails s m d).tollhouse = s.tollhouse := by simp [State.flitFails]

@[simp] theorem execFlitReceive_tollhouse (m dir flit s) :
    tollhouseAfter (execFlitReceive m dir flit s) = some s.tollhouse := by simp [execFlitReceive]

@[simp] theorem execD2dRetrain_tollhouse (m s) :
    tollhouseAfter (execD2dRetrain m s) = some s.tollhouse := by simp [execD2dRetrain]

@[simp] theorem State.retireModule_tollhouse (s m) :
    (State.retireModule s m).tollhouse = s.tollhouse := by simp [State.retireModule]

theorem State.repairLane_tollhouse {s m up lane t} (h : State.repairLane s m up lane = some t) :
    t.tollhouse = s.tollhouse := by
  simp only [State.repairLane] at h
  split at h
  · cases h
  · cases h; simp

@[simp] theorem State.repairLanes_tollhouse (s m l) : (State.repairLanes s m l).2.tollhouse = s.tollhouse := by
  induction l generalizing s with
  | nil => rfl
  | cons x l ih =>
    unfold State.repairLanes
    split
    · exact ih s
    next repaired => rw [ih, State.repairLane_tollhouse repaired]

@[simp] theorem State.trainModules_tollhouse (s lanes) : (State.trainModules s lanes).tollhouse = s.tollhouse :=
  foldl_tollhouse (fun s m => by simp) _ s

@[simp] theorem execD2dRetrainEnd_tollhouse (m ok lanes s) :
    tollhouseAfter (execD2dRetrainEnd m ok lanes s) = some s.tollhouse := by simp [execD2dRetrainEnd]

/-! ### Rings -/

@[simp] theorem State.barRing_tollhouse {f : State → State} (keeps : ∀ s, (f s).tollhouse = s.tollhouse) (s a) :
    (State.barRing s a f).tollhouse = s.tollhouse := by
  simp [State.barRing, keeps]

@[simp] theorem execCtailWrite_tollhouse (n v s) :
    tollhouseAfter (execCtailWrite n v s) = some s.tollhouse := by simp [execCtailWrite]

@[simp] theorem execRheadWrite_tollhouse (n v s) :
    tollhouseAfter (execRheadWrite n v s) = some s.tollhouse := by simp [execRheadWrite]

@[simp] theorem execOheadWrite_tollhouse (m v s) :
    tollhouseAfter (execOheadWrite m v s) = some s.tollhouse := by simp [execOheadWrite]

@[simp] theorem State.rcfgWrite_tollhouse (s n v) :
    (State.rcfgWrite s n v).tollhouse = s.tollhouse := by simp [State.rcfgWrite]

@[simp] theorem State.ocfgWrite_tollhouse (s m v) :
    (State.ocfgWrite s m v).tollhouse = s.tollhouse := by simp [State.ocfgWrite]

@[simp] theorem execRingEnable_tollhouse (n v s) :
    tollhouseAfter (execRingEnable n v s) = some s.tollhouse := by simp [execRingEnable]

@[simp] theorem execRingDisable_tollhouse (n v s) :
    tollhouseAfter (execRingDisable n v s) = some s.tollhouse := by simp [execRingDisable]

@[simp] theorem execOutRingEnable_tollhouse (m v s) :
    tollhouseAfter (execOutRingEnable m v s) = some s.tollhouse := by simp [execOutRingEnable]

@[simp] theorem execOutRingDisable_tollhouse (m v s) :
    tollhouseAfter (execOutRingDisable m v s) = some s.tollhouse := by simp [execOutRingDisable]

@[simp] theorem State.replyRaw_tollhouse (s n ws) :
    (State.replyRaw s n ws).tollhouse = s.tollhouse := by simp [State.replyRaw]

@[simp] theorem State.ringError_tollhouse (s n p code cause) :
    (State.ringError s n p code cause).tollhouse = s.tollhouse := by simp [State.ringError]

@[simp] theorem State.wakeCtrl_tollhouse (s op) :
    (State.wakeCtrl s op).tollhouse = s.tollhouse := by simp [State.wakeCtrl]

@[simp] theorem State.passCommand_tollhouse (s n len) : (State.passCommand s n len).tollhouse = s.tollhouse := (rfl)

@[simp] theorem execCommandFetch_tollhouse (n bytes s) :
    tollhouseAfter (execCommandFetch n bytes s) = some s.tollhouse := by
  simp only [execCommandFetch]
  repeat' split
  all_goals simp

@[simp] theorem execNop_tollhouse (h p s) : tollhouseAfter (execNop h p s) = some s.tollhouse := by simp [execNop]

@[simp] theorem execWaitAttn_tollhouse (h p s) :
    tollhouseAfter (execWaitAttn h p s) = some s.tollhouse := by simp [execWaitAttn]

@[simp] theorem State.endWait_tollhouse (s n c changed) :
    (State.endWait s n c changed).tollhouse = s.tollhouse := by simp [State.endWait]

@[simp] theorem execWaitAttnChange_tollhouse (n s) : tollhouseAfter (execWaitAttnChange n s) = some s.tollhouse := by
  unfold execWaitAttnChange
  split <;> simp

@[simp] theorem execWaitAttnTimeout_tollhouse (n s) : tollhouseAfter (execWaitAttnTimeout n s) = some s.tollhouse := by
  unfold execWaitAttnTimeout
  split <;> simp

@[simp] theorem execIdent_tollhouse (h p s) : tollhouseAfter (execIdent h p s) = some s.tollhouse := by simp [execIdent]

@[simp] theorem execCtrlIdlePowerDown_tollhouse (s) :
    tollhouseAfter (execCtrlIdlePowerDown s) = some s.tollhouse := by simp [execCtrlIdlePowerDown]

@[simp] theorem State.putOut_tollhouse (s m b) : (State.putOut s m b).tollhouse = s.tollhouse := (rfl)

@[simp] theorem execPuntRecordWrite_tollhouse (s) : tollhouseAfter (execPuntRecordWrite s) = some s.tollhouse := by
  unfold execPuntRecordWrite
  split <;> simp

/-! ### The event log, attention and acknowledgement, and control-core machine checks -/

@[simp] theorem State.setEv_tollhouse (s e) : (State.setEv s e).tollhouse = s.tollhouse := (rfl)

@[simp] theorem State.logEnter_tollhouse (s r) :
    (State.logEnter s r).tollhouse = s.tollhouse := by simp [State.logEnter]

@[simp] theorem State.noteEvent_tollhouse (s src) : (State.noteEvent s src).tollhouse = s.tollhouse := (rfl)

@[simp] theorem State.payOwed_tollhouse (s) : (State.payOwed s).tollhouse = s.tollhouse := by simp [State.payOwed]

@[simp] theorem State.takeEvent_tollhouse (s r) :
    (State.takeEvent s r).tollhouse = s.tollhouse := by simp [State.takeEvent]

@[simp] theorem execEventLogEntry_tollhouse (s) : tollhouseAfter (execEventLogEntry s) = some s.tollhouse := by
  unfold execEventLogEntry
  split <;> simp

@[simp] theorem execEvtRead_tollhouse (h p s) : tollhouseAfter (execEvtRead h p s) = some s.tollhouse := by
  simp only [execEvtRead]
  split <;> simp

@[simp] theorem State.ackSource_tollhouse (s src) :
    (State.ackSource s src).tollhouse = s.tollhouse := by simp [State.ackSource]

@[simp] theorem execEvtAck_tollhouse (h p s) :
    tollhouseAfter (execEvtAck h p s) = some s.tollhouse := by simp [execEvtAck]

@[simp] theorem State.setMask_tollhouse (s m) : (State.setMask s m).tollhouse = s.tollhouse :=
  foldl_tollhouse (fun s _ => s.setCfgReg_tollhouse _ _) _ _

@[simp] theorem execEvtMask_tollhouse (h p s) :
    tollhouseAfter (execEvtMask h p s) = some s.tollhouse := by simp [execEvtMask]

@[simp] theorem execCoreMachineCheck_tollhouse (core journalLost s) :
    tollhouseAfter (execCoreMachineCheck core journalLost s) = some s.tollhouse := by
  simp only [execCoreMachineCheck]
  repeat' split
  all_goals simp

/-! ### Queues -/

@[simp] theorem State.setXb_tollhouse (s x) : (State.setXb s x).tollhouse = s.tollhouse := (rfl)

@[simp] theorem State.putQ_tollhouse (s q r) : (State.putQ s q r).tollhouse = s.tollhouse := (rfl)

@[simp] theorem State.unref_tollhouse (s q l) : (State.unref s q l).tollhouse = s.tollhouse := (rfl)

@[simp] theorem State.unslot_tollhouse (s slice k) : (State.unslot s slice k).tollhouse = s.tollhouse := by
  unfold State.unslot
  split <;> simp

@[simp] theorem State.restDeficits_tollhouse (s q) :
    (State.restDeficits s q).tollhouse = s.tollhouse := by simp [State.restDeficits]

@[simp] theorem State.leaveQ_tollhouse (s q e) : (State.leaveQ s q e).tollhouse = s.tollhouse := by
  unfold State.leaveQ
  split <;> simp

@[simp] theorem State.qcount_tollhouse (s q idx len) : (State.qcount s q idx len).tollhouse = s.tollhouse := by
  unfold State.qcount
  split <;> simp

@[simp] theorem State.dropQ_tollhouse (s q idx e) :
    (State.dropQ s q idx e).tollhouse = s.tollhouse := by simp [State.dropQ]

@[simp] theorem State.ramp_tollhouse (s slice x emin emax pmax) :
    (State.ramp s slice x emin emax pmax).2.tollhouse = s.tollhouse := by
  simp [State.ramp]

@[simp] theorem State.ecn_tollhouse (s q mode x) : (State.ecn s q mode x).2.tollhouse = s.tollhouse := by
  simp only [State.ecn]
  split <;> simp

@[simp] theorem State.dropAged_tollhouse (s q e) : (State.dropAged s q e).tollhouse = s.tollhouse := by
  unfold State.dropAged
  split <;> simp

@[simp] theorem State.decide_tollhouse (s q p) : (State.decide s q p).2.tollhouse = s.tollhouse := by
  simp only [State.decide]
  repeat' split
  all_goals simp

@[simp] theorem State.admCount_tollhouse (s q len a) : (State.admCount s q len a).tollhouse = s.tollhouse := by
  unfold State.admCount
  split <;> simp

@[simp] theorem State.tierCfgWrite_tollhouse (s v) : (State.tierCfgWrite s v).tollhouse = s.tollhouse := (rfl)

theorem State.enqueue_tollhouse {s q n bad p slot copy ce t} (h : State.enqueue s q n bad p slot copy ce = some t) :
    t.tollhouse = s.tollhouse := by
  have kept := State.allocMany_tollhouse (sliceOfQ q) (bits (s.prof q 0) 7 4 % 8)
    (newBerths n ((s.qrun q).roll s.mono).fill) bad [] s
  simp only [State.enqueue] at h
  split at h
  · cases h
  next eq =>
    rw [eq] at kept
    cases h
    simpa using kept

@[simp] theorem State.enqueueFail_tollhouse (s q n bad) :
    (State.enqueueFail s q n bad).tollhouse = s.tollhouse := by simp [State.enqueueFail]

@[simp] theorem State.admitUni_tollhouse (s p bad) : (State.admitUni s p bad).tollhouse = s.tollhouse := by
  have kept := s.decide_tollhouse p.queue p
  simp only [State.admitUni]
  split
  next eq =>
    rw [eq] at kept
    split
    next queued =>
      have kept := (State.enqueue_tollhouse queued).trans kept
      split
      · split <;> simpa using kept
      · exact kept
    · simpa using kept
  next eq => rw [eq] at kept; simpa using kept

@[simp] theorem State.tally_tollhouse (s pid slice ok bad) :
    (State.tally s pid slice ok bad).tollhouse = s.tollhouse := by
  unfold State.tally
  split <;> simp

@[simp] theorem State.decideCopies_tollhouse (p group replBad es l s) :
    (State.decideCopies p group replBad es l s).2.tollhouse = s.tollhouse := by
  induction es generalizing l s with
  | nil => rfl
  | cons x es ih =>
    have kept := State.decide_tollhouse s x.2.queue (copyOf p x.2)
    unfold State.decideCopies
    split
    · simp [ih]
    · split
      next eq => rw [eq] at kept; simpa [ih] using kept
      next eq => rw [eq] at kept; simpa [ih] using kept

@[simp] theorem State.refCopies_tollhouse (p k es n s) :
    (State.refCopies p k es n s).2.tollhouse = s.tollhouse := by
  induction es generalizing n s with
  | nil => rfl
  | cons x es ih =>
    unfold State.refCopies
    split
    next queued => rw [ih, State.enqueue_tollhouse queued]
    · simp [ih]

@[simp] theorem State.admitMc_tollhouse (s slice p bad replBad) :
    (State.admitMc s slice p bad replBad).tollhouse = s.tollhouse := by
  simp only [State.admitMc]
  split
  · rfl
  next t _ =>
    have decided := State.decideCopies_tollhouse p t.group replBad (copiesIn slice t.list) [] s
    split
    · simp
    · split
      · simp
      · split
        next k _ _ eq =>
          have alloc := congrArg (fun x => x.2.tollhouse) eq
          simp only [State.allocMany_tollhouse, decided] at alloc
          simp [alloc]
        next k _ _ _ eq =>
          have alloc := congrArg (fun x => x.2.tollhouse) eq
          simp only [State.allocMany_tollhouse, decided] at alloc
          simp [alloc]

@[simp] theorem execQueueAdmit_tollhouse (slice badPops replBad s) :
    tollhouseAfter (execQueueAdmit slice badPops replBad s) = some s.tollhouse := by
  unfold execQueueAdmit
  split <;> simp

@[simp] theorem State.ageBodies_tollhouse (s q) : (State.ageBodies s q).tollhouse = s.tollhouse := (rfl)

@[simp] theorem execPromoAgeExpire_tollhouse (q s) :
    tollhouseAfter (execPromoAgeExpire q s) = some s.tollhouse := by simp [execPromoAgeExpire]

@[simp] theorem State.promoteBody_tollhouse (s q k x bad) : (State.promoteBody s q k x bad).tollhouse = s.tollhouse := by
  simp only [State.promoteBody]
  split
  next eq =>
    have alloc := congrArg (fun x => x.2.tollhouse) eq
    simp only [State.allocMany_tollhouse] at alloc
    simp [alloc]
  next eq =>
    have alloc := congrArg (fun x => x.2.tollhouse) eq
    simp only [State.allocMany_tollhouse] at alloc
    simp [alloc]

@[simp] theorem execPromotionWrite_tollhouse (q badPops s) :
    tollhouseAfter (execPromotionWrite q badPops s) = some s.tollhouse := by
  unfold execPromotionWrite
  extract_lets r parts used
  have popped := s.allocBerth_tollhouse (sliceOfQ q) (bits (s.prof q 0) 3 0) badPops
  split
  · split <;> simp
  · split
    next eq => rw [eq] at popped; simpa using popped
    next eq => rw [eq] at popped; simpa using popped

@[simp] theorem execPromotionWriteComplete_tollhouse (q s) :
    tollhouseAfter (execPromotionWriteComplete q s) = some s.tollhouse := by
  simp only [execPromotionWriteComplete]
  split <;> simp

@[simp] theorem State.dropBerth_tollhouse (s q b idx) :
    (State.dropBerth s q b idx).tollhouse = s.tollhouse := by simp [State.dropBerth]

@[simp] theorem State.berthBad_tollhouse (s q b) :
    (State.berthBad s q b).tollhouse = s.tollhouse := by simp [State.berthBad]

@[simp] theorem State.linkLost_tollhouse (s q b) : (State.linkLost s q b).tollhouse = s.tollhouse := by
  simp only [State.linkLost, State.post_tollhouse, State.restDeficits_tollhouse]
  rw [foldl_tollhouse (by simp), State.unref_tollhouse, State.putQ_tollhouse, foldl_tollhouse]
  intro s e
  split <;> simp

@[simp] theorem execBerthStagingRead_tollhouse (q data trailer s) :
    tollhouseAfter (execBerthStagingRead q data trailer s) = some s.tollhouse := by
  simp only [execBerthStagingRead]
  split <;> simp

@[simp] theorem State.flushWhere_tollhouse (s idx f) : (State.flushWhere s idx f).2.tollhouse = s.tollhouse := by
  simp [State.flushWhere]

@[simp] theorem execPortFlushComplete_tollhouse (node s) :
    tollhouseAfter (execPortFlushComplete node s) = some s.tollhouse := by simp [execPortFlushComplete]

@[simp] theorem State.ageHead_tollhouse (q n s) : (State.ageHead q n s).tollhouse = s.tollhouse := by
  induction n generalizing s with
  | zero => rfl
  | succ n ih =>
    unfold State.ageHead
    split
    · split <;> simp [ih]
    · rfl

@[simp] theorem execQueueSamplerVisit_tollhouse (q s) :
    tollhouseAfter (execQueueSamplerVisit q s) = some s.tollhouse := by simp [execQueueSamplerVisit]

@[simp] theorem State.tailArrives_tollhouse (s id bad) :
    (State.tailArrives s id bad).tollhouse = s.tollhouse := by simp [State.tailArrives]

@[simp] theorem execTailStatusReceive_tollhouse (id bad s) :
    tollhouseAfter (execTailStatusReceive id bad s) = some s.tollhouse := by simp [execTailStatusReceive]

@[simp] theorem State.restStored_tollhouse (s p id) : (State.restStored s p id).tollhouse = s.tollhouse := by
  simp only [State.restStored]
  repeat' split
  all_goals simp

@[simp] theorem State.restLost_tollhouse (s q id) : (State.restLost s q id).tollhouse = s.tollhouse := by
  unfold State.restLost
  split <;> simp

@[simp] theorem State.queueCfgRun_tollhouse (s h p) :
    (State.queueCfgRun s h p).tollhouse = s.tollhouse := by simp [State.queueCfgRun]

@[simp] theorem execQueueCfg_tollhouse (h p s) :
    tollhouseAfter (execQueueCfg h p s) = some s.tollhouse := by simp [execQueueCfg]

@[simp] theorem execQueueStat_tollhouse (h p s) :
    tollhouseAfter (execQueueStat h p s) = some s.tollhouse := by simp [execQueueStat]

@[simp] theorem execMcGroupSet_tollhouse (h p s) :
    tollhouseAfter (execMcGroupSet h p s) = some s.tollhouse := by simp [execMcGroupSet]

@[simp] theorem execMcGroupRead_tollhouse (h p s) :
    tollhouseAfter (execMcGroupRead h p s) = some s.tollhouse := by simp [execMcGroupRead]

theorem execDomainWakeComplete_keepsOn (dom s) : KeepsOn s (execDomainWakeComplete dom s) := by
  by_cases zero : dom.val = 0
  · by_cases waking : s.domain 0 = 3
    · have off : s.tollhouse ≠ 0 := by rw [← s.domain_zero, waking]; decide
      simp only [execDomainWakeComplete]
      repeat' split
      all_goals exact keepsOn_next fun on => absurd on off
    · have idle : execDomainWakeComplete dom s = .next s := by simp [execDomainWakeComplete, zero, waking]
      exact idle ▸ keepsOn_next id
  · apply keepsOn_of_tollhouseAfter
    simp only [execDomainWakeComplete]
    repeat' split
    all_goals simp [zero]

/-! ### The scheduler -/

theorem State.spin_tollhouse {kind turn all n l s r} (h : State.spin kind turn all n l s = some r) :
    r.2.tollhouse = s.tollhouse := by
  induction n generalizing l s with
  | zero => cases h
  | succ n ih =>
    cases l with
    | nil => exact ih h
    | cons c l =>
      simp only [State.spin] at h
      split at h
      · cases h; simp
      · rw [ih h]; simp

theorem State.choose_tollhouse {s kind parent cs r} (h : State.choose s kind parent cs = some r) :
    r.2.tollhouse = s.tollhouse := by
  simp only [State.choose] at h
  split at h
  · cases h
  · split at h
    · cases h; rfl
    · exact State.spin_tollhouse h

theorem State.pick_tollhouse {s node l r} (h : State.pick s node l = some r) : r.2.2.2.2.tollhouse = s.tollhouse := by
  simp only [State.pick] at h
  split at h
  · cases h
  next chan =>
    split at h
    · cases h
    next group =>
      split at h
      · cases h
      next queue =>
        obtain ⟨_, -, rfl⟩ := Option.map_eq_some_iff.mp h
        exact (State.choose_tollhouse queue).trans ((State.choose_tollhouse group).trans (State.choose_tollhouse chan))

@[simp] theorem State.chargeAll_tollhouse (s node c g q len) : (State.chargeAll s node c g q len).tollhouse = s.tollhouse := by
  simp only [State.chargeAll, State.restDeficits_tollhouse, State.charge_tollhouse, State.putDeficit_tollhouse]

@[simp] theorem State.toEgress_tollhouse (s node c q e ce) :
    (State.toEgress s node c q e ce).tollhouse = s.tollhouse := by simp [State.toEgress]

@[simp] theorem State.release_tollhouse (s node c g q e ce) : (State.release s node c g q e ce).tollhouse = s.tollhouse := by
  simp only [State.release, State.timetable_tollhouse, State.chargeAll_tollhouse, State.leaveQ_tollhouse,
    State.putPnode_tollhouse, State.toEgress_tollhouse, State.putQ_tollhouse, State.count_tollhouse, State.bump_tollhouse]

@[simp] theorem State.slotBad_tollhouse (s q k x) :
    (State.slotBad s q k x).tollhouse = s.tollhouse := by simp [State.slotBad]

@[simp] theorem State.bodyBad_tollhouse (s slice k x i) : (State.bodyBad s slice k x i).tollhouse = s.tollhouse := by
  unfold State.bodyBad
  split <;> simp

@[simp] theorem State.dequeue_tollhouse (s node c g q e read) :
    (State.dequeue s node c g q e read).tollhouse = s.tollhouse := by
  simp only [State.dequeue]
  split <;> simp

@[simp] theorem State.nodeLost_tollhouse (s kind n) : (State.nodeLost s kind n).tollhouse = s.tollhouse := (rfl)

@[simp] theorem execSchedRelease_tollhouse (node low read lost s) :
    tollhouseAfter (execSchedRelease node low read lost s) = some s.tollhouse := by
  unfold execSchedRelease
  extract_lets u p
  have after : u.tollhouse = s.tollhouse := by
    unfold u
    split <;> simp
  split
  · exact congrArg some after
  · split
    · exact congrArg some after
    next picked =>
      rw [tollhouseAfter_next, State.dequeue_tollhouse]
      exact congrArg some ((State.pick_tollhouse picked).trans after)

/-! ### The crossbar -/

@[simp] theorem State.setFab_tollhouse (s f) : (State.setFab s f).tollhouse = s.tollhouse := (rfl)

@[simp] theorem State.pushCell_tollhouse (s k) : (State.pushCell s k).tollhouse = s.tollhouse := by
  unfold State.pushCell
  split <;> simp

@[simp] theorem State.packChunks_tollhouse (s i c outs k pid n idx) :
    (State.packChunks s i c outs k pid n idx).tollhouse = s.tollhouse := by
  induction n generalizing s idx with
  | zero => rfl
  | succ n ih => simp [State.packChunks, ih]

@[simp] theorem State.sendX_tollhouse (s i c outs p list) :
    (State.sendX s i c outs p list).tollhouse = s.tollhouse := by
  unfold State.sendX
  split <;> simp

@[simp] theorem State.sendLocal_tollhouse (s i p) :
    (State.sendLocal s i p).tollhouse = s.tollhouse := by simp [State.sendLocal]

@[simp] theorem State.sendFabric_tollhouse (s i p mapBad) :
    (State.sendFabric s i p mapBad).tollhouse = s.tollhouse := by simp [State.sendFabric]

@[simp] theorem State.intoXbar_tollhouse (s x) :
    (State.intoXbar s x).tollhouse = s.tollhouse := by simp [State.intoXbar]

@[simp] theorem State.deliverD2d_tollhouse (s x) :
    (State.deliverD2d s x).tollhouse = s.tollhouse := by simp [State.deliverD2d]

@[simp] theorem State.unstall_tollhouse (slice l s) : (State.unstall slice l s).tollhouse = s.tollhouse := by
  induction l generalizing s with
  | nil => rfl
  | cons x l ih =>
    unfold State.unstall
    split <;> simp [ih]

@[simp] theorem State.putOrder_tollhouse (s slice r) : (State.putOrder s slice r).tollhouse = s.tollhouse := (rfl)

@[simp] theorem State.orderDrain_tollhouse (slice n s) : (State.orderDrain slice n s).tollhouse = s.tollhouse := by
  induction n generalizing s with
  | zero => rfl
  | succ n ih =>
    simp only [State.orderDrain]
    split <;> simp [ih]

@[simp] theorem execIngressDescriptorReceive_tollhouse (desc data tail mapBad s) :
    tollhouseAfter (execIngressDescriptorReceive desc data tail mapBad s) = some s.tollhouse :=
  by simp [execIngressDescriptorReceive]

@[simp] theorem execD2dGapTimeout_tollhouse (slice s) :
    tollhouseAfter (execD2dGapTimeout slice s) = some s.tollhouse := by
  simp only [execD2dGapTimeout]
  repeat' split
  all_goals simp

@[simp] theorem execXbarPackTimeout_tollhouse (input out cls s) :
    tollhouseAfter (execXbarPackTimeout input out cls s) = some s.tollhouse := by
  simp only [execXbarPackTimeout]
  split <;> simp

@[simp] theorem execXbarMcAge_tollhouse (input s) : tollhouseAfter (execXbarMcAge input s) = some s.tollhouse := (rfl)

@[simp] theorem State.putFlink_tollhouse (s l x) : (State.putFlink s l x).tollhouse = s.tollhouse := (rfl)

@[simp] theorem State.owe_tollhouse (s link cls) : (State.owe s link cls).tollhouse = s.tollhouse := (rfl)

@[simp] theorem State.landReady_tollhouse (l s) : (State.landReady l s).tollhouse = s.tollhouse := by
  induction l generalizing s with
  | nil => rfl
  | cons x l ih => simp [State.landReady, ih]

@[simp] theorem execXbarMatching_tollhouse (s) :
    tollhouseAfter (execXbarMatching s) = some s.tollhouse := by simp [execXbarMatching]

@[simp] theorem State.crossed_tollhouse (s out cls pid) : (State.crossed s out cls pid).tollhouse = s.tollhouse := by
  unfold State.crossed
  split <;> simp

@[simp] theorem State.crossedEarly_tollhouse (s out pid f) :
    (State.crossedEarly s out pid f).tollhouse = s.tollhouse := (rfl)

@[simp] theorem State.crossedRest_tollhouse (s out pid f) :
    (State.crossedRest s out pid f).tollhouse = s.tollhouse := by simp [State.crossedRest]

@[simp] theorem State.xlost_tollhouse (s out pid) : (State.xlost s out pid).tollhouse = s.tollhouse := by
  unfold State.xlost
  split <;> simp

@[simp] theorem State.takeChunk_tollhouse (s out c k ch) : (State.takeChunk s out c k ch).tollhouse = s.tollhouse := by
  unfold State.takeChunk
  split <;> simp

@[simp] theorem execXbarCellReceive_tollhouse (out headerOk s) :
    tollhouseAfter (execXbarCellReceive out headerOk s) = some s.tollhouse := by
  unfold execXbarCellReceive
  split <;> simp

/-! ### The fabric interface and the landing stage -/

@[simp] theorem State.linkOut_tollhouse (s l) : (State.linkOut s l).tollhouse = s.tollhouse := by simp [State.linkOut]

@[simp] theorem State.linksFell_tollhouse (before s) :
    (State.linksFell before s).tollhouse = s.tollhouse := by simp [State.linksFell]

@[simp] theorem State.linkLeaves_tollhouse (s l) :
    (State.linkLeaves s l).tollhouse = s.tollhouse := by simp [State.linkLeaves]

@[simp] theorem execFabricLinkService_tollhouse (link s) :
    tollhouseAfter (execFabricLinkService link s) = some s.tollhouse := by simp [execFabricLinkService]

@[simp] theorem execFabricStopExpire_tollhouse (link k s) :
    tollhouseAfter (execFabricStopExpire link k s) = some s.tollhouse := by
  simp only [execFabricStopExpire]
  split <;> simp

@[simp] theorem State.landCount_tollhouse (s n k) : (State.landCount s n k).tollhouse = s.tollhouse := (rfl)

@[simp] theorem State.dupEvict_tollhouse (s) : (State.dupEvict s).tollhouse = s.tollhouse := by
  simp only [State.dupEvict]
  repeat' split
  all_goals simp

@[simp] theorem State.land_tollhouse (s g p) : (State.land s g p).tollhouse = s.tollhouse := by simp [State.land]

@[simp] theorem State.landDrop_tollhouse (s p) : (State.landDrop s p).tollhouse = s.tollhouse := by
  unfold State.landDrop
  split <;> simp

@[simp] theorem State.dupCheck_tollhouse (s g p) : (State.dupCheck s g p).tollhouse = s.tollhouse := by
  simp only [State.dupCheck]
  repeat' split
  all_goals simp

@[simp] theorem State.putCtx_tollhouse (s k c) : (State.putCtx s k c).tollhouse = s.tollhouse := (rfl)

@[simp] theorem State.partDone_tollhouse (s g part bad) :
    (State.partDone s g part bad).tollhouse = s.tollhouse := by simp [State.partDone]

@[simp] theorem State.chunks_tollhouse (g src c n i part s) :
    (State.chunks g src c n i part s).2.tollhouse = s.tollhouse := by
  induction n generalizing i part s with
  | zero => rfl
  | succ n ih =>
    simp only [State.chunks]
    split
    · split <;> simp [ih]
    · split <;> simp [ih]

@[simp] theorem State.reassemble_tollhouse (s link key c) :
    (State.reassemble s link key c).tollhouse = s.tollhouse := by simp [State.reassemble]

@[simp] theorem State.giveBack_tollhouse (s g cls links) :
    (State.giveBack s g cls links).tollhouse = s.tollhouse := by simp [State.giveBack]

@[simp] theorem State.passCell_tollhouse (s link key c) : (State.passCell s link key c).tollhouse = s.tollhouse := by
  simp only [State.passCell]
  split <;> simp

@[simp] theorem State.dropPart_tollhouse (s key g cls) :
    (State.dropPart s key g cls).tollhouse = s.tollhouse := by simp [State.dropPart]

@[simp] theorem State.ctxDrain_tollhouse (key n s) : (State.ctxDrain key n s).tollhouse = s.tollhouse := by
  induction n generalizing s with
  | zero => rfl
  | succ n ih =>
    simp only [State.ctxDrain]
    split <;> simp [ih]

@[simp] theorem State.skipGap_tollhouse (s key src g cls) :
    (State.skipGap s key src g cls).tollhouse = s.tollhouse := by
  simp only [State.skipGap]
  split <;> simp

@[simp] theorem State.toContext_tollhouse (s link c) : (State.toContext s link c).tollhouse = s.tollhouse := by
  simp only [State.toContext]
  split <;> simp

@[simp] theorem State.stopMap_tollhouse (s link payload) :
    (State.stopMap s link payload).tollhouse = s.tollhouse := (rfl)

@[simp] theorem State.goodCell_tollhouse (s link c) :
    (State.goodCell s link c).tollhouse = s.tollhouse := by simp [State.goodCell]

@[simp] theorem execFabricCellReceive_tollhouse (link head payload s) :
    tollhouseAfter (execFabricCellReceive link head payload s) = some s.tollhouse := by simp [execFabricCellReceive]

@[simp] theorem execLandingGapTimeout_tollhouse (src g cls dest s) :
    tollhouseAfter (execLandingGapTimeout src g cls dest s) = some s.tollhouse := by simp [execLandingGapTimeout]

@[simp] theorem execLandingContextFree_tollhouse (src g cls dest s) :
    tollhouseAfter (execLandingContextFree src g cls dest s) = some s.tollhouse := by
  simp only [execLandingContextFree]
  split <;> simp

@[simp] theorem execDupEntryExpire_tollhouse (ssid osrc man s) :
    tollhouseAfter (execDupEntryExpire ssid osrc man s) = some s.tollhouse := by
  simp only [execDupEntryExpire]
  split <;> simp

@[simp] theorem State.sendCell_tollhouse (s g cls dest link cs) :
    (State.sendCell s g cls dest link cs).tollhouse = s.tollhouse := by
  simp only [State.sendCell, State.count_tollhouse, State.setFab_tollhouse, State.putFlink_tollhouse]

@[simp] theorem State.sendIdle_tollhouse (s g) : (State.sendIdle s g).tollhouse = s.tollhouse := by
  unfold State.sendIdle
  split <;> simp

@[simp] theorem execFabricCellTransmit_tollhouse (g s) :
    tollhouseAfter (execFabricCellTransmit g s) = some s.tollhouse := by
  simp only [execFabricCellTransmit]
  split <;> simp

@[simp] theorem execFabQmapSet_tollhouse (h p s) :
    tollhouseAfter (execFabQmapSet h p s) = some s.tollhouse := by simp [execFabQmapSet]

@[simp] theorem execFabQmapRead_tollhouse (h p s) :
    tollhouseAfter (execFabQmapRead h p s) = some s.tollhouse := by simp [execFabQmapRead]

/-! ### The HBM stacks, the persistent store, checkpoints, spares and the life log -/

@[simp] theorem State.putStack_tollhouse (s m k) : (State.putStack s m k).tollhouse = s.tollhouse := (rfl)

@[simp] theorem execHbmRefreshWindow_tollhouse (m pc bank issued s) :
    tollhouseAfter (execHbmRefreshWindow m pc bank issued s) = some s.tollhouse := by simp [execHbmRefreshWindow]

@[simp] theorem State.losePc_tollhouse (s m pc cause) : (State.losePc s m pc cause).tollhouse = s.tollhouse := by
  simp only [State.losePc]
  split <;> simp

@[simp] theorem State.pcFails_tollhouse (s m pc cause) : (State.pcFails s m pc cause).tollhouse = s.tollhouse := by
  simp only [State.pcFails]
  repeat' split
  all_goals simp

@[simp] theorem execHbmPcSwap_tollhouse (m s) : tollhouseAfter (execHbmPcSwap m s) = some s.tollhouse := by
  simp only [execHbmPcSwap]
  split <;> simp

@[simp] theorem State.redirect_tollhouse (s m pc row cause) :
    (State.redirect s m pc row cause).tollhouse = s.tollhouse := by simp [State.redirect]

@[simp] theorem State.rowFails_tollhouse (s m pc row) :
    (State.rowFails s m pc row).tollhouse = s.tollhouse := by simp [State.rowFails]

@[simp] theorem execHbmRedirectComplete_tollhouse (m pc row s) :
    tollhouseAfter (execHbmRedirectComplete m pc row s) = some s.tollhouse := by simp [execHbmRedirectComplete]

@[simp] theorem State.ckptFails_tollhouse (s cause) : (State.ckptFails s cause).tollhouse = s.tollhouse := by
  unfold State.ckptFails
  split <;> simp

@[simp] theorem State.heldError_tollhouse (s region) :
    (State.heldError s region).tollhouse = s.tollhouse := by simp [State.heldError]

@[simp] theorem State.regionError_tollhouse (s region) :
    (State.regionError s region).tollhouse = s.tollhouse := by simp [State.regionError]

@[simp] theorem State.lineRead_tollhouse (s m pc row region found) :
    (State.lineRead s m pc row region found).tollhouse = s.tollhouse := by
  unfold State.lineRead
  split <;> simp

@[simp] theorem execFlowCounterWrite_tollhouse (m pc row found s) :
    tollhouseAfter (execFlowCounterWrite m pc row found s) = some s.tollhouse := by simp [execFlowCounterWrite]

@[simp] theorem execHbmPatrolScrub_tollhouse (m pc row region found s) :
    tollhouseAfter (execHbmPatrolScrub m pc row region found s) = some s.tollhouse := by simp [execHbmPatrolScrub]

@[simp] theorem State.hardRepair_tollhouse (s m pc row) :
    (State.hardRepair s m pc row).tollhouse = s.tollhouse := by simp [State.hardRepair]

@[simp] theorem State.trainStacks_tollhouse (s l) :
    (State.trainStacks s l).tollhouse = s.tollhouse := by simp [State.trainStacks]

@[simp] theorem State.hardRepairs_tollhouse (s) : (State.hardRepairs s).tollhouse = s.tollhouse := by
  refine foldl_tollhouse (fun s m => foldl_tollhouse (fun s p => ?_) _ s) _ s
  split
  · rfl
  · exact foldl_tollhouse (by simp) _ s

@[simp] theorem State.retireBlock_tollhouse (s block cause) :
    (State.retireBlock s block cause).tollhouse = s.tollhouse := by simp [State.retireBlock]

@[simp] theorem execStoreBlockRetire_tollhouse (block s) :
    tollhouseAfter (execStoreBlockRetire block s) = some s.tollhouse := by simp [execStoreBlockRetire]

@[simp] theorem State.rewriteBlock_tollhouse (s block) : (State.rewriteBlock s block).tollhouse = s.tollhouse := (rfl)

@[simp] theorem execRetentionPass_tollhouse (block corrections s) :
    tollhouseAfter (execRetentionPass block corrections s) = some s.tollhouse := by simp [execRetentionPass]

@[simp] theorem execRetentionProgressLog_tollhouse (s) :
    tollhouseAfter (execRetentionProgressLog s) = some s.tollhouse := by simp [execRetentionProgressLog]

@[simp] theorem State.wear_tollhouse (s region kib) : (State.wear s region kib).tollhouse = s.tollhouse := (rfl)

@[simp] theorem execPersistentCountersWrite_tollhouse (s) :
    tollhouseAfter (execPersistentCountersWrite s) = some s.tollhouse := by simp [execPersistentCountersWrite]

@[simp] theorem execJournalBucketRefill_tollhouse (s) :
    tollhouseAfter (execJournalBucketRefill s) = some s.tollhouse := by simp [execJournalBucketRefill]

@[simp] theorem execStoreCheckpoint_tollhouse (h p s) :
    tollhouseAfter (execStoreCheckpoint h p s) = some s.tollhouse := by simp [execStoreCheckpoint]

@[simp] theorem execCheckpointInstant_tollhouse (kib s) :
    tollhouseAfter (execCheckpointInstant kib s) = some s.tollhouse := by
  unfold execCheckpointInstant
  split <;> simp

@[simp] theorem execCheckpointComplete_tollhouse (fail s) :
    tollhouseAfter (execCheckpointComplete fail s) = some s.tollhouse := by
  simp only [execCheckpointComplete]
  repeat' split
  all_goals simp

@[simp] theorem State.cutCkpt_tollhouse (s) : (State.cutCkpt s).tollhouse = s.tollhouse := (rfl)

@[simp] theorem execLifeLogWrite_tollhouse (s) : tollhouseAfter (execLifeLogWrite s) = some s.tollhouse := by
  unfold execLifeLogWrite
  split <;> simp

@[simp] theorem execLifeRead_tollhouse (h p s) :
    tollhouseAfter (execLifeRead h p s) = some s.tollhouse := by simp [execLifeRead]

@[simp] theorem execMemHealth_tollhouse (h p s) :
    tollhouseAfter (execMemHealth h p s) = some s.tollhouse := by simp [execMemHealth]

@[simp] theorem State.spareApply_tollhouse (s kind slice unit row t) :
    ((State.spareApply s kind slice unit row).2 t).1.tollhouse = t.tollhouse := by
  unfold State.spareApply
  dsimp only
  split <;> simp

@[simp] theorem execSpareApply_tollhouse (h p s) : tollhouseAfter (execSpareApply h p s) = some s.tollhouse := by
  simp only [execSpareApply]
  split <;> simp

/-! ### Firmware images -/

@[simp] theorem State.setFw_tollhouse (s f) : (State.setFw s f).tollhouse = s.tollhouse := (rfl)

@[simp] theorem State.putImage_tollhouse (s k i) : (State.putImage s k i).tollhouse = s.tollhouse := (rfl)

@[simp] theorem State.putSession_tollhouse (s o x) : (State.putSession s o x).tollhouse = s.tollhouse := (rfl)

@[simp] theorem State.slipSend_tollhouse (s type sess ofs value) :
    (State.slipSend s type sess ofs value).tollhouse = s.tollhouse := (rfl)

@[simp] theorem State.slipAnswer_tollhouse (s type sess cause) :
    (State.slipAnswer s type sess cause).tollhouse = s.tollhouse := (rfl)

@[simp] theorem execFwVerifyComplete_tollhouse (img fails patches s) :
    tollhouseAfter (execFwVerifyComplete img fails patches s) = some s.tollhouse := by
  simp only [execFwVerifyComplete]
  repeat' split
  all_goals simp

@[simp] theorem State.emptyImage_tollhouse (s k st) : (State.emptyImage s k st).tollhouse = s.tollhouse := (rfl)

@[simp] theorem State.growImage_tollhouse (s k x) : (State.growImage s k x).tollhouse = s.tollhouse := (rfl)

@[simp] theorem State.armPort_tollhouse (s) : (State.armPort s).tollhouse = s.tollhouse := by simp [State.armPort]

@[simp] theorem execFwStage_tollhouse (h p data s) : tollhouseAfter (execFwStage h p data s) = some s.tollhouse := by
  refine congrArg some (runCommand_tollhouse (fun s => ?_) ..)
  dsimp only
  split
  · split <;> simp
  · split <;> simp
  · split <;> simp
  · simp

@[simp] theorem execFwStageTimeout_tollhouse (obj s) :
    tollhouseAfter (execFwStageTimeout obj s) = some s.tollhouse := by
  unfold execFwStageTimeout
  split <;> simp

@[simp] theorem State.judgeFloor_tollhouse (s k) :
    (State.judgeFloor s k).tollhouse = s.tollhouse := by simp [State.judgeFloor]

@[simp] theorem execFwVerify_tollhouse (h p s) : tollhouseAfter (execFwVerify h p s) = some s.tollhouse := by
  simp only [execFwVerify]
  repeat' split
  all_goals simp

@[simp] theorem State.activateAt_tollhouse (s o k t) : (State.activateAt s o k t).tollhouse = s.tollhouse := by
  simp only [State.activateAt]
  repeat' split
  all_goals simp

@[simp] theorem State.cancelActivation_tollhouse (s o) : (State.cancelActivation s o).tollhouse = s.tollhouse := by
  unfold State.cancelActivation
  split <;> simp

@[simp] theorem execFwActivateAt_tollhouse (h p s) : tollhouseAfter (execFwActivateAt h p s) = some s.tollhouse := by
  simp only [execFwActivateAt]
  repeat' split
  all_goals simp

@[simp] theorem State.ctrlReset_tollhouse (s) : (State.ctrlReset s).tollhouse = s.tollhouse := by simp [State.ctrlReset]

@[simp] theorem State.revertTrial_tollhouse (s st why) : (State.revertTrial s st why).tollhouse = s.tollhouse := (rfl)

@[simp] theorem execFwRollback_tollhouse (h p s) : tollhouseAfter (execFwRollback h p s) = some s.tollhouse := by
  simp only [execFwRollback]
  repeat' split
  all_goals simp

@[simp] theorem execRolloutStart_tollhouse (s) : tollhouseAfter (execRolloutStart s) = some s.tollhouse := by
  unfold execRolloutStart
  split <;> simp

@[simp] theorem State.restartLoads_tollhouse (s) :
    (State.restartLoads s).tollhouse = s.tollhouse := by simp [State.restartLoads]

@[simp] theorem execControlRestart_tollhouse (s) : tollhouseAfter (execControlRestart s) = some s.tollhouse := by
  simp only [execControlRestart]
  split
  · split
    · rfl
    · split
      · simp
      · simp only [tollhouseAfter_next, State.restartLoads_tollhouse, State.setFw_tollhouse]
        rw [foldl_tollhouse]
        intro s n
        split <;> simp
  · rfl

@[simp] theorem execControlRestartQuiesceTimeout_tollhouse (s) :
    tollhouseAfter (execControlRestartQuiesceTimeout s) = some s.tollhouse := by simp [execControlRestartQuiesceTimeout]

@[simp] theorem State.takeRings_tollhouse (s) : (State.takeRings s).tollhouse = s.tollhouse := (rfl)

@[simp] theorem execControlRestartComplete_tollhouse (s) :
    tollhouseAfter (execControlRestartComplete s) = some s.tollhouse := by
  simp only [execControlRestartComplete]
  split <;> simp

@[simp] theorem execControlRestartFallback_tollhouse (s) :
    tollhouseAfter (execControlRestartFallback s) = some s.tollhouse := by
  simp only [execControlRestartFallback]
  split <;> simp

@[simp] theorem execPatchList_tollhouse (h p s) :
    tollhouseAfter (execPatchList h p s) = some s.tollhouse := by simp [execPatchList]

@[simp] theorem State.slipLink_tollhouse (s) : (State.slipLink s).tollhouse = s.tollhouse := (rfl)

@[simp] theorem execSlipwayOffer_tollhouse (msg fails s) :
    tollhouseAfter (execSlipwayOffer msg fails s) = some s.tollhouse := by
  simp only [execSlipwayOffer]
  repeat' split
  all_goals simp

@[simp] theorem State.slipAck_tollhouse (s o x) : (State.slipAck s o x).tollhouse = s.tollhouse := (rfl)

@[simp] theorem execSlipwayData_tollhouse (msg s) : tollhouseAfter (execSlipwayData msg s) = some s.tollhouse := by
  simp only [execSlipwayData]
  split <;> simp

@[simp] theorem execSlipwayDone_tollhouse (msg s) : tollhouseAfter (execSlipwayDone msg s) = some s.tollhouse := by
  simp only [execSlipwayDone]
  split <;> simp

@[simp] theorem execSlipwayAckTimer_tollhouse (s) : tollhouseAfter (execSlipwayAckTimer s) = some s.tollhouse := by
  unfold execSlipwayAckTimer
  split <;> simp

@[simp] theorem execSlipwayArp_tollhouse (mac senderIp targetIp s) :
    tollhouseAfter (execSlipwayArp mac senderIp targetIp s) = some s.tollhouse := by simp [execSlipwayArp]

@[simp] theorem execSlipwayIcmpEcho_tollhouse (mac sourceIp destIp data s) :
    tollhouseAfter (execSlipwayIcmpEcho mac sourceIp destIp data s) = some s.tollhouse := by simp [execSlipwayIcmpEcho]

/-! ### Line ports -/

@[simp] theorem State.putLane_tollhouse (s l x) : (State.putLane s l x).tollhouse = s.tollhouse := (rfl)

@[simp] theorem State.defectIn_tollhouse (s p n ev) : (State.defectIn s p n ev).tollhouse = s.tollhouse := (rfl)

@[simp] theorem State.markStop_tollhouse (s p) : (State.markStop s p).tollhouse = s.tollhouse := (rfl)

@[simp] theorem State.markStops_tollhouse (s l) :
    (State.markStops s l).tollhouse = s.tollhouse := by simp [State.markStops]

@[simp] theorem State.gpartIn_tollhouse (s g) : (State.gpartIn s g).tollhouse = s.tollhouse := by simp [State.gpartIn]

@[simp] theorem State.glosIn_tollhouse (s g) : (State.glosIn s g).tollhouse = s.tollhouse := by simp [State.glosIn]

@[simp] theorem State.stopReading_tollhouse (s g) :
    (State.stopReading s g).tollhouse = s.tollhouse := by simp [State.stopReading]

@[simp] theorem State.groupJudge_tollhouse (s g) : (State.groupJudge s g).tollhouse = s.tollhouse := by
  unfold State.groupJudge
  split <;> simp

@[simp] theorem State.portJudge_tollhouse (s p) : (State.portJudge s p).tollhouse = s.tollhouse := by
  unfold State.portJudge
  split <;> simp

@[simp] theorem State.lofIn_tollhouse (s p i) : (State.lofIn s p i).tollhouse = s.tollhouse := by
  simp only [State.lofIn]
  split <;> simp

@[simp] theorem State.laneLost_tollhouse (s p lane c) : (State.laneLost s p lane c).tollhouse = s.tollhouse :=
  (foldl_tollhouse (fun s k => by simp) _ _).trans (State.putLane_tollhouse ..)

@[simp] theorem State.holdIn_tollhouse (s p) : (State.holdIn s p).tollhouse = s.tollhouse := by simp [State.holdIn]

@[simp] theorem State.holdOut_tollhouse (s p) : (State.holdOut s p).tollhouse = s.tollhouse := by simp [State.holdOut]

@[simp] theorem execCodewordReceive_tollhouse (tether lane ok corrected message s) :
    tollhouseAfter (execCodewordReceive tether lane ok corrected message s) = some s.tollhouse := by
  unfold execCodewordReceive
  repeat' split
  all_goals simp

@[simp] theorem execDlocwExitTimer_tollhouse (lane s) :
    tollhouseAfter (execDlocwExitTimer lane s) = some s.tollhouse := by
  unfold execDlocwExitTimer
  split <;> simp

@[simp] theorem execDlocwLockTimeout_tollhouse (lane s) :
    tollhouseAfter (execDlocwLockTimeout lane s) = some s.tollhouse := by
  unfold execDlocwLockTimeout
  split <;> simp

@[simp] theorem execHoldoverExit_tollhouse (port s) :
    tollhouseAfter (execHoldoverExit port s) = some s.tollhouse := by simp [execHoldoverExit]

@[simp] theorem execJustHoldoverRelease_tollhouse (port s) :
    tollhouseAfter (execJustHoldoverRelease port s) = some s.tollhouse := by simp [execJustHoldoverRelease]

@[simp] theorem execSpanBlockReceive_tollhouse (lane pos oh s) :
    tollhouseAfter (execSpanBlockReceive lane pos oh s) = some s.tollhouse := by
  unfold execSpanBlockReceive
  split <;> simp

@[simp] theorem State.acceptCand_tollhouse (s p lane c k t) : (State.acceptCand s p lane c k t).tollhouse = s.tollhouse := by
  refine (foldl_tollhouse (fun s n => ?_) _ _).trans (State.putLane_tollhouse ..)
  split
  · exact State.putInst_tollhouse ..
  · rfl

@[simp] theorem State.cleanCount_tollhouse (s p lane c err) : (State.cleanCount s p lane c err).tollhouse = s.tollhouse :=
  foldl_tollhouse (fun s n => by simp) _ s

@[simp] theorem execSpanFramePeriodEnd_tollhouse (lane seen s) :
    tollhouseAfter (execSpanFramePeriodEnd lane seen s) = some s.tollhouse := by
  simp only [execSpanFramePeriodEnd]
  repeat' split
  all_goals simp

@[simp] theorem State.clientLock_tollhouse (s port d chan enter) :
    (State.clientLock s port d chan enter).tollhouse = s.tollhouse := by simp [State.clientLock]

@[simp] theorem execPortStandardDefect_tollhouse (port defect enter s) :
    tollhouseAfter (execPortStandardDefect port defect enter s) = some s.tollhouse := by
  unfold execPortStandardDefect
  repeat' split
  all_goals simp

@[simp] theorem execDegSecondEnd_tollhouse (port s) : tollhouseAfter (execDegSecondEnd port s) = some s.tollhouse := by
  unfold execDegSecondEnd
  split <;> simp

@[simp] theorem State.setPort_tollhouse (s p c) : (State.setPort s p c).tollhouse = s.tollhouse := (rfl)

@[simp] theorem State.commitEntries_tollhouse (s p type) : (State.commitEntries s p type).tollhouse = s.tollhouse := by
  simp only [State.commitEntries]
  split <;> simp

@[simp] theorem execFlexeCalendarSwitch_tollhouse (port s) :
    tollhouseAfter (execFlexeCalendarSwitch port s) = some s.tollhouse := by simp [execFlexeCalendarSwitch]

@[simp] theorem execOtnEntryCommit_tollhouse (port s) :
    tollhouseAfter (execOtnEntryCommit port s) = some s.tollhouse := by simp [execOtnEntryCommit]

/-! ### The OAM engine -/

@[simp] theorem State.putOam_tollhouse (s k r) : (State.putOam s k r).tollhouse = s.tollhouse := (rfl)

@[simp] theorem State.nextTx_tollhouse (s c r base) : (State.nextTx s c r base).2.tollhouse = s.tollhouse := by
  unfold State.nextTx
  split
  · rfl
  · split <;> rfl

@[simp] theorem State.setOam_tollhouse (s k r) : (State.setOam s k r).tollhouse = s.tollhouse := by simp [State.setOam]

@[simp] theorem State.oamChanged_tollhouse (s k ev) : (State.oamChanged s k ev).tollhouse = s.tollhouse := by
  unfold State.oamChanged
  split <;> simp

@[simp] theorem State.bfdTo_tollhouse (s k st diag) :
    (State.bfdTo s k st diag).tollhouse = s.tollhouse := by simp [State.bfdTo]

@[simp] theorem State.ccmTo_tollhouse (s k d) : (State.ccmTo s k d).tollhouse = s.tollhouse := by simp [State.ccmTo]

@[simp] theorem State.inject_tollhouse (s q f) : (State.inject s q f).tollhouse = s.tollhouse := by simp [State.inject]

@[simp] theorem State.oamSend_tollhouse (s k c final) :
    (State.oamSend s k c final).tollhouse = s.tollhouse := by simp [State.oamSend]

@[simp] theorem State.freeOam_tollhouse (s k) : (State.freeOam s k).tollhouse = s.tollhouse := (rfl)

@[simp] theorem execOamTxTimer_tollhouse (k s) : tollhouseAfter (execOamTxTimer k s) = some s.tollhouse := by
  unfold execOamTxTimer
  split <;> simp

@[simp] theorem execOamDetectExpire_tollhouse (k s) : tollhouseAfter (execOamDetectExpire k s) = some s.tollhouse := by
  unfold execOamDetectExpire
  split <;> simp

@[simp] theorem State.oamPunt_tollhouse (s chan e frame) :
    (State.oamPunt s chan e frame).tollhouse = s.tollhouse := by simp [State.oamPunt]

@[simp] theorem State.bfdTake_tollhouse (s k c b) : (State.bfdTake s k c b).tollhouse = s.tollhouse := by
  simp only [State.bfdTake]
  repeat' split
  all_goals simp

@[simp] theorem State.ccmTake_tollhouse (s k c b) :
    (State.ccmTake s k c b).tollhouse = s.tollhouse := by simp [State.ccmTake]

theorem State.oamTake_tollhouse {s session frame t} (h : State.oamTake s session frame = some t) :
    t.tollhouse = s.tollhouse := by
  simp only [State.oamTake] at h
  repeat' split at h
  all_goals first | contradiction | (cases h; simp)

@[simp] theorem State.oamRecv_tollhouse (s e) : (State.oamRecv s e).tollhouse = s.tollhouse := by
  unfold State.oamRecv
  extract_lets n _ u
  have counted : u.tollhouse = s.tollhouse := rfl
  split
  · simp
  · split
    next taken =>
      split
      · exact (State.oamTake_tollhouse taken).trans counted
      · exact counted
    · rw [State.oamPunt_tollhouse, counted]

@[simp] theorem execOamFrameReceive_tollhouse (s) : tollhouseAfter (execOamFrameReceive s) = some s.tollhouse := by
  simp only [execOamFrameReceive]
  split <;> simp

@[simp] theorem State.oamStart_tollhouse (s k c) :
    (State.oamStart s k c).tollhouse = s.tollhouse := by simp [State.oamStart]

@[simp] theorem execOamSessionSet_tollhouse (h p s) : tollhouseAfter (execOamSessionSet h p s) = some s.tollhouse := by
  refine congrArg some (runSimple_tollhouse (fun s => ?_) ..)
  dsimp only
  split
  · simp
  · split
    · simp
    · repeat' split
      all_goals simp

@[simp] theorem execOamSessionDel_tollhouse (h p s) : tollhouseAfter (execOamSessionDel h p s) = some s.tollhouse := by
  refine congrArg some (runSimple_tollhouse (fun s => ?_) ..)
  dsimp only
  split <;> simp

@[simp] theorem execOamSessionRead_tollhouse (h p s) :
    tollhouseAfter (execOamSessionRead h p s) = some s.tollhouse := by simp [execOamSessionRead]

@[simp] theorem execOamChanges_tollhouse (h p s) :
    tollhouseAfter (execOamChanges h p s) = some s.tollhouse := by simp [execOamChanges]

@[simp] theorem State.takeOam_tollhouse (s f) : (State.takeOam s f).tollhouse = s.tollhouse := by simp [State.takeOam]

/-! ### Line ports by command, and frames in and out -/

@[simp] theorem State.clearCounts_tollhouse (s scope unit) :
    (State.clearCounts s scope unit).tollhouse = s.tollhouse := (rfl)

@[simp] theorem State.portChansLost_tollhouse (s p) :
    (State.portChansLost s p).tollhouse = s.tollhouse := by simp [State.portChansLost]

@[simp] theorem State.dropPort_tollhouse (s p) :
    (State.dropPort s p).tollhouse = s.tollhouse := by simp [State.dropPort]

@[simp] theorem State.portUp_tollhouse (s p) : (State.portUp s p).tollhouse = s.tollhouse := by
  unfold State.portUp
  split <;> simp

@[simp] theorem State.portDown_tollhouse (s p) : (State.portDown s p).tollhouse = s.tollhouse := by
  unfold State.portDown
  split <;> simp

@[simp] theorem State.setAdmin_tollhouse (s p up) : (State.setAdmin s p up).tollhouse = s.tollhouse := by
  unfold State.setAdmin
  split <;> simp

@[simp] theorem State.unshape_tollhouse (s node) : (State.unshape s node).tollhouse = s.tollhouse := (rfl)

@[simp] theorem State.commitPort_tollhouse (s n c) :
    (State.commitPort s n c).tollhouse = s.tollhouse := by simp [State.commitPort]

@[simp] theorem State.shadowPort_tollhouse (s n c) : (State.shadowPort s n c).tollhouse = s.tollhouse := by
  simp only [State.shadowPort]
  split <;> simp

@[simp] theorem execLinePortCfg_tollhouse (h p s) :
    tollhouseAfter (execLinePortCfg h p s) = some s.tollhouse := by simp [execLinePortCfg]

@[simp] theorem execLineStatus_tollhouse (h p s) :
    tollhouseAfter (execLineStatus h p s) = some s.tollhouse := by simp [execLineStatus]

@[simp] theorem execFrameReceive_tollhouse (chan units frame s) :
    tollhouseAfter (execFrameReceive chan units frame s) = some s.tollhouse := by
  unfold execFrameReceive
  split <;> simp

@[simp] theorem State.tsAction_tollhouse (s node e f) : (State.tsAction s node e f).2.tollhouse = s.tollhouse := by
  simp only [State.tsAction]
  repeat' split
  all_goals simp

@[simp] theorem State.sentPart_tollhouse (s node e body) :
    (State.sentPart s node e body).2.2.tollhouse = s.tollhouse := by
  simp only [State.sentPart]
  split <;> simp

@[simp] theorem State.beginFrame_tollhouse (s node e f r) :
    (State.beginFrame s node e f r).tollhouse = s.tollhouse := by simp [State.beginFrame]

@[simp] theorem execEgressFrameTransmit_tollhouse (node s) :
    tollhouseAfter (execEgressFrameTransmit node s) = some s.tollhouse := by
  simp only [execEgressFrameTransmit]
  repeat' split
  all_goals simp

/-! ### Span groups -/

@[simp] theorem State.putTx_tollhouse (s p i x) : (State.putTx s p i x).tollhouse = s.tollhouse := (rfl)

@[simp] theorem State.setSpan_tollhouse (s g c) : (State.setSpan s g c).tollhouse = s.tollhouse := (rfl)

@[simp] theorem State.shakeStep_tollhouse (s g step) : (State.shakeStep s g step).tollhouse = s.tollhouse := by
  unfold State.shakeStep
  split <;> simp

@[simp] theorem State.idleRest_tollhouse (s g) : (State.idleRest s g).tollhouse = s.tollhouse := by
  unfold State.idleRest
  split <;> simp

@[simp] theorem State.shakeDrop_tollhouse (s g) :
    (State.shakeDrop s g).tollhouse = s.tollhouse := by simp [State.shakeDrop]

@[simp] theorem State.shakeFail_tollhouse (s g why) :
    (State.shakeFail s g why).tollhouse = s.tollhouse := by simp [State.shakeFail]

@[simp] theorem State.shakeTx_tollhouse (s g c) : (State.shakeTx s g c).tollhouse = s.tollhouse := by
  simp only [State.shakeTx]
  repeat' split
  all_goals simp

@[simp] theorem State.shakeRx_tollhouse (s g c f sfc) : (State.shakeRx s g c f sfc).tollhouse = s.tollhouse := by
  simp only [State.shakeRx]
  repeat' split
  all_goals simp

@[simp] theorem State.skewClose_tollhouse (s g) : (State.skewClose s g).tollhouse = s.tollhouse := by
  simp only [State.skewClose]
  split <;> simp

@[simp] theorem State.skewTake_tollhouse (s g ci bs) : (State.skewTake s g ci bs).tollhouse = s.tollhouse := by
  unfold State.skewTake
  split <;> simp

@[simp] theorem State.skewBegin_tollhouse (s g c) : (State.skewBegin s g c).tollhouse = s.tollhouse := by
  simp only [State.skewBegin]
  split <;> simp

@[simp] theorem State.deskew_tollhouse (s g ci p i bs) :
    (State.deskew s g ci p i bs).tollhouse = s.tollhouse := by simp [State.deskew]

@[simp] theorem State.instPayload_tollhouse (s g ci p i c f ok j) :
    (State.instPayload s g ci p i c f ok j).tollhouse = s.tollhouse := by
  simp only [State.instPayload]
  repeat' split
  all_goals simp

@[simp] theorem State.bdiJudge_tollhouse (s p n) :
    (State.bdiJudge s p n).tollhouse = s.tollhouse := by simp [State.bdiJudge]

@[simp] theorem State.iidJudge_tollhouse (s p i same) :
    (State.iidJudge s p i same).tollhouse = s.tollhouse := by simp [State.iidJudge]

@[simp] theorem State.gcalJudge_tollhouse (s g ci p i same) :
    (State.gcalJudge s g ci p i same).tollhouse = s.tollhouse := by simp [State.gcalJudge]

@[simp] theorem State.instOverhead_tollhouse (s g ci p i w c k f) :
    (State.instOverhead s g ci p i w c k f).tollhouse = s.tollhouse := by simp [State.instOverhead]

@[simp] theorem State.skewFrame_tollhouse (s g c) :
    (State.skewFrame s g c).tollhouse = s.tollhouse := by simp [State.skewFrame]

@[simp] theorem execSpanInstanceFrameReceive_tollhouse (port inst frame s) :
    tollhouseAfter (execSpanInstanceFrameReceive port inst frame s) = some s.tollhouse := by
  unfold execSpanInstanceFrameReceive
  split
  · rfl
  · extract_lets w p i fsm
    split
    · rfl
    · split
      · simp
      · split
        · simp
        · split
          extract_lets u1 u2 u3
          have counted : u3.tollhouse = s.tollhouse := by
            simp only [u3, u2, u1]
            repeat' split
            all_goals simp
          split <;> simp [counted]

@[simp] theorem State.findPlace_tollhouse (s g c) : (State.findPlace s g c).tollhouse = s.tollhouse := by
  simp only [State.findPlace]
  split <;> simp

@[simp] theorem State.takeBlock_tollhouse (s g blk) :
    (State.takeBlock s g blk).tollhouse = s.tollhouse := by simp [State.takeBlock]

@[simp] theorem State.endCycle_tollhouse (s g c) :
    (State.endCycle s g c).tollhouse = s.tollhouse := by simp [State.endCycle]

@[simp] theorem execSpanBlockRead_tollhouse (g s) : tollhouseAfter (execSpanBlockRead g s) = some s.tollhouse := by
  simp only [execSpanBlockRead]
  repeat' split
  all_goals simp

@[simp] theorem State.spanDeliver_tollhouse (s g c k) :
    (State.spanDeliver s g c k).tollhouse = s.tollhouse := by simp [State.spanDeliver]

@[simp] theorem execSpanWordReceive_tollhouse (g s) : tollhouseAfter (execSpanWordReceive g s) = some s.tollhouse := by
  simp only [execSpanWordReceive]
  repeat' split
  all_goals simp

@[simp] theorem execDglosEntryTimer_tollhouse (g s) : tollhouseAfter (execDglosEntryTimer g s) = some s.tollhouse := by
  unfold execDglosEntryTimer
  split <;> simp

@[simp] theorem execDglosExitTimer_tollhouse (g s) : tollhouseAfter (execDglosExitTimer g s) = some s.tollhouse := by
  unfold execDglosExitTimer
  split <;> simp

@[simp] theorem execDgpartExitTimer_tollhouse (g s) : tollhouseAfter (execDgpartExitTimer g s) = some s.tollhouse := by
  unfold execDgpartExitTimer
  split <;> simp

@[simp] theorem State.layAt_tollhouse (s c entry g b) : (State.layAt s c entry g b).tollhouse = s.tollhouse := by
  unfold State.layAt
  split <;> simp

@[simp] theorem State.layBlock_tollhouse (s g c) :
    (State.layBlock s g c).tollhouse = s.tollhouse := by simp [State.layBlock]

@[simp] theorem State.layUntil_tollhouse (g c p i n k s) : (State.layUntil g c p i n k s).tollhouse = s.tollhouse := by
  induction k generalizing s with
  | zero => rfl
  | succ k ih => simp [State.layUntil, ih]

@[simp] theorem State.layCycle_tollhouse (s g c) :
    (State.layCycle s g c).tollhouse = s.tollhouse := by simp [State.layCycle]

@[simp] theorem State.switchTx_tollhouse (s g c new) : (State.switchTx s g c new).tollhouse = s.tollhouse := by
  simp only [State.switchTx]
  rw [foldl_tollhouse (by simp), State.putSpanRun_tollhouse, State.setSpan_tollhouse, foldl_tollhouse, State.layCycle_tollhouse]
  intro s e
  split <;> simp

@[simp] theorem State.sendLane_tollhouse (s p w lane count) :
    (State.sendLane s p w lane count).tollhouse = s.tollhouse := (rfl)

@[simp] theorem State.sendLanes_tollhouse (s p w count drive) :
    (State.sendLanes s p w count drive).tollhouse = s.tollhouse := by simp [State.sendLanes]

@[simp] theorem State.carrierFrames_tollhouse (s p g ci c k pc next) :
    (State.carrierFrames s p g ci c k pc next).tollhouse = s.tollhouse := by simp [State.carrierFrames]

@[simp] theorem State.countJust_tollhouse (s p j) :
    (State.countJust s p j).tollhouse = s.tollhouse := by simp [State.countJust]

@[simp] theorem execSpanFrameTransmit_tollhouse (port fill s) :
    tollhouseAfter (execSpanFrameTransmit port fill s) = some s.tollhouse := by
  unfold execSpanFrameTransmit
  split <;> simp

@[simp] theorem execSpanSwitchMultiframe_tollhouse (g s) :
    tollhouseAfter (execSpanSwitchMultiframe g s) = some s.tollhouse := by
  unfold execSpanSwitchMultiframe
  split <;> simp

@[simp] theorem execStandbySpanApply_tollhouse (g s) :
    tollhouseAfter (execStandbySpanApply g s) = some s.tollhouse := by
  unfold execStandbySpanApply
  split <;> simp

@[simp] theorem State.takeShake_tollhouse (s f) : (State.takeShake s f).tollhouse = s.tollhouse := by
  simp only [State.takeShake]
  repeat' split
  all_goals simp

@[simp] theorem State.renumberAll_tollhouse (s c c' b) : (State.renumberAll s c c' b).tollhouse = s.tollhouse := by
  refine foldl_tollhouse (fun s e => ?_) _ s
  split <;> simp

@[simp] theorem execSpanResizeApplyRx_tollhouse (g s) :
    tollhouseAfter (execSpanResizeApplyRx g s) = some s.tollhouse := by
  simp only [execSpanResizeApplyRx]
  repeat' split
  all_goals simp

@[simp] theorem State.txDone_tollhouse (s g) : (State.txDone s g).tollhouse = s.tollhouse := by simp [State.txDone]

@[simp] theorem State.rxDone_tollhouse (s g c) : (State.rxDone s g c).tollhouse = s.tollhouse := by simp [State.rxDone]

@[simp] theorem execSpanResizeDone_tollhouse (g s) : tollhouseAfter (execSpanResizeDone g s) = some s.tollhouse := by
  unfold execSpanResizeDone
  split <;> simp

@[simp] theorem execSpanResizeTimeout_tollhouse (g s) :
    tollhouseAfter (execSpanResizeTimeout g s) = some s.tollhouse := by
  unfold execSpanResizeTimeout
  split <;> simp

@[simp] theorem execSpanResize_tollhouse (h p s) : tollhouseAfter (execSpanResize h p s) = some s.tollhouse := by
  refine congrArg some (runCommand_tollhouse (fun s => ?_) ..)
  dsimp only
  split <;> simp

@[simp] theorem State.spanAdmin_tollhouse (s g up) : (State.spanAdmin s g up).tollhouse = s.tollhouse := by
  unfold State.spanAdmin
  split <;> simp

@[simp] theorem State.dropSpan_tollhouse (s g) : (State.dropSpan s g).tollhouse = s.tollhouse := (rfl)

@[simp] theorem State.commitSpan_tollhouse (s g c remove) :
    (State.commitSpan s g c remove).tollhouse = s.tollhouse := by simp [State.commitSpan]

@[simp] theorem execSpanGroupCfg_tollhouse (h p s) : tollhouseAfter (execSpanGroupCfg h p s) = some s.tollhouse := by
  refine congrArg some (runSimple_tollhouse (fun s => ?_) ..)
  dsimp only
  split
  · simp
  · split <;> simp

/-! ### The tether -/

@[simp] theorem execRefereeHealthSend_tollhouse (s) :
    tollhouseAfter (execRefereeHealthSend s) = some s.tollhouse := by simp [execRefereeHealthSend]

@[simp] theorem State.form_tollhouse (s) : (State.form s).tollhouse = s.tollhouse := by simp [State.form]

@[simp] theorem execTetherUp_tollhouse (s) :
    tollhouseAfter (execTetherUp s) = some s.tollhouse := by simp [execTetherUp]

@[simp] theorem execTetherDownTimeout_tollhouse (s) :
    tollhouseAfter (execTetherDownTimeout s) = some s.tollhouse := by simp [execTetherDownTimeout]

@[simp] theorem execTetherLaneService_tollhouse (lane enter s) :
    tollhouseAfter (execTetherLaneService lane enter s) = some s.tollhouse := by simp [execTetherLaneService]

@[simp] theorem State.takeStatus_tollhouse (s f) :
    (State.takeStatus s f).tollhouse = s.tollhouse := by simp [State.takeStatus]

@[simp] theorem State.takeMeters_tollhouse (n i f s) : (State.takeMeters n i f s).tollhouse = s.tollhouse := by
  induction n generalizing i f s with
  | zero => rfl
  | succ n ih => simp [State.takeMeters, ih]

@[simp] theorem State.takeShapers_tollhouse (n i f s) : (State.takeShapers n i f s).tollhouse = s.tollhouse := by
  induction n generalizing i f s with
  | zero => rfl
  | succ n ih => simp [State.takeShapers, ih]

@[simp] theorem State.compareSweep_tollhouse (s kind no first f) :
    (State.compareSweep s kind no first f).tollhouse = s.tollhouse := by simp [State.compareSweep]

@[simp] theorem State.takeSweep_tollhouse (s f) :
    (State.takeSweep s f).tollhouse = s.tollhouse := by simp [State.takeSweep]

theorem takeEach_tollhouse {k apply} (keeps : ∀ f s, (apply f s).tollhouse = s.tollhouse) (n f s) :
    (takeEach k apply n f s).tollhouse = s.tollhouse := by
  induction n generalizing f s with
  | zero => rfl
  | succ n ih => simp [takeEach, ih, keeps]

@[simp] theorem State.takeCommand_tollhouse (s f) : (State.takeCommand s f).tollhouse = s.tollhouse := by
  simp only [State.takeCommand]
  repeat' split
  all_goals simp

@[simp] theorem State.endMirror_tollhouse (s w) :
    (State.endMirror s w).tollhouse = s.tollhouse := by simp [State.endMirror]

@[simp] theorem State.takeReply_tollhouse (s f) : (State.takeReply s f).tollhouse = s.tollhouse := by
  simp only [State.takeReply]
  split <;> simp

@[simp] theorem execMirrorReplyTimeout_tollhouse (s) :
    tollhouseAfter (execMirrorReplyTimeout s) = some s.tollhouse := by
  unfold execMirrorReplyTimeout
  split <;> simp

@[simp] theorem State.takeAck_tollhouse (s f) : (State.takeAck s f).tollhouse = s.tollhouse := by simp [State.takeAck]

@[simp] theorem State.deliver_tollhouse (s f) : (State.deliver s f).tollhouse = s.tollhouse := by
  simp only [State.deliver]
  split
  case h_3 => exact takeEach_tollhouse (by simp) _ _ _
  case h_8 => exact takeEach_tollhouse (by simp) _ _ _
  all_goals simp

@[simp] theorem State.deliverRun_tollhouse (n f s) : (State.deliverRun n f s).tollhouse = s.tollhouse := by
  induction n generalizing f s with
  | zero => rfl
  | succ n ih =>
    simp only [State.deliverRun]
    split <;> simp [ih]

@[simp] theorem State.noteGap_tollhouse (s was seq) :
    (State.noteGap s was seq).tollhouse = s.tollhouse := by simp [State.noteGap]

@[simp] theorem State.tetherRecv_tollhouse (s f) : (State.tetherRecv s f).tollhouse = s.tollhouse := by
  simp only [State.tetherRecv]
  repeat' split
  all_goals simp

@[simp] theorem execTetherStatus_tollhouse (f s) :
    tollhouseAfter (execTetherStatus f s) = some s.tollhouse := by simp [execTetherStatus]

@[simp] theorem execTetherBucketSweep_tollhouse (f s) :
    tollhouseAfter (execTetherBucketSweep f s) = some s.tollhouse := by simp [execTetherBucketSweep]

@[simp] theorem execTetherOamState_tollhouse (f s) :
    tollhouseAfter (execTetherOamState f s) = some s.tollhouse := by simp [execTetherOamState]

@[simp] theorem execTetherMirroredCommand_tollhouse (f s) :
    tollhouseAfter (execTetherMirroredCommand f s) = some s.tollhouse := by simp [execTetherMirroredCommand]

@[simp] theorem execTetherMirroredReply_tollhouse (f s) :
    tollhouseAfter (execTetherMirroredReply f s) = some s.tollhouse := by simp [execTetherMirroredReply]

@[simp] theorem execTetherAlignment_tollhouse (f s) :
    tollhouseAfter (execTetherAlignment f s) = some s.tollhouse := by simp [execTetherAlignment]

@[simp] theorem execTetherManifestCheck_tollhouse (f s) :
    tollhouseAfter (execTetherManifestCheck f s) = some s.tollhouse := by simp [execTetherManifestCheck]

@[simp] theorem execTetherAck_tollhouse (f s) :
    tollhouseAfter (execTetherAck f s) = some s.tollhouse := by simp [execTetherAck]

@[simp] theorem execTetherSpanHandshake_tollhouse (f s) :
    tollhouseAfter (execTetherSpanHandshake f s) = some s.tollhouse := by simp [execTetherSpanHandshake]

@[simp] theorem execTetherGapTimeout_tollhouse (s) :
    tollhouseAfter (execTetherGapTimeout s) = some s.tollhouse := by simp [execTetherGapTimeout]

@[simp] theorem execTetherStatusSend_tollhouse (s) :
    tollhouseAfter (execTetherStatusSend s) = some s.tollhouse := by simp [execTetherStatusSend]

@[simp] theorem State.sweepFrames_tollhouse (kind no per all rec s) :
    (State.sweepFrames kind no per all rec s).tollhouse = s.tollhouse := by simp [State.sweepFrames]

@[simp] theorem State.sweep_tollhouse (s no) : (State.sweep s no).tollhouse = s.tollhouse := by
  simp only [State.sweep, State.sweepFrames_tollhouse]

@[simp] theorem execTetherSweepSend_tollhouse (s) :
    tollhouseAfter (execTetherSweepSend s) = some s.tollhouse := by simp [execTetherSweepSend]

@[simp] theorem State.pairEnable_tollhouse (s en) :
    (State.pairEnable s en).tollhouse = s.tollhouse := by simp [State.pairEnable]

@[simp] theorem execPairCfg_tollhouse (h p s) :
    tollhouseAfter (execPairCfg h p s) = some s.tollhouse := by simp [execPairCfg]

@[simp] theorem execPairHealth_tollhouse (h p s) :
    tollhouseAfter (execPairHealth h p s) = some s.tollhouse := by simp [execPairHealth]

@[simp] theorem execPairYield_tollhouse (h p s) :
    tollhouseAfter (execPairYield h p s) = some s.tollhouse := by simp [execPairYield]

/-! ### Resets -/

@[simp] theorem State.setPwr_tollhouse (s p) : (State.setPwr s p).tollhouse = tget restDomain p.domains 0 := (rfl)

@[simp] theorem State.setPins_tollhouse (s p) : (State.setPins s p).tollhouse = s.tollhouse := (rfl)

@[simp] theorem State.dark_tollhouse (s) : (State.dark s).tollhouse = s.tollhouse := (rfl)

@[simp] theorem State.dropSessions_tollhouse (s) :
    (State.dropSessions s).tollhouse = s.tollhouse := by simp [State.dropSessions]

@[simp] theorem State.coreReset_tollhouse (s src kind) : (State.coreReset s src kind).tollhouse = 0 := (rfl)

@[simp] theorem State.unpowered_tollhouse (s) : (State.unpowered s).tollhouse = 0 := (rfl)

theorem execTollhouseSupplyInRange_keepsOn (sideB railsOk slipReqN s) : KeepsOn s (execTollhouseSupplyInRange sideB railsOk slipReqN s) := keepsOn_next fun _ => rfl

theorem execTollhouseSupplyLoss_keepsOn (s) : KeepsOn s (execTollhouseSupplyLoss s) := keepsOn_next fun _ => rfl

theorem execResetNRelease_keepsOn (lowNs s) : KeepsOn s (execResetNRelease lowNs s) := by
  simp only [execResetNRelease]
  repeat' split
  all_goals exact keepsOn_next fun on => by simp [on]

theorem execRailsOkFall_keepsOn (lowNs s) : KeepsOn s (execRailsOkFall lowNs s) := by
  simp only [execRailsOkFall]
  repeat' split
  all_goals exact keepsOn_next fun on => by simp [on]

@[simp] theorem execPerstNAssert_tollhouse (s) :
    tollhouseAfter (execPerstNAssert s) = some s.tollhouse := by simp [execPerstNAssert]

@[simp] theorem execWatchdogRefresh_tollhouse (s) :
    tollhouseAfter (execWatchdogRefresh s) = some s.tollhouse := by simp [execWatchdogRefresh]

theorem execWatchdogExpire_keepsOn (s) : KeepsOn s (execWatchdogExpire s) := by
  simp only [execWatchdogExpire]
  repeat' split
  all_goals exact keepsOn_next fun on => by simp [on]

theorem execRestartCold_keepsOn (s) : KeepsOn s (execRestartCold s) := by
  simp only [execRestartCold]
  repeat' split
  all_goals exact keepsOn_next fun on => by simp [on]

theorem execRestartWarm_keepsOn (s) : KeepsOn s (execRestartWarm s) := by
  simp only [execRestartWarm]
  repeat' split
  all_goals exact keepsOn_next fun on => by simp [on]

/-! ### Start-up -/

@[simp] theorem State.atPhase_tollhouse (s k) : (State.atPhase s k).tollhouse = s.tollhouse := (rfl)

@[simp] theorem State.power_tollhouse_of_notMem (s l) (h : 0 ∉ l) : (State.power s l).tollhouse = s.tollhouse := by
  unfold State.power
  induction l generalizing s with
  | nil => rfl
  | cons d l ih =>
    rw [List.foldl_cons, ih _ (List.not_mem_of_not_mem_cons h), State.setDomain_tollhouse_of_ne]
    exact (List.ne_of_not_mem_cons h).symm

/-- Domains that a test on their numbers keeps stay listed as they were. -/
theorem tget_filter_of_pos {α : Type} (d : Nat → α) (t : Tab α) {p : Nat → Bool} {k : Nat} (h : p k = true) :
    tget d (t.filter (fun x => p x.1)) k = tget d t k := by
  induction t with
  | nil => rfl
  | cons x t ih =>
    by_cases same : k = x.1
    · subst same; simp [tget, h]
    · by_cases kept : p x.1 = true
      · simp [tget, kept, same, ih]
      · simp [tget, kept, same, ih]

@[simp] theorem State.powerDown_tollhouse (s) : (State.powerDown s).tollhouse = s.tollhouse := by
  simp [State.powerDown, tget_filter_of_pos restDomain _ (p := (· < 3)) (k := 0) rfl]

@[simp] theorem State.enterSlipway_tollhouse (s cause) :
    (State.enterSlipway s cause).tollhouse = s.tollhouse := by simp [State.enterSlipway]

@[simp] theorem State.knowImage_tollhouse (s k patches) :
    (State.knowImage s k patches).tollhouse = s.tollhouse := by simp [State.knowImage]

@[simp] theorem State.bootVerify_tollhouse (s k cause) :
    (State.bootVerify s k cause).tollhouse = s.tollhouse := by simp [State.bootVerify]

@[simp] theorem State.bootImage_tollhouse (s r) : (State.bootImage s r).2.tollhouse = s.tollhouse := by
  simp only [State.bootImage]
  repeat' split
  all_goals simp

@[simp] theorem State.firmwareUp_tollhouse (s) :
    (State.firmwareUp s).tollhouse = s.tollhouse := by simp [State.firmwareUp]

@[simp] theorem State.stacksUp_tollhouse (s cold hbm) :
    (State.stacksUp s cold hbm).tollhouse = s.tollhouse := by simp [State.stacksUp]

@[simp] theorem State.mapSlices_tollhouse (s ok) :
    (State.mapSlices s ok).tollhouse = s.tollhouse := by simp [State.mapSlices]

@[simp] theorem State.mapBanks_tollhouse (s fused) : (State.mapBanks s fused).tollhouse = s.tollhouse := (rfl)

@[simp] theorem State.loadMicrocode_tollhouse (s patches badPatches) :
    (State.loadMicrocode s patches badPatches).tollhouse = s.tollhouse := by simp [State.loadMicrocode]

@[simp] theorem State.slicesUp_tollhouse (s r cold) : (State.slicesUp s r cold).tollhouse = s.tollhouse := by
  have halves (ok : List Nat) : 0 ∉ ok.flatMap (fun k => [ingressDomain k, ingressDomain k + 1]) := by
    simp [(ingressDomain_ne_zero _).symm]
  simp [State.slicesUp, halves]

@[simp] theorem State.queuesUp_tollhouse (s) : (State.queuesUp s).tollhouse = s.tollhouse := by
  rw [State.queuesUp, State.fillPunts_tollhouse, State.atPhase_tollhouse, State.power_tollhouse_of_notMem]
  simp [slices, queueDomain_ne_zero]

@[simp] theorem State.applyHeld_tollhouse (s) : (State.applyHeld s).tollhouse = s.tollhouse := by simp [State.applyHeld]

@[simp] theorem State.fabricUp_tollhouse (s) : (State.fabricUp s).tollhouse = s.tollhouse := by simp [State.fabricUp]

@[simp] theorem State.beginRun_tollhouse (s) : (State.beginRun s).tollhouse = s.tollhouse := by
  have begun (u : State) (kept : u.tollhouse = s.tollhouse) :
      (if s.cfg.pair.en then u.setDomain 9 0 else u).tollhouse = s.tollhouse := by
    split <;> simp [kept]
  refine begun _ ?_
  rw [State.fabricUp_tollhouse, foldl_tollhouse (by simp), foldl_tollhouse (by simp), foldl_tollhouse (by simp),
    foldl_tollhouse, foldl_tollhouse, foldl_tollhouse]
  · split <;> simp
  · intro s x
    split <;> simp
  · intro s x
    split <;> simp
  · intro s x
    split <;> simp

@[simp] theorem State.restoreCfg_tollhouse (s c) :
    (State.restoreCfg s c).tollhouse = s.tollhouse := by simp [State.restoreCfg]

@[simp] theorem State.startEnds_tollhouse (s code m) :
    (State.startEnds s code m).tollhouse = s.tollhouse := by simp [State.startEnds]

@[simp] theorem State.zeroFlow_tollhouse (s) : (State.zeroFlow s).tollhouse = s.tollhouse := (rfl)

@[simp] theorem State.afterStart_tollhouse (s k newestBad) :
    (State.afterStart s k newestBad).tollhouse = s.tollhouse := by
  simp only [State.afterStart]
  repeat' split
  all_goals simp

@[simp] theorem State.startFails_tollhouse (s k) : (State.startFails s k).tollhouse = s.tollhouse := (rfl)

@[simp] theorem State.startDies_tollhouse (s k r) :
    (State.startDies s k r).tollhouse = s.tollhouse := by simp [State.startDies]

@[simp] theorem State.runStart_tollhouse (s r) : (State.runStart s r).tollhouse = s.tollhouse := by
  unfold State.runStart
  split
  · rfl
  · extract_lets _ waited powered _ stepped done inBoot
    have unwaited : waited.tollhouse = s.tollhouse := rfl
    have begun : stepped.tollhouse = s.tollhouse := show powered.tollhouse = _ by simp [powered, unwaited]
    have booting : inBoot.tollhouse = s.tollhouse := by
      unfold inBoot
      split <;> simp [begun]
    have booted := (inBoot.bootImage_tollhouse r).trans booting
    split
    · rfl
    · split
      · rw [State.enterSlipway_tollhouse, begun]
      · split
        next eq => rw [eq] at booted; simpa using booted
        next eq => rw [eq] at booted; simpa [done] using booted

@[simp] theorem execStart_tollhouse (r s) : tollhouseAfter (execStart r s) = some s.tollhouse := by simp [execStart]

@[simp] theorem execRailsOkRise_tollhouse (r s) : tollhouseAfter (execRailsOkRise r s) = some s.tollhouse := by
  simp only [execRailsOkRise]
  split <;> simp

/-! ### The modes -/

@[simp] theorem State.setModeReq_tollhouse (s r) : (State.setModeReq s r).tollhouse = s.tollhouse := (rfl)

@[simp] theorem State.modeAccept_tollhouse (s h p m) :
    (State.modeAccept s h p m).tollhouse = s.tollhouse := by simp [State.modeAccept]

@[simp] theorem execModeSet_tollhouse (h p s) : tollhouseAfter (execModeSet h p s) = some s.tollhouse := by
  simp only [execModeSet]
  split <;> simp

@[simp] theorem State.leaveTest_tollhouse (s) : (State.leaveTest s).tollhouse = s.tollhouse := by simp [State.leaveTest]

@[simp] theorem execModeTransitionComplete_tollhouse (s) :
    tollhouseAfter (execModeTransitionComplete s) = some s.tollhouse := by
  unfold execModeTransitionComplete
  repeat' split
  all_goals simp

@[simp] theorem execQuiescentEntryComplete_tollhouse (s) :
    tollhouseAfter (execQuiescentEntryComplete s) = some s.tollhouse := by simp [execQuiescentEntryComplete]

@[simp] theorem execDrainEmpty_tollhouse (s) :
    tollhouseAfter (execDrainEmpty s) = some s.tollhouse := by simp [execDrainEmpty]

@[simp] theorem execDrainTimeout_tollhouse (s) :
    tollhouseAfter (execDrainTimeout s) = some s.tollhouse := by simp [execDrainTimeout]

/-! ### Device time -/

@[simp] theorem State.setTime_tollhouse (s t) : (State.setTime s t).tollhouse = s.tollhouse := (rfl)

@[simp] theorem execSlewComplete_tollhouse (s) :
    tollhouseAfter (execSlewComplete s) = some s.tollhouse := by simp [execSlewComplete]

@[simp] theorem execTimeAdj_tollhouse (h p s) : tollhouseAfter (execTimeAdj h p s) = some s.tollhouse := by
  simp only [execTimeAdj]
  split <;> simp

@[simp] theorem State.trim_tollhouse (s e) : (State.trim s e).tollhouse = s.tollhouse := by simp [State.trim]

@[simp] theorem State.edgeLost_tollhouse (s) : (State.edgeLost s).tollhouse = s.tollhouse := by simp [State.edgeLost]

@[simp] theorem State.noteTod_tollhouse (s sec valid) :
    (State.noteTod s sec valid).tollhouse = s.tollhouse := by simp [State.noteTod]

@[simp] theorem State.servoAct_tollhouse (s e first) : (State.servoAct s e first).tollhouse = s.tollhouse := by
  simp only [State.servoAct]
  repeat' split
  all_goals simp

@[simp] theorem execPpsEdge_tollhouse (s) : tollhouseAfter (execPpsEdge s) = some s.tollhouse := by
  simp only [execPpsEdge]
  repeat' split
  all_goals simp

@[simp] theorem execPpsEdgeMissing_tollhouse (s) :
    tollhouseAfter (execPpsEdgeMissing s) = some s.tollhouse := by simp [execPpsEdgeMissing]

@[simp] theorem execTodMessageReceive_tollhouse (msg s) :
    tollhouseAfter (execTodMessageReceive msg s) = some s.tollhouse := by
  unfold execTodMessageReceive
  split <;> simp

@[simp] theorem execPpsOutEdge_tollhouse (rise s) :
    tollhouseAfter (execPpsOutEdge rise s) = some s.tollhouse := by simp [execPpsOutEdge]

@[simp] theorem execTimeRead_tollhouse (h p s) : tollhouseAfter (execTimeRead h p s) = some s.tollhouse := by
  simp only [execTimeRead]
  split <;> simp

/-! ### Clocks, temperature, rails and ageing -/

@[simp] theorem State.alarmEvent_tollhouse (s src items) :
    (State.alarmEvent s src items).tollhouse = s.tollhouse := by simp [State.alarmEvent]

@[simp] theorem execRefclkLoss_tollhouse (s) :
    tollhouseAfter (execRefclkLoss s) = some s.tollhouse := by simp [execRefclkLoss]

@[simp] theorem execRefclkRestore_tollhouse (s) :
    tollhouseAfter (execRefclkRestore s) = some s.tollhouse := by simp [execRefclkRestore]

@[simp] theorem State.putPll_tollhouse (s k x) : (State.putPll s k x).tollhouse = s.tollhouse := (rfl)

@[simp] theorem State.emptyClocked_tollhouse (s k) : (State.emptyClocked s k).tollhouse = s.tollhouse := by
  unfold State.emptyClocked
  split <;> simp

@[simp] theorem State.dropHeld_tollhouse (s k) :
    (State.dropHeld s k).tollhouse = s.tollhouse := by simp [State.dropHeld]

@[simp] theorem execPllLockLoss_tollhouse (pll s) :
    tollhouseAfter (execPllLockLoss pll s) = some s.tollhouse := by simp [execPllLockLoss]

theorem zero_notMem_pllDomains (k : Nat) : 0 ∉ pllDomains k := by
  simp [pllDomains, pllOf]

@[simp] theorem execPllRelock_tollhouse (pll ok s) : tollhouseAfter (execPllRelock pll ok s) = some s.tollhouse := by
  have off (l : List Nat) (h : 0 ∉ l) (s : State) :
      (l.foldl (fun s d => if s.supplied d = 2 then s else s.setDomain d 2) s).tollhouse = s.tollhouse := by
    induction l generalizing s with
    | nil => rfl
    | cons d l ih =>
      rw [List.foldl_cons, ih (List.not_mem_of_not_mem_cons h)]
      simp [(List.ne_of_not_mem_cons h).symm]
  simp [execPllRelock, off _ (zero_notMem_pllDomains pll)]

@[simp] theorem State.thermalTrip_tollhouse (s reading) :
    (State.thermalTrip s reading).tollhouse = s.tollhouse := by simp [State.thermalTrip]

@[simp] theorem execThermalSample_tollhouse (reading s) :
    tollhouseAfter (execThermalSample reading s) = some s.tollhouse := by
  simp only [execThermalSample]
  repeat' split
  all_goals simp

@[simp] theorem execHbmTemperatureChange_tollhouse (m reading s) :
    tollhouseAfter (execHbmTemperatureChange m reading s) = some s.tollhouse := by simp [execHbmTemperatureChange]

@[simp] theorem State.putRail_tollhouse (s k x) : (State.putRail s k x).tollhouse = s.tollhouse := (rfl)

@[simp] theorem execRailOutOfWindow_tollhouse (rail s) :
    tollhouseAfter (execRailOutOfWindow rail s) = some s.tollhouse := by simp [execRailOutOfWindow]

@[simp] theorem State.railFault_tollhouse (s k on) :
    (State.railFault s k on).tollhouse = s.tollhouse := by simp [State.railFault]

@[simp] theorem execPmbusPoll_tollhouse (rail answer s) :
    tollhouseAfter (execPmbusPoll rail answer s) = some s.tollhouse := by
  unfold execPmbusPoll
  repeat' split
  all_goals simp

@[simp] theorem execPmbAlert_tollhouse (rail status s) :
    tollhouseAfter (execPmbAlert rail status s) = some s.tollhouse := by simp [execPmbAlert]

@[simp] theorem execAgeingMeasure_tollhouse (rail short s) :
    tollhouseAfter (execAgeingMeasure rail short s) = some s.tollhouse := by
  simp only [execAgeingMeasure]
  repeat' split
  all_goals simp

/-! ### The ferryman, idle gating, and the power commands and registers -/

@[simp] theorem State.ferryWake_tollhouse (s n) : (State.ferryWake s n).tollhouse = s.tollhouse := by
  refine foldl_tollhouse (fun s l => ?_) _ s
  extract_lets _ u _ v
  have noted : v.tollhouse = s.tollhouse := rfl
  split
  · exact noted
  · rw [State.wakeHalf_tollhouse, noted]

@[simp] theorem State.ferryDrain_tollhouse (s) : (State.ferryDrain s).tollhouse = s.tollhouse := by
  unfold State.ferryDrain
  split <;> simp

@[simp] theorem State.ferryMeasure_tollhouse (s uses buckets) :
    (State.ferryMeasure s uses buckets).tollhouse = s.tollhouse := (rfl)

@[simp] theorem execFerrymanWindow_tollhouse (uses buckets s) :
    tollhouseAfter (execFerrymanWindow uses buckets s) = some s.tollhouse := by simp [execFerrymanWindow]

@[simp] theorem execFerrymanDrainComplete_tollhouse (s) :
    tollhouseAfter (execFerrymanDrainComplete s) = some s.tollhouse := by
  unfold execFerrymanDrainComplete
  split <;> simp

@[simp] theorem execFerrymanPowerOff_tollhouse (slice s) :
    tollhouseAfter (execFerrymanPowerOff slice s) = some s.tollhouse := by simp [execFerrymanPowerOff]

@[simp] theorem execIdleGate_tollhouse (dom s) :
    tollhouseAfter (execIdleGate dom s) = some s.tollhouse := by simp [execIdleGate]

@[simp] theorem State.noteIdle_tollhouse (s) : (State.noteIdle s).tollhouse = s.tollhouse := by simp [State.noteIdle]

@[simp] theorem execQueueSlicePowerOff_tollhouse (n s) :
    tollhouseAfter (execQueueSlicePowerOff n s) = some s.tollhouse := by simp [execQueueSlicePowerOff]

@[simp] theorem State.ferryStop_tollhouse (s) : (State.ferryStop s).tollhouse = s.tollhouse := by
  unfold State.ferryStop
  split <;> simp

@[simp] theorem execPwrPolicy_tollhouse (h p s) :
    tollhouseAfter (execPwrPolicy h p s) = some s.tollhouse := by simp [execPwrPolicy]

@[simp] theorem execPwrStatus_tollhouse (h p s) :
    tollhouseAfter (execPwrStatus h p s) = some s.tollhouse := by simp [execPwrStatus]

/-! ### Link test, self-test and boundary scan -/

@[simp] theorem State.loopStarts_tollhouse (s) : (State.loopStarts s).tollhouse = s.tollhouse := (rfl)

@[simp] theorem execPrbsCfg_tollhouse (h p s) :
    tollhouseAfter (execPrbsCfg h p s) = some s.tollhouse := by simp [execPrbsCfg]

@[simp] theorem execPcieLoopbackEnd_tollhouse (s) :
    tollhouseAfter (execPcieLoopbackEnd s) = some s.tollhouse := by simp [execPcieLoopbackEnd]

@[simp] theorem State.noteFound_tollhouse (s type us fs) : (State.noteFound s type us fs).tollhouse = s.tollhouse := by
  induction us generalizing s fs with
  | nil => rfl
  | cons u us ih => cases fs <;> simp [State.noteFound, ih]

@[simp] theorem execPrbsRead_tollhouse (h p found s) :
    tollhouseAfter (execPrbsRead h p found s) = some s.tollhouse := by simp [execPrbsRead]

@[simp] theorem execPrbsCheckerLock_tollhouse (type unit rx s) :
    tollhouseAfter (execPrbsCheckerLock type unit rx s) = some s.tollhouse := by simp [execPrbsCheckerLock]

@[simp] theorem execPrbsCheckerLockLoss_tollhouse (type unit bits errors s) :
    tollhouseAfter (execPrbsCheckerLockLoss type unit bits errors s) = some s.tollhouse :=
  by simp [execPrbsCheckerLockLoss]

@[simp] theorem execBistRun_tollhouse (h p s) :
    tollhouseAfter (execBistRun h p s) = some s.tollhouse := by simp [execBistRun]

@[simp] theorem State.fenceOnly_tollhouse (s loc old) :
    (State.fenceOnly s loc old).tollhouse = s.tollhouse := by simp [State.fenceOnly]

@[simp] theorem State.bistSlice_tollhouse (s y) : (State.bistSlice s y).2.tollhouse = s.tollhouse := by
  simp only [State.bistSlice]
  repeat' split
  all_goals simp

@[simp] theorem State.bistFix_tollhouse (s kind slice spare u) :
    (State.bistFix s kind slice spare u).2.tollhouse = s.tollhouse := by
  simp only [State.bistFix]
  repeat' split
  all_goals simp

@[simp] theorem State.bistWipe_tollhouse (s kind slice) : (State.bistWipe s kind slice).tollhouse = s.tollhouse := by
  unfold State.bistWipe
  split <;> simp

@[simp] theorem execBistComplete_tollhouse (kind failing ms s) :
    tollhouseAfter (execBistComplete kind failing ms s) = some s.tollhouse := by
  simp only [execBistComplete]
  split
  · rfl
  · simp only [tollhouseAfter_next, State.bistEnd_tollhouse, tollhouse_snd_ite]
    rw [foldl_keeps (fun x : Bool × State => x.2.tollhouse) (by simp)]
    simp

@[simp] theorem State.tapLoad_tollhouse (s code reg tdo) :
    (State.tapLoad s code reg tdo).tollhouse = s.tollhouse := by simp [State.tapLoad]

theorem State.tapTakes_tollhouse (s code reg tdo) (on : s.tollhouse = 0) : (State.tapTakes s code reg tdo).tollhouse = 0 := by
  unfold State.tapTakes
  split
  · exact on
  · rfl

@[simp] theorem execTapReset_tollhouse (s) :
    tollhouseAfter (execTapReset s) = some s.tollhouse := by simp [execTapReset]

@[simp] theorem execIdcode_tollhouse (s) : tollhouseAfter (execIdcode s) = some s.tollhouse := by simp [execIdcode]

@[simp] theorem execSamplePreload_tollhouse (ext data s) :
    tollhouseAfter (execSamplePreload ext data s) = some s.tollhouse := by simp [execSamplePreload]

theorem execExtest_keepsOn (ext s) : KeepsOn s (execExtest ext s) := keepsOn_next fun on => State.tapTakes_tollhouse _ _ _ _ on

theorem execExtestPulse_keepsOn (ext s) : KeepsOn s (execExtestPulse ext s) := keepsOn_next fun on => State.tapTakes_tollhouse _ _ _ _ on

theorem execExtestTrain_keepsOn (ext s) : KeepsOn s (execExtestTrain ext s) := keepsOn_next fun on => State.tapTakes_tollhouse _ _ _ _ on

theorem execClamp_keepsOn (s) : KeepsOn s (execClamp s) := keepsOn_next fun on => State.tapTakes_tollhouse _ _ _ _ on

theorem execHighz_keepsOn (s) : KeepsOn s (execHighz s) := keepsOn_next fun on => State.tapTakes_tollhouse _ _ _ _ on

@[simp] theorem execBypass_tollhouse (code s) :
    tollhouseAfter (execBypass code s) = some s.tollhouse := by simp [execBypass]

/-! ### The register model -/

@[simp] theorem State.bstatSet_tollhouse (s a i) : (State.bstatSet s a i).tollhouse = s.tollhouse := (rfl)

@[simp] theorem State.wrLost_tollhouse (s a) : (State.wrLost s a).tollhouse = s.tollhouse := (rfl)

@[simp] theorem State.timeCfgWrite_tollhouse (s v) :
    (State.timeCfgWrite s v).tollhouse = s.tollhouse := by simp [State.timeCfgWrite]

@[simp] theorem State.maskWrite_tollhouse (s n v) : (State.maskWrite s n v).tollhouse = s.tollhouse :=
  State.setMask_tollhouse ..

@[simp] theorem State.restartWrite_tollhouse (s arm kind) :
    (State.restartWrite s arm kind).tollhouse = s.tollhouse := by simp [State.restartWrite]

@[simp] theorem State.linkEnWrite_tollhouse (s n v) :
    (State.linkEnWrite s n v).tollhouse = s.tollhouse := by simp [State.linkEnWrite]

@[simp] theorem State.retrainWrite_tollhouse (s v) :
    (State.retrainWrite s v).tollhouse = s.tollhouse := by simp [State.retrainWrite]

@[simp] theorem State.cfgWrite_tollhouse (s a v) : (State.cfgWrite s a v).tollhouse = s.tollhouse := by
  unfold State.cfgWrite
  split <;> simp

@[simp] theorem State.cfgPart_tollhouse (s r a v) :
    (State.cfgPart s r a v).tollhouse = s.tollhouse := by simp [State.cfgPart]

@[simp] theorem State.hwPart_tollhouse (s r a v m) :
    (State.hwPart s r a v m).tollhouse = s.tollhouse := by simp [State.hwPart]

@[simp] theorem State.regWrite_tollhouse (s a v m) : (State.regWrite s a v m).tollhouse = s.tollhouse := by
  unfold State.regWrite
  repeat' split
  all_goals simp

@[simp] theorem State.barDrop_tollhouse (s a cause) : (State.barDrop s a cause).tollhouse = s.tollhouse := (rfl)

@[simp] theorem State.barWrite_tollhouse (s a v window) : (State.barWrite s a v window).tollhouse = s.tollhouse := by
  unfold State.barWrite
  split <;> simp

@[simp] theorem State.barDword_tollhouse (s write off v) : (State.barDword s write off v).2.tollhouse = s.tollhouse := by
  simp only [State.barDword]
  repeat' split
  all_goals simp

@[simp] theorem State.barTo_tollhouse (s a v) : (State.barTo s a v).tollhouse = s.tollhouse := by simp [State.barTo]

@[simp] theorem State.barUnaligned_tollhouse (s write off) :
    (State.barUnaligned s write off).tollhouse = s.tollhouse := by simp [State.barUnaligned]

@[simp] theorem execRegisterWrite_tollhouse (off v s) :
    tollhouseAfter (execRegisterWrite off v s) = some s.tollhouse := by simp [execRegisterWrite]

@[simp] theorem execBarNarrowAccess_tollhouse (write half off v s) :
    tollhouseAfter (execBarNarrowAccess write half off v s) = some s.tollhouse := by simp [execBarNarrowAccess]

@[simp] theorem execBarUnalignedAccess_tollhouse (write off s) :
    tollhouseAfter (execBarUnalignedAccess write off s) = some s.tollhouse := by simp [execBarUnalignedAccess]

@[simp] theorem State.barParts_tollhouse (s write off enables ds) :
    (State.barParts s write off enables ds).tollhouse = s.tollhouse := by
  induction ds generalizing s off enables with
  | nil => rfl
  | cons d ds ih => simp [State.barParts, ih]

@[simp] theorem execBarWideAccess_tollhouse (write off dwords s) :
    tollhouseAfter (execBarWideAccess write off dwords s) = some s.tollhouse := by simp [execBarWideAccess]

@[simp] theorem execBarWindowPoweredOff_tollhouse (write off v s) :
    tollhouseAfter (execBarWindowPoweredOff write off v s) = some s.tollhouse := by simp [execBarWindowPoweredOff]

@[simp] theorem execExactHashcfgWrite_tollhouse (v s) :
    tollhouseAfter (execExactHashcfgWrite v s) = some s.tollhouse := by simp [execExactHashcfgWrite]

@[simp] theorem execBerthPoolcfgWrite_tollhouse (pool v s) :
    tollhouseAfter (execBerthPoolcfgWrite pool v s) = some s.tollhouse := by simp [execBerthPoolcfgWrite]

@[simp] theorem execHostflagWrite_tollhouse (v s) :
    tollhouseAfter (execHostflagWrite v s) = some s.tollhouse := by simp [execHostflagWrite]

@[simp] theorem execEventInject_tollhouse (v s) :
    tollhouseAfter (execEventInject v s) = some s.tollhouse := by simp [execEventInject]

@[simp] theorem execEventInjectLog_tollhouse (i s) :
    tollhouseAfter (execEventInjectLog i s) = some s.tollhouse := by simp [execEventInjectLog]

@[simp] theorem execD2dRetrainRequest_tollhouse (m s) :
    tollhouseAfter (execD2dRetrainRequest m s) = some s.tollhouse := by simp [execD2dRetrainRequest]

@[simp] theorem State.mbxStart_tollhouse (s v dir) :
    (State.mbxStart s v dir).tollhouse = s.tollhouse := by simp [State.mbxStart]

@[simp] theorem execMailboxRead_tollhouse (v s) :
    tollhouseAfter (execMailboxRead v s) = some s.tollhouse := by simp [execMailboxRead]

@[simp] theorem execMailboxWrite_tollhouse (v s) :
    tollhouseAfter (execMailboxWrite v s) = some s.tollhouse := by simp [execMailboxWrite]

@[simp] theorem State.mbxEnd_tollhouse (s) : (State.mbxEnd s).tollhouse = s.tollhouse := by simp [State.mbxEnd]

@[simp] theorem execTvCheck_tollhouse (addr upA upB upC s) :
    tollhouseAfter (execTvCheck addr upA upB upC s) = some s.tollhouse := by simp [execTvCheck]

@[simp] theorem execRegRd_tollhouse (h p s) : tollhouseAfter (execRegRd h p s) = some s.tollhouse := by simp [execRegRd]

@[simp] theorem State.cmdWrite_tollhouse (s priv a v m) :
    (State.cmdWrite s priv a v m).tollhouse = s.tollhouse := by simp [State.cmdWrite]

@[simp] theorem State.regWrites_tollhouse (s priv a k vs) :
    (State.regWrites s priv a k vs).1.tollhouse = s.tollhouse := by
  induction vs generalizing s a k with
  | nil => rfl
  | cons v vs ih =>
    unfold State.regWrites
    split <;> simp [ih]

@[simp] theorem State.regHold_tollhouse (s w) : (State.regHold s w).tollhouse = s.tollhouse := (rfl)

@[simp] theorem State.regWrGo_tollhouse (s w) : (State.regWrGo s w).tollhouse = s.tollhouse := by simp [State.regWrGo]

@[simp] theorem State.regMaskGo_tollhouse (s w) :
    (State.regMaskGo s w).tollhouse = s.tollhouse := by simp [State.regMaskGo]

@[simp] theorem State.mbxWrGo_tollhouse (s w) : (State.mbxWrGo s w).tollhouse = s.tollhouse := by simp [State.mbxWrGo]

@[simp] theorem State.regGo_tollhouse (s w) : (State.regGo s w).tollhouse = s.tollhouse := by
  unfold State.regGo
  split <;> simp

@[simp] theorem State.regResume_tollhouse (s) : (State.regResume s).tollhouse = s.tollhouse := by simp [State.regResume]

@[simp] theorem State.regBegin_tollhouse (s op h p) :
    (State.regBegin s op h p).tollhouse = s.tollhouse := by simp [State.regBegin]

@[simp] theorem execPostedWriteDone_tollhouse (block s) :
    tollhouseAfter (execPostedWriteDone block s) = some s.tollhouse := by simp [execPostedWriteDone]

@[simp] theorem execMailboxDone_tollhouse (s) :
    tollhouseAfter (execMailboxDone s) = some s.tollhouse := by simp [execMailboxDone]

@[simp] theorem execRegWr_tollhouse (h p s) : tollhouseAfter (execRegWr h p s) = some s.tollhouse := by
  simp only [execRegWr]
  split <;> simp

@[simp] theorem execRegWrMask_tollhouse (h p s) : tollhouseAfter (execRegWrMask h p s) = some s.tollhouse := by
  simp only [execRegWrMask]
  split <;> simp

@[simp] theorem execMbxRd_tollhouse (h p s) : tollhouseAfter (execMbxRd h p s) = some s.tollhouse := by simp [execMbxRd]

@[simp] theorem execMbxWr_tollhouse (h p s) : tollhouseAfter (execMbxWr h p s) = some s.tollhouse := by
  simp only [execMbxWr]
  split <;> simp

/-! ### One tick of the tollhouse's 50 MHz clock with no command at hand -/

@[simp] theorem State.hourEnds_tollhouse (s) : (State.hourEnds s).tollhouse = s.tollhouse :=
  foldl_tollhouse (fun _ _ => State.putStack_tollhouse ..) _ _

@[simp] theorem State.countCycles_tollhouse (s) :
    (State.countCycles s).tollhouse = s.tollhouse := by simp [State.countCycles]

@[simp] theorem State.tick_tollhouse (s) : (State.tick s).tollhouse = s.tollhouse := by simp [State.tick]

/-! ### The step -/

@[simp] theorem State.withFetchWord_tollhouse (s nbits w) :
    (State.withFetchWord s nbits w).tollhouse = s.tollhouse := (rfl)

/-! ## O3 and O4 -/

/-- A meaning answers a next state, and keeps the tollhouse's domain on: all but the resets, the boundary scan and a wake's end
leave it as it was, a reset puts it at rest, which is on, and a wake ends for a domain that is waking alone. -/
theorem exec_keepsOn (c : Instr) (s : State) : KeepsOn s (exec c s) := by
  cases c
  case domainWakeComplete dom => exact execDomainWakeComplete_keepsOn dom s
  case resetNRelease n => exact execResetNRelease_keepsOn n s
  case railsOkFall n => exact execRailsOkFall_keepsOn n s
  case watchdogExpire => exact execWatchdogExpire_keepsOn s
  case restartCold => exact execRestartCold_keepsOn s
  case restartWarm => exact execRestartWarm_keepsOn s
  case extest x => exact execExtest_keepsOn x s
  case extestPulse x => exact execExtestPulse_keepsOn x s
  case extestTrain x => exact execExtestTrain_keepsOn x s
  case clamp => exact execClamp_keepsOn s
  case highz => exact execHighz_keepsOn s
  case tollhouseSupplyInRange a b c => exact execTollhouseSupplyInRange_keepsOn a b c s
  case tollhouseSupplyLoss => exact execTollhouseSupplyLoss_keepsOn s
  all_goals exact keepsOn_of_tollhouseAfter (by simp)

theorem tollhouseOn_iff (s : State) : TollhouseOn s ↔ s.tollhouse = 0 := by
  rw [TollhouseOn, s.domain_zero]

/-- Settles O3: every meaning answers a next state, and a step is the front command's meaning or a tick. -/
theorem everyCommandIsServed : Obligations.EveryCommandIsServed := by
  unfold Obligations.EveryCommandIsServed Runs step
  have served (c : Instr) (s : State) : ∃ t, exec c s = .next t := (exec_keepsOn c s).imp fun _ h => h.1
  refine ⟨served, fun s => ?_⟩
  split
  · exact ⟨_, rfl⟩
  · exact served _ _

/-- Settles O4: every meaning keeps the tollhouse's domain on, a tick leaves it as it was, and a step is one of the two. -/
theorem everyStepKeepsTheTollhouseOn : Obligations.EveryStepKeepsTheTollhouseOn := by
  unfold Obligations.EveryStepKeepsTheTollhouseOn
  simp only [tollhouseOn_iff]
  have kept (c : Instr) (s t : State) (on : s.tollhouse = 0) (runs : exec c s = .next t) : t.tollhouse = 0 := by
    obtain ⟨u, next, keeps⟩ := exec_keepsOn c s
    cases runs.symm.trans next
    exact keeps on
  refine ⟨kept, fun s t on runs => ?_⟩
  unfold step at runs
  split at runs
  · cases runs
    rw [State.tick_tollhouse, on]
  next c rest _ => exact kept c { s with pending := rest } t on runs

end Sys2Proof.Machine
end

section
/-! SUPPORT. The order of a command's checks (R580), from the definition of `runCommand`, and O5. -/

namespace Sys2Proof.Machine

/-- The first condition that holds decides the reply (R580). -/
theorem runCommand_of_find {op : Nat} {h : Hdr} {p : List Word} {bad perm mode : Bool} {rest : List (Bool × Byte)}
    {eff : State → State × Byte × List Word} {s : State} {c : Bool × Byte}
    (first : ([(bad, codeBadParam), (perm, codeNotPermitted), (mode, codeModeWrong),
      (s.mirrorRefuses op h, codeNotActing)] ++ rest).find? (·.1) = some c) :
    runCommand op h p bad perm mode rest eff s = s.finish op h p.length c.2 [] := by
  rw [runCommand, first]

/-- Of a list of conditions the first that holds is found after those that do not. -/
theorem find_first_true {l1 l2 : List (Bool × Byte)} {c : Byte} (clear : ∀ x ∈ l1, x.1 = false) :
    (l1 ++ (true, c) :: l2).find? (·.1) = some (true, c) := by
  have none : l1.find? (·.1) = none := List.find?_eq_none.mpr fun x hx => by simp [clear x hx]
  simp [none]

/-- Settles O5: each condition that holds is the first of the list once those before it are false. -/
theorem checksDecideInOrder : Obligations.ChecksDecideInOrder := by
  unfold Obligations.ChecksDecideInOrder
  intro op h p bad perm mode rest eff s r
  refine ⟨?_, ?_, ?_, ?_, fun hbad hperm hmode hacts => ⟨?_, fun clear => ?_⟩⟩
  · rintro rfl
    exact runCommand_of_find (c := (true, codeBadParam)) (by simp)
  · rintro rfl rfl
    exact runCommand_of_find (c := (true, codeNotPermitted)) (by simp)
  · rintro rfl rfl rfl
    exact runCommand_of_find (c := (true, codeModeWrong)) (by simp)
  · intro hbad hperm hmode refuses
    exact runCommand_of_find (c := (true, codeNotActing)) (by simp [hbad, hperm, hmode, refuses])
  · rintro l1 c l2 rfl clear
    refine runCommand_of_find (c := (true, c)) ?_
    simp [hbad, hperm, hmode, hacts, find_first_true clear]
  · exact runCommand_ok hbad hperm hmode hacts clear

end Sys2Proof.Machine
end

section
/-! SUPPORT. The action instructions (R199 to R203, R215), each read through `issue_fetches`, and O11 to O15. -/

namespace Sys2Proof.Machine

/-! ## Agreement of two states outside some parts -/

/-- Part by part. -/
theorem onlyIn_iff {ps : List Part} {s t : State} : OnlyIn ps s t ↔
    (.pending ∉ ps → t.pending = s.pending) ∧ (.free ∉ ps → t.free = s.free) ∧ (.cfg ∉ ps → t.cfg = s.cfg) ∧
    (.time ∉ ps → t.time = s.time) ∧ (.ev ∉ ps → t.ev = s.ev) ∧ (.host ∉ ps → t.host = s.host) ∧ (.wr ∉ ps → t.wr = s.wr) ∧
    (.pwr ∉ ps → t.pwr = s.pwr) ∧ (.pins ∉ ps → t.pins = s.pins) ∧ (.fw ∉ ps → t.fw = s.fw) ∧ (.store ∉ ps → t.store = s.store) ∧
    (.mem ∉ ps → t.mem = s.mem) ∧ (.spares ∉ ps → t.spares = s.spares) ∧ (.pair ∉ ps → t.pair = s.pair) ∧
    (.test ∉ ps → t.test = s.test) ∧ (.line ∉ ps → t.line = s.line) ∧ (.oam ∉ ps → t.oam = s.oam) ∧ (.cnt ∉ ps → t.cnt = s.cnt) ∧
    (.fd ∉ ps → t.fd = s.fd) ∧ (.td ∉ ps → t.td = s.td) := by
  constructor
  · exact fun h => ⟨h _, h _, h _, h _, h _, h _, h _, h _, h _, h _, h _, h _, h _, h _, h _, h _, h _, h _, h _, h _⟩
  · rintro ⟨h1, h2, h3, h4, h5, h6, h7, h8, h9, h10, h11, h12, h13, h14, h15, h16, h17, h18, h19, h20⟩ p out
    cases p
    exacts [h1 out, h2 out, h3 out, h4 out, h5 out, h6 out, h7 out, h8 out, h9 out, h10 out, h11 out, h12 out, h13 out, h14 out,
      h15 out, h16 out, h17 out, h18 out, h19 out, h20 out]

theorem OnlyIn.refl (ps : List Part) (s : State) : OnlyIn ps s s := by simp [onlyIn_iff]

theorem OnlyIn.mono {ps qs : List Part} {s t : State} (h : OnlyIn ps s t) (sub : ps ⊆ qs) : OnlyIn qs s t :=
  fun p out => h p fun within => out (sub within)

theorem OnlyIn.trans {ps : List Part} {s t u : State} (h : OnlyIn ps s t) (k : OnlyIn ps t u) : OnlyIn ps s u := by
  intro p out
  have first := h p out
  have second := k p out
  cases p <;> exact second.trans first

/-! ## Arithmetic and fields -/

theorem bits_lt {n : Nat} (w : BitVec n) (hi lo : Nat) : bits w hi lo < 2 ^ (hi + 1 - lo) := Nat.mod_lt _ (by positivity)

/-- MOVH's result (R201): IMM above, the low half kept. -/
theorem putBits_upper (d : Word64) (imm : Word) :
    putBits d 63 32 imm.toNat = (imm.setWidth 64 <<< 32) ||| (d &&& 0xFFFFFFFF#64) := by
  refine BitVec.eq_of_getLsbD_eq fun i hi => ?_
  rw [getLsbD_putBits]
  have low : (0xFFFFFFFF#64).getLsbD i = decide (i < 32) := by
    rw [show (0xFFFFFFFF#64) = BitVec.ofNat 64 (2 ^ 32 - 1) from rfl, BitVec.getLsbD_ofNat, Nat.testBit_two_pow_sub_one]
    simp [hi]
  simp only [BitVec.getLsbD_or, BitVec.getLsbD_and, BitVec.getLsbD_shiftLeft, BitVec.getLsbD_setWidth, low]
  by_cases upper : 32 ≤ i
  · have inside : i - 32 < 64 := by omega
    simp [upper, hi, Nat.not_lt.mpr upper, BitVec.getLsbD, inside]
  · simp [upper, Nat.not_le.mp upper]

/-- EXT's result (R201): a field of A, as division and remainder and as shift and mask. -/
theorem field_eq_shift_mask (a : Word64) (place w : Nat) :
    BitVec.ofNat 64 (a.toNat / 2 ^ place % 2 ^ w) = (a >>> place) &&& BitVec.ofNat 64 (2 ^ w - 1) := by
  refine BitVec.eq_of_getLsbD_eq fun i hi => ?_
  simp only [BitVec.getLsbD_ofNat, BitVec.getLsbD_and, BitVec.getLsbD_ushiftRight, Nat.testBit_two_pow_sub_one,
    Nat.testBit_mod_two_pow, Nat.testBit_div_two_pow, BitVec.testBit_toNat, hi, decide_true, Bool.true_and]
  rw [Nat.add_comm, Bool.and_comm]

/-- INS's result (R201), bit by bit: the field comes from A, the rest from D. -/
theorem getLsbD_insert (d a : Word64) (place w i : Nat) (hw : 0 < w) (hi : i < 64) :
    (putBits d (place + w - 1) place (a.toNat % 2 ^ w)).getLsbD i
      = if place ≤ i ∧ i < place + w then a.getLsbD (i - place) else d.getLsbD i := by
  rw [getLsbD_putBits, show place + w - 1 + 1 = place + w by omega]
  split
  next inside => simp [hi, Nat.testBit_mod_two_pow, BitVec.testBit_toNat, show i - place < w by omega]
  next => rfl

/-- Settles O11: each of these instructions sets D with its result (`issueReg_fetches`); what is left is how MOVH, EXT and INS
place their bits. -/
theorem threadArithmeticCompletes : Obligations.ThreadArithmeticCompletes := by
  unfold Obligations.ThreadArithmeticCompletes
  intro x t s op2 w place sets
  refine ⟨?_, ?_, ?_, ?_, ?_, ?_, ?_, ?_, ?_, ?_, ?_, ?_, ?_⟩ <;> intro fetched
  · rw [exec_add, execAdd, issueReg_fetches fetched]; rfl
  · rw [exec_sub, execSub, issueReg_fetches fetched]; rfl
  · rw [exec_and, execAnd, issueReg_fetches fetched]; rfl
  · rw [exec_or, execOr, issueReg_fetches fetched]; rfl
  · rw [exec_xor, execXor, issueReg_fetches fetched]; rfl
  · rw [exec_shl, execShl, issueReg_fetches fetched]; rfl
  · rw [exec_shr, execShr, issueReg_fetches fetched]; rfl
  · rw [exec_movi, execMovi, issueReg_fetches fetched]
  · rw [exec_movh, execMovh, issueReg_fetches fetched, putBits_upper]; rfl
  · rw [exec_ext, execExt, issueReg_fetches fetched, field_eq_shift_mask]; rfl
  · exact ⟨_, by rw [exec_ins, execIns, issueReg_fetches fetched]; rfl, fun i hi => getLsbD_insert _ _ _ _ i (Nat.succ_pos _) hi⟩
  · rw [exec_ldh, execLdh, issueReg_fetches fetched]; rfl
  · rw [exec_hash, execHash, issueReg_fetches fetched]; rfl

/-! ## Fields, counters, edits and punts -/

/-- LDF of a selector below 0x20 other than LKSTAT's that holds a value reads it and draws nothing (R199). -/
theorem Thread.field_of_input {t : Thread} {sel : Nat} {s : State} {v : Word64} (low : sel < 0x20) (other : sel ≠ 0x0B)
    (held : tfind t.inputs sel = some v) : t.field sel s = (v, s) := by
  unfold Thread.field
  rw [if_neg (by omega)]
  split
  case h_1 => exact absurd rfl other
  case h_2 | h_3 | h_4 | h_5 | h_6 => omega
  case h_7 => rw [held]

/-- No output field has a selector below 0x20 (R199). -/
theorem Thread.setField_of_low {t : Thread} {sel : Nat} (v : Word64) (low : sel < 0x20) : t.setField sel v = t := by
  unfold Thread.setField
  split
  · rfl
  · split
    case h_1 | h_2 | h_3 | h_4 | h_5 => omega
    case h_6 => rfl

/-- Settles O12: each instruction costs one cycle, and what it leaves is read from its own clause of R199, R201 and R202. -/
theorem threadFieldsComplete : Obligations.ThreadFieldsComplete := by
  unfold Obligations.ThreadFieldsComplete
  intro x t s u
  refine ⟨fun v fetched low other held => ?_, fun fetched sel => ?_, fun fetched ingress => ⟨fun sel => ?_, fun sel => ?_,
    fun low => ?_⟩, fun fetched => ?_, fun fetched egress room => ?_, fun fetched copy => ?_⟩
  · have read : (t.goes 1 0 t.pc).field (bits x.imm 7 0) s = (v, s) := Thread.field_of_input low other held
    rw [exec_ldf, execLdf, issue_fetches fetched rfl rfl, read]; rfl
  · rw [exec_ldf, execLdf, issue_fetches fetched rfl rfl, sel]; rfl
  · rw [exec_stf, execStf, issue_fetches fetched rfl rfl, sel]
    simp [Thread.setField, Thread.goes, ingress, State.settle, u]; rfl
  · rw [exec_stf, execStf, issue_fetches fetched rfl rfl, sel]
    simp [Thread.setField, Thread.goes, ingress, State.settle, u]; rfl
  · rw [exec_stf, execStf, issue_fetches fetched rfl rfl, Thread.setField_of_low _ low]; rfl
  · rw [exec_cnt, execCnt, issue_fetches fetched rfl rfl]; rfl
  · have egressGoes : (t.goes 1 0 t.pc).eg.isNone = false := by simpa [Thread.goes, Option.isSome_iff_ne_none] using egress
    have roomGoes : ¬ 8 ≤ (t.goes 1 0 t.pc).edits.length := by simpa [Thread.goes] using room
    rw [exec_edit, execEdit, issue_fetches fetched rfl rfl]
    simp only [egressGoes, roomGoes, Bool.false_eq_true, if_false]
    rfl
  · rw [exec_punt, execPunt, issue_fetches fetched rfl rfl]
    simp only [copy, if_true]
    rfl

/-! ## Lookups and meters -/

/-- A lookup that answers with status bits 0 leaves its result on the way to D (R201). -/
theorem issueLook_answers {opc : Nat} {x : ActOp} {look : Thread → State → LkRes × State} {t : Thread} {s s1 : State}
    {st v : Word64} (fetched : Fetches opc x 2 1 t s) (answer : look (t.goes 2 1 t.pc) s = (.val st v, s1))
    (good : bits st 1 0 = 0) :
    s.issueLook opc x look = .next (s1.putThread { t.goes 2 1 (t.pc + 1) with wait := some ⟨x.d, v, some st, none⟩ }) := by
  rw [State.issueLook, issue_fetches fetched rfl rfl]
  simp only [answer, State.resultOr, good, if_true]
  rfl

/-- Settles O13: a lookup's meaning is its table's, which `issueLook_answers` puts on the way to D. -/
theorem threadLookupsComplete : Obligations.ThreadLookupsComplete := by
  unfold Obligations.ThreadLookupsComplete
  intro x t s u answers asked
  refine ⟨fun fetched st v s1 answer good => ?_, fun fetched st v s1 answer good => ?_, fun fetched st v s1 answer good => ?_,
    fun col s1 fetched metered => ?_, fun id w runs waits => ?_⟩
  · rw [exec_lke, execLke]; exact issueLook_answers fetched answer good
  · rw [exec_lkl, execLkl]; exact issueLook_answers fetched answer good
  · rw [exec_lka, execLka]; exact issueLook_answers fetched answer good
  · rw [exec_mtr, execMtr, issue_fetches fetched rfl rfl]
    have same : (s.count 0x06 0 3 (some (64 + (t.goes 2 1 t.pc).slice)) none 0).meter (bits ((t.goes 2 1 t.pc).reg x.a) 16 0)
      (t.goes 2 1 t.pc).pkt.pkt.bytes.length (bit x.imm 0) (t.goes 2 1 t.pc).colour x.flt.meter = (col, s1) := metered
    simp only [same]
    rfl
  · simp only [exec_actionLookupComplete, execActionLookupComplete, runs, waits]

/-! ## Branches and ends -/

/-- A compare whose operands satisfy it branches (R201). -/
theorem branch_taken {opc : Nat} {x : ActOp} {c : Nat → Nat → Bool} {t : Thread} {s : State} (fetched : Fetches opc x 2 0 t s)
    (holds : c (cmpPair x t).1 (cmpPair x t).2 = true) :
    s.branch opc x c = .next (s.putThread (t.goes 2 0 (bits x.imm 13 0))) := by
  have goes : c (cmpPair x (t.goes 2 0 t.pc)).1 (cmpPair x (t.goes 2 0 t.pc)).2 = true := holds
  rw [State.branch, issue_fetches fetched (by simp only [holds, if_true]) rfl]
  simp only [goes, if_true]
  rfl

/-- One whose operands do not goes on (R201). -/
theorem branch_not_taken {opc : Nat} {x : ActOp} {c : Nat → Nat → Bool} {t : Thread} {s : State}
    (fetched : Fetches opc x 1 0 t s) (fails : c (cmpPair x t).1 (cmpPair x t).2 = false) :
    s.branch opc x c = .next (s.putThread (t.goes 1 0 (t.pc + 1))) := by
  have goes : c (cmpPair x (t.goes 1 0 t.pc)).1 (cmpPair x (t.goes 1 0 t.pc)).2 = false := fails
  rw [State.branch, issue_fetches fetched (by simp only [fails, Bool.false_eq_true, if_false]) rfl]
  simp only [goes, Bool.false_eq_true, if_false]
  rfl

/-- The operands as naturals, the second zero-extended from IMM[31:16] where I is 1. -/
theorem cmpPair_eq (x : ActOp) (t : Thread) :
    cmpPair x t = ((t.reg x.a).toNat, (if x.i then BitVec.ofNat 64 (bits x.imm 31 16) else t.reg x.b).toNat) := by
  have small : bits x.imm 31 16 < 2 ^ 64 := lt_of_lt_of_le (bits_lt _ _ _) (by norm_num)
  unfold cmpPair
  split
  · rw [BitVec.toNat_ofNat, Nat.mod_eq_of_lt small]
  · rfl

/-- Settles O14: each compare's condition on words is its condition on naturals, and the ends are read from their clauses. -/
theorem threadControlCompletes : Obligations.ThreadControlCompletes := by
  unfold Obligations.ThreadControlCompletes
  refine ⟨fun x t s => ?_, fun x t s => ?_⟩
  · intro a b taken not
    refine ⟨⟨fun fetched eq => ?_, fun fetched ne => ?_⟩, ⟨fun fetched ne => ?_, fun fetched eq => ?_⟩,
      ⟨fun fetched lt => ?_, fun fetched le => ?_⟩, ⟨fun fetched le => ?_, fun fetched lt => ?_⟩, fun fetched => ?_⟩
    · exact branch_taken fetched (by rw [cmpPair_eq]; simpa using congrArg BitVec.toNat eq)
    · exact branch_not_taken fetched (by rw [cmpPair_eq]; simpa [BitVec.toNat_inj] using ne)
    · exact branch_taken fetched (by rw [cmpPair_eq]; simpa [BitVec.toNat_inj] using ne)
    · exact branch_not_taken fetched (by rw [cmpPair_eq]; simpa using congrArg BitVec.toNat eq)
    · rw [exec_blt, execBlt]
      exact branch_taken fetched (by rw [cmpPair_eq]; exact decide_eq_true lt)
    · rw [exec_blt, execBlt]
      exact branch_not_taken fetched (by rw [cmpPair_eq]; exact decide_eq_false (Nat.not_lt.mpr le))
    · rw [exec_bge, execBge]
      exact branch_taken fetched (by rw [cmpPair_eq]; exact decide_eq_true le)
    · rw [exec_bge, execBge]
      exact branch_not_taken fetched (by rw [cmpPair_eq]; exact decide_eq_false (Nat.not_le.mpr lt))
    · rw [exec_jmp, execJmp, issue_fetches fetched rfl rfl]; rfl
  · intro u
    refine ⟨fun fetched allowed => ?_, fun fetched => ?_, fun fetched ends => ?_⟩
    · have goes : ((t.goes 1 0 t.pc).eg.isNone && (t.goes 1 0 t.pc).queue.isNone) = false := by
        simpa [Thread.goes, Option.isSome_iff_ne_none, imp_iff_not_or] using allowed
      rw [exec_fwd, execFwd, issue_fetches fetched rfl rfl]
      simp only [goes, Bool.false_eq_true, if_false]
      rfl
    · rw [exec_drop, execDrop, issue_fetches fetched rfl rfl]; rfl
    · rw [exec_punt, execPunt, issue_fetches fetched rfl rfl]
      simp only [ends, Bool.false_eq_true, if_false]
      rfl

/-! ## Faults -/

/-- An instruction past its program's cycles faults with cause 0 (R203). -/
theorem issue_cycles_fault {opc cost : Nat} {x : ActOp} {l : Bool} {eff : Thread → State → Issued × State} {t : Thread} {s : State}
    (ready : s.ready x.thread = some t) (parity : x.parity = true) (word : s.codeWord t.pc = insnWord x opc)
    (past : 1024 < t.cycles + cost) :
    s.issue opc x (fun _ => cost) l eff = .next (s.progFault (t.goes cost (b01 l) t.pc) 0) := by
  simp [State.issue, ready, parity, word, past, Thread.goes]

/-- A lookup past its program's eight faults with cause 1 (R203). -/
theorem issue_looks_fault {opc cost : Nat} {x : ActOp} {eff : Thread → State → Issued × State} {t : Thread} {s : State}
    (ready : s.ready x.thread = some t) (parity : x.parity = true) (word : s.codeWord t.pc = insnWord x opc)
    (within : t.cycles + cost ≤ 1024) (past : 8 ≤ t.looks) :
    s.issue opc x (fun _ => cost) true eff = .next (s.progFault (t.goes cost 1 t.pc) 1) := by
  simp [State.issue, ready, parity, word, Nat.not_lt.mpr within, Thread.goes, b01, Nat.not_lt.mpr past]

/-- A fetch that fails parity drops the packet and notes the error (R215). -/
theorem issue_parity_fails {opc : Nat} {x : ActOp} {c : Thread → Nat} {l : Bool} {eff : Thread → State → Issued × State}
    {t : Thread} {s : State} (ready : s.ready x.thread = some t) (parity : x.parity = false) :
    s.issue opc x c l eff = .next (((t.bump 18 26 s).finishThread t .drop).parityError t.slice t.pc) := by
  simp [State.issue, ready, parity]

/-- In a slice with MCHK clear and nothing being rewritten a parity error sets MCHK, with event 0x0C0 (R215). -/
theorem State.parityError_first {u : State} {l pc : Nat} (clear : u.fd.eng.mchk.contains l = false)
    (fresh : tget none0 u.fd.eng.rewriting l = none) :
    u.parityError l pc = (u.setEng { u.fd.eng with
      rewriting := tset none0 u.fd.eng.rewriting l (some (pc, u.mono)), mchk := u.fd.eng.mchk ++ [l] }).post 0x0C0 [d16 l, d16 pc] := by
  simp only [State.parityError, fresh, Bool.false_eq_true, if_false, State.setEng_fd, clear]
  rfl

/-- Settles O15. -/
theorem threadFaults : Obligations.ThreadFaults := by
  unfold Obligations.ThreadFaults
  refine ⟨fun x t s ready parity => ?_, fun x t s ready parity => ⟨?_, fun u l pc clear fresh => ?_⟩⟩
  · intro faults
    refine ⟨fun word past => ?_, fun word within past => ?_, fun word within past => ?_, fun fetched ingress => ?_,
      fun fetched ingress unset => ?_, fun fetched egress full => ?_⟩
    · rw [exec_add, execAdd, State.issueReg]
      exact issue_cycles_fault ready parity word (by omega)
    · rw [exec_lke, execLke, State.issueLook]
      exact issue_looks_fault ready parity word within past
    · rw [exec_mtr, execMtr]
      exact issue_looks_fault ready parity word within past
    · have goes : (t.goes 1 0 t.pc).eg.isNone = true := by simp [Thread.goes, ingress]
      rw [exec_edit, execEdit, issue_fetches fetched rfl rfl]
      simp only [goes, if_true]
      rfl
    · have goes : ((t.goes 1 0 t.pc).eg.isNone && (t.goes 1 0 t.pc).queue.isNone) = true := by
        simp [Thread.goes, ingress, unset]
      rw [exec_fwd, execFwd, issue_fetches fetched rfl rfl]
      simp only [goes, if_true]
      rfl
    · have egressGoes : (t.goes 1 0 t.pc).eg.isNone = false := by simpa [Thread.goes, Option.isSome_iff_ne_none] using egress
      have fullGoes : 8 ≤ (t.goes 1 0 t.pc).edits.length := full
      rw [exec_edit, execEdit, issue_fetches fetched rfl rfl]
      simp only [egressGoes, fullGoes, Bool.false_eq_true, if_false, if_true]
      rfl
  · rw [exec_add, execAdd, State.issueReg]
    exact issue_parity_fails ready parity
  · rw [State.parityError_first clear fresh]
    exact ⟨rfl, rfl, by simp [onlyIn_iff, State.post]⟩

end Sys2Proof.Machine
end

section
/-! SUPPORT. The rule versions (R121 to R125) and O16. -/

namespace Sys2Proof.Machine

/-- A command that takes effect, from its meaning as `runCommand` writes it: no condition holds, and `eff` answers what is
claimed. -/
theorem TakesEffect.of_runCommand {c : Hdr → List Word → Instr} {op : Nat} {h : Hdr} {p : List Word} {bad perm mode : Bool}
    {rest : List (Bool × Byte)} {eff : State → State × Byte × List Word} {s u : State} {code : Byte} {rs : List Word}
    (meaning : exec (c h p) s = .next (runCommand op h p bad perm mode rest eff s)) (hb : bad = false) (hp : perm = false)
    (hm : mode = false) (acts : s.mirrorRefuses op h = false) (hr : ∀ x ∈ rest, x.1 = false) (does : eff s = (u, code, rs)) :
    TakesEffect c op h p s u code rs := by
  rw [TakesEffect, meaning, runCommand_ok hb hp hm acts hr, does]

/-- As `TakesEffect.of_runCommand`, for an effect that answers OK. -/
theorem TakesEffect.of_runSimple {c : Hdr → List Word → Instr} {op : Nat} {h : Hdr} {p : List Word} {bad perm mode : Bool}
    {rest : List (Bool × Byte)} {eff : State → State} {s u : State}
    (meaning : exec (c h p) s = .next (runSimple op h p bad perm mode rest eff s)) (hb : bad = false) (hp : perm = false)
    (hm : mode = false) (acts : s.mirrorRefuses op h = false) (hr : ∀ x ∈ rest, x.1 = false) (does : eff s = u) :
    TakesEffect c op h p s u codeOk [] := by
  rw [TakesEffect, meaning, runSimple_ok hb hp hm acts hr, does]

/-! ## The switch of rule versions -/

theorem State.curVer_switchRules {s : State} {k : Nat} {b : RuleBank} (staged : s.fd.rules.stage = some (k, b)) :
    s.switchRules.curVer = b.version := by
  simp only [State.switchRules, staged]; rfl

theorem State.rules_switchRules {s : State} {k : Nat} {b : RuleBank} (staged : s.fd.rules.stage = some (k, b)) :
    s.switchRules.fd.rules.cur = k ∧ s.switchRules.fd.rules.stage = none ∧ s.switchRules.fd.rules.sched = none := by
  simp only [State.switchRules, staged]
  exact ⟨rfl, rfl, rfl⟩

theorem State.onlyIn_switchRules (s : State) : OnlyIn [.cfg, .wr, .fd] s s.switchRules := by
  unfold State.switchRules
  split
  · exact OnlyIn.refl _ _
  · simp [onlyIn_iff]

theorem State.onlyIn_setRules (s : State) (r : Rules) : OnlyIn [.fd] s (s.setRules r) := by simp [onlyIn_iff]

/-- Settles O16. -/
theorem ruleVersionsComplete : Obligations.RuleVersionsComplete := by
  unfold Obligations.RuleVersionsComplete
  intro h p s wide mode
  refine ⟨?begin, ?stage, ?commit, ?abort, ?switch, ?switched⟩
  case begin =>
    intro k length zeros priv acts noStage free
    refine ⟨s.setRules { s.fd.rules with
        old := s.oldBanks, stage := some (k, { s.cfg.fd.rules with version := pf p 0 31 16 }) },
      .of_runSimple (exec_clsBegin ..) ?_ ?_ mode acts ?_ ?_, rfl, rfl, rfl, s.onlyIn_setRules _⟩
    · simp [wide, length, zeros]
    · simpa using priv
    · simp [noStage, free]
    · simp [free]
  case stage =>
    intro obj words count k b obj_eq shape zeros fits length good staged unscheduled acts
    subst obj_eq
    have within : min (par p 1).toNat count = (par p 1).toNat := Nat.min_eq_left (by omega)
    refine ⟨s.setRules { s.fd.rules with
        stage := some (k, RuleBank.putAll _ (cutObjs words (par p 1).toNat (p.drop 2)) (pf p 0 12 0) b) },
      .of_runSimple (exec_clsStage ..) ?_ rfl rfl acts ?_ ?_, rfl, rfl, s.onlyIn_setRules _⟩
    · have two : 1 < 2 + (par p 1).toNat * words := by omega
      have all := List.all_eq_true.mp good
      simpa [wide, zeros, shape, fits, length, within, staged, two] using all
    · simp [unscheduled]
    · simp [shape, staged, within]
  case commit =>
    intro k b length zeros staged version unused unscheduled far acts
    have accepted : (!fdWide h || p.length != 3 || pf p 0 15 0 != 0
        || (match s.fd.rules.stage with | some b => b.2.version != pf p 0 31 16 | none => true)) = false := by
      simp [wide, length, zeros, staged, version]
    have clear : ∀ x ∈ [(s.verUsed (pf p 0 31 16), codeInUse),
        (s.fd.rules.sched.isSome || s.nearActivation (par64 p 1), codeBusy)], x.1 = false := by
      simp [← version, unused, unscheduled, far]
    refine ⟨fun later => ⟨s.setRules { s.fd.rules with sched := some (par64 p 1) },
      .of_runCommand (exec_clsCommit ..) accepted rfl rfl acts clear ?_, rfl, s.onlyIn_setRules _⟩,
      fun now => .of_runCommand (exec_clsCommit ..) accepted rfl rfl acts clear ?_⟩
    · simp [later]
    · simp [now]
  case abort =>
    rintro rfl acts
    exact ⟨_, .of_runSimple (exec_clsAbort ..) (by simp [wide]) rfl rfl acts (by simp) rfl, rfl, s.onlyIn_setRules _⟩
  case switch =>
    intro t scheduled reached
    simp only [exec_clsSwitch, execClsSwitch, scheduled, reached, if_true]
  case switched =>
    intro k b staged
    obtain ⟨cur, stage, sched⟩ := State.rules_switchRules staged
    exact ⟨State.curVer_switchRules staged, cur, stage, sched, s.onlyIn_switchRules⟩

end Sys2Proof.Machine
end

section
/-! SUPPORT. What ending a command may change, and O10. -/

namespace Sys2Proof.Machine

/-- Where the ending of a command may leave its mark: its reply, its access counts, its events and its mirroring. -/
def endParts : List Part := [.host, .cnt, .ev, .pair, .wr]

theorem State.onlyIn_count {s : State} {event addr cls : Nat} {master priv : Option Nat} {len : Nat} :
    OnlyIn endParts s (s.count event addr cls master priv len) := by
  simp [onlyIn_iff, endParts, State.count, State.countN]

theorem State.onlyIn_ringReply {s : State} {n : Nat} {quiet : Bool} {code : Byte} {ws : List Word} :
    OnlyIn endParts s (s.ringReply n quiet code ws) := by
  unfold State.ringReply State.putReply State.setRing
  split <;> simp [onlyIn_iff, endParts]

theorem State.onlyIn_tetherPut {s : State} {ttype : Byte} {payload : List Byte} :
    OnlyIn endParts s (s.tetherPut ttype payload) := by
  unfold State.tetherPut State.tetherSend
  split <;> simp [onlyIn_iff, endParts]

theorem State.onlyIn_diverge {s : State} {op : Nat} {own peer : Byte} : OnlyIn endParts s (s.diverge op own peer) := by
  simp [onlyIn_iff, endParts, State.diverge, State.post, State.hwBit, State.setHw]

theorem State.onlyIn_finish {s : State} {op : Nat} {h : Hdr} {np : Nat} {code : Byte} {rs : List Word} :
    OnlyIn endParts s (s.finish op h np code rs) := by
  simp only [State.finish]
  refine OnlyIn.trans (t := s.count 0x0B op h.prio.toNat none (some h.priv.toNat) 0) State.onlyIn_count ?_
  split
  · split
    · simp [onlyIn_iff, endParts, State.setRing]
    · exact State.onlyIn_ringReply
  · refine OnlyIn.trans ?_ State.onlyIn_tetherPut
    simp [onlyIn_iff, endParts]

theorem State.onlyIn_finishDone {s : State} {op : Nat} {h : Hdr} {p : List Word} {code : Byte} {rs : List Word} :
    OnlyIn endParts s (s.finishDone op h p code rs) := by
  unfold State.finishDone
  split
  · split
    · refine OnlyIn.trans (t := s.tetherPut 4 (commandPacket op h p)) State.onlyIn_tetherPut ?_
      simp [onlyIn_iff, endParts]
    · exact State.onlyIn_diverge.trans State.onlyIn_finish
  · exact State.onlyIn_finish

/-- A command whose effect changes no more than its ending may, changes no more. -/
theorem onlyIn_runCommand {eff : State → State × Byte × List Word} {s : State} (reads : OnlyIn endParts s (eff s).1)
    {op : Nat} {h : Hdr} {p : List Word} {bad perm mode : Bool} {rest : List (Bool × Byte)} :
    OnlyIn endParts s (runCommand op h p bad perm mode rest eff s) := by
  obtain ⟨c, -, rejected⟩ | done := runCommand_cases op h p bad perm mode rest eff s
  · rw [rejected]
    exact State.onlyIn_finish
  · rw [done]
    exact reads.trans State.onlyIn_finishDone

/-- A fold of steps that each change no more than `ps` changes no more. -/
theorem onlyIn_foldl {α : Type} {ps : List Part} {f : State → α → State} (keeps : ∀ s a, OnlyIn ps s (f s a)) (l : List α)
    (s : State) : OnlyIn ps s (l.foldl f s) := by
  induction l generalizing s with
  | nil => exact OnlyIn.refl ps s
  | cons a l ih => exact (keeps s a).trans (ih _)

/-- Settles O10: each of these commands is a `runCommand` whose effect answers the state it was given, or counts the accesses
of its registers. -/
theorem readsChangeNothingElse : Obligations.ReadsChangeNothingElse := by
  unfold Obligations.ReadsChangeNothingElse
  intro c member h p s
  simp only [List.mem_cons, List.not_mem_nil, or_false] at member
  have reads {eff : State → State × Byte × List Word} (same : OnlyIn endParts s (eff s).1) {op bad perm mode rest}
      (meaning : exec (c h p) s = .next (runCommand op h p bad perm mode rest eff s)) :
      ∃ t, exec (c h p) s = .next t ∧ OnlyIn endParts s t := ⟨_, meaning, onlyIn_runCommand same⟩
  obtain rfl | rfl | rfl | rfl | rfl | rfl | rfl | rfl | rfl | rfl | rfl | rfl | rfl | rfl | rfl | rfl | rfl := member
  · exact reads (OnlyIn.refl _ s) (exec_nop ..)
  · exact reads (OnlyIn.refl _ s) (exec_ident ..)
  · exact reads (onlyIn_foldl (fun _ _ => State.onlyIn_count) _ _) (exec_regRd ..)
  · exact reads State.onlyIn_count (exec_mbxRd ..)
  · exact reads (OnlyIn.refl _ s) (exec_lineStatus ..)
  · exact reads (OnlyIn.refl _ s) (exec_actRead ..)
  · exact reads (OnlyIn.refl _ s) (exec_tblSearch ..)
  · exact reads (OnlyIn.refl _ s) (exec_berthQlist ..)
  · exact reads (OnlyIn.refl _ s) (exec_mcGroupRead ..)
  · exact reads (OnlyIn.refl _ s) (exec_meterRead ..)
  · exact reads (OnlyIn.refl _ s) (exec_fabQmapRead ..)
  · exact reads (OnlyIn.refl _ s) (exec_pairHealth ..)
  · exact reads (OnlyIn.refl _ s) (exec_memHealth ..)
  · exact reads (OnlyIn.refl _ s) (exec_lifeRead ..)
  · exact reads (OnlyIn.refl _ s) (exec_patchList ..)
  · exact reads (OnlyIn.refl _ s) (exec_pwrStatus ..)
  · exact reads (OnlyIn.refl _ s) (exec_oamSessionRead ..)

end Sys2Proof.Machine
end

section
/-! SUPPORT. A tick gives no command, and O1. -/

namespace Sys2Proof.Machine

@[simp] theorem pending_ite (c : Prop) [Decidable c] (a b : State) :
    (if c then a else b).pending = if c then a.pending else b.pending := apply_ite ..

@[simp] theorem pending_fst_ite {α : Type} (c : Prop) [Decidable c] (a b : State × α) :
    (if c then a else b).1.pending = if c then a.1.pending else b.1.pending :=
  apply_ite (fun x : State × α => x.1.pending) ..

@[simp] theorem foldl_pending {α : Type} {f : State → α → State} (keeps : ∀ s a, (f s a).pending = s.pending)
    (l : List α) (s : State) : (l.foldl f s).pending = s.pending :=
  foldl_keeps State.pending keeps l s

@[simp] theorem State.setCfgReg_pending (s a v) :
    (State.setCfgReg s a v).pending = s.pending := by simp [State.setCfgReg]

@[simp] theorem State.hwBit_pending (s a i) : (State.hwBit s a i).pending = s.pending := (rfl)

@[simp] theorem State.post_pending (s src items) : (State.post s src items).pending = s.pending := (rfl)

@[simp] theorem State.postOnce_pending (s src subject items) :
    (State.postOnce s src subject items).pending = s.pending := (rfl)

@[simp] theorem State.bump_pending (s scope unit idx n) :
    (State.bump s scope unit idx n).pending = s.pending := (rfl)

@[simp] theorem State.countN_pending (s e n) : (State.countN s e n).pending = s.pending := (rfl)

@[simp] theorem State.count_pending (s event addr cls master priv len) :
    (State.count s event addr cls master priv len).pending = s.pending := (rfl)

@[simp] theorem State.countReg_pending (s a write master priv) :
    (State.countReg s a write master priv).pending = s.pending := (rfl)

@[simp] theorem State.hbm_pending (s region cls master) :
    (State.hbm s region cls master).pending = s.pending := (rfl)

@[simp] theorem State.drop_pending (s scope unit idx slice len) :
    (State.drop s scope unit idx slice len).pending = s.pending := by
  unfold State.drop
  split <;> simp

@[simp] theorem State.putFlitTx_pending (s k t) : (State.putFlitTx s k t).pending = s.pending := (rfl)

@[simp] theorem State.placeSend_pending (s x) : (State.placeSend s x).pending = s.pending := by
  unfold State.placeSend
  split <;> simp

@[simp] theorem State.resendAll_pending (s m) :
    (State.resendAll s m).pending = s.pending := by simp [State.resendAll]

@[simp] theorem State.flitTicks_pending (s) : (State.flitTicks s).pending = s.pending := by simp [State.flitTicks]

@[simp] theorem State.putReply_pending (s n ws) : (State.putReply s n ws).pending = s.pending := (rfl)

@[simp] theorem State.ringReply_pending (s n norply code ws) :
    (State.ringReply s n norply code ws).pending = s.pending := by simp [State.ringReply]

@[simp] theorem State.tetherSend_pending (s ttype flags ack payload) :
    (State.tetherSend s ttype flags ack payload).pending = s.pending := by simp [State.tetherSend]

@[simp] theorem State.tetherPut_pending (s ttype payload) :
    (State.tetherPut s ttype payload).pending = s.pending := by simp [State.tetherPut]

@[simp] theorem State.diverge_pending (s op own peer) : (State.diverge s op own peer).pending = s.pending := (rfl)

@[simp] theorem State.finish_pending (s op h npar code rs) :
    (State.finish s op h npar code rs).pending = s.pending := by
  unfold State.finish
  split <;> simp

@[simp] theorem State.finishDone_pending (s op h p code rs) :
    (State.finishDone s op h p code rs).pending = s.pending := by simp [State.finishDone]

@[simp] theorem State.mapHome_pending (s) : (State.mapHome s).pending = s.pending := State.setGang_pending ..

@[simp] theorem State.setCluster_pending (s c k) : (State.setCluster s c k).pending = s.pending := (rfl)

@[simp] theorem State.setXt_pending (s t) : (State.setXt s t).pending = s.pending := (rfl)

@[simp] theorem State.ageFrom_pending (s c tid) : (State.ageFrom s c tid).pending = s.pending := (rfl)

@[simp] theorem State.ageAnew_pending (s tids) :
    (State.ageAnew s tids).pending = s.pending := by simp [State.ageAnew]

@[simp] theorem State.hashCfgWrite_pending (s v) : (State.hashCfgWrite s v).pending = s.pending := (rfl)

@[simp] theorem State.stopWhere_pending (s f) : (State.stopWhere s f).pending = s.pending := by
  simp only [State.stopWhere]
  split
  · rfl
  · rw [State.post_pending]
    exact foldl_pending (fun s x => State.putPrbs_pending ..) _ _

@[simp] theorem State.stopRuns_pending (s type f) :
    (State.stopRuns s type f).pending = s.pending := by simp [State.stopRuns]

@[simp] theorem State.tickRuns_pending (s) : (State.tickRuns s).pending = s.pending := (rfl)

@[simp] theorem State.surge_pending (s) : (State.surge s).pending = s.pending := by simp [State.surge]

@[simp] theorem State.fabricWake_pending (s) :
    (State.fabricWake s).pending = s.pending := by simp [State.fabricWake]

@[simp] theorem State.fabricDown_pending (s) :
    (State.fabricDown s).pending = s.pending := by simp [State.fabricDown]

@[simp] theorem State.fabricFor_pending (s m) :
    (State.fabricFor s m).pending = s.pending := by simp [State.fabricFor]

@[simp] theorem State.enterMode_pending (s m) :
    (State.enterMode s m).pending = s.pending := by simp [State.enterMode]

@[simp] theorem State.dropRole_pending (s cause) :
    (State.dropRole s cause).pending = s.pending := by simp [State.dropRole]

@[simp] theorem State.endModeReq_pending (s r code) : (State.endModeReq s r code).pending = s.pending := by
  unfold State.endModeReq
  split <;> simp

@[simp] theorem State.noteHoldoff_pending (s) : (State.noteHoldoff s).pending = s.pending := (rfl)

@[simp] theorem State.judgeRole_pending (s) : (State.judgeRole s).pending = s.pending := by
  unfold State.judgeRole
  repeat' split
  all_goals simp

@[simp] theorem State.postYield_pending (s src items) :
    (State.postYield s src items).pending = s.pending := by simp [State.postYield]

@[simp] theorem State.poolCfgWrite_pending (s p v) : (State.poolCfgWrite s p v).pending = s.pending := by
  unfold State.poolCfgWrite
  dsimp only
  split
  · rw [State.post_pending, State.setCfgReg_pending]
  · exact State.setCfgReg_pending ..

@[simp] theorem State.putDir_pending (s m d x) : (State.putDir s m d x).pending = s.pending := (rfl)

@[simp] theorem State.retrain_pending (s m) : (State.retrain s m).pending = s.pending := by simp [State.retrain]

@[simp] theorem State.rcfgWrite_pending (s n v) :
    (State.rcfgWrite s n v).pending = s.pending := by simp [State.rcfgWrite]

@[simp] theorem State.ocfgWrite_pending (s m v) :
    (State.ocfgWrite s m v).pending = s.pending := by simp [State.ocfgWrite]

@[simp] theorem State.setMask_pending (s m) : (State.setMask s m).pending = s.pending :=
  foldl_pending (fun s _ => s.setCfgReg_pending _ _) _ _

@[simp] theorem State.tierCfgWrite_pending (s v) : (State.tierCfgWrite s v).pending = s.pending := (rfl)

@[simp] theorem State.putFlink_pending (s l x) : (State.putFlink s l x).pending = s.pending := (rfl)

@[simp] theorem State.linkOut_pending (s l) : (State.linkOut s l).pending = s.pending := by simp [State.linkOut]

@[simp] theorem State.linksFell_pending (before s) :
    (State.linksFell before s).pending = s.pending := by simp [State.linksFell]

@[simp] theorem State.ctrlReset_pending (s) : (State.ctrlReset s).pending = s.pending := by simp [State.ctrlReset]

@[simp] theorem State.restartLoads_pending (s) :
    (State.restartLoads s).pending = s.pending := by simp [State.restartLoads]

@[simp] theorem State.noteIdle_pending (s) : (State.noteIdle s).pending = s.pending := by simp [State.noteIdle]

@[simp] theorem State.bstatSet_pending (s a i) : (State.bstatSet s a i).pending = s.pending := (rfl)

@[simp] theorem State.wrLost_pending (s a) : (State.wrLost s a).pending = s.pending := (rfl)

@[simp] theorem State.timeCfgWrite_pending (s v) :
    (State.timeCfgWrite s v).pending = s.pending := by simp [State.timeCfgWrite]

@[simp] theorem State.maskWrite_pending (s n v) : (State.maskWrite s n v).pending = s.pending :=
  State.setMask_pending ..

@[simp] theorem State.restartWrite_pending (s arm kind) :
    (State.restartWrite s arm kind).pending = s.pending := by simp [State.restartWrite]

@[simp] theorem State.linkEnWrite_pending (s n v) :
    (State.linkEnWrite s n v).pending = s.pending := by simp [State.linkEnWrite]

@[simp] theorem State.retrainWrite_pending (s v) :
    (State.retrainWrite s v).pending = s.pending := by simp [State.retrainWrite]

@[simp] theorem State.cfgWrite_pending (s a v) : (State.cfgWrite s a v).pending = s.pending := by
  unfold State.cfgWrite
  split <;> simp

@[simp] theorem State.cfgPart_pending (s r a v) :
    (State.cfgPart s r a v).pending = s.pending := by simp [State.cfgPart]

@[simp] theorem State.hwPart_pending (s r a v m) :
    (State.hwPart s r a v m).pending = s.pending := by simp [State.hwPart]

@[simp] theorem State.regWrite_pending (s a v m) : (State.regWrite s a v m).pending = s.pending := by
  unfold State.regWrite
  repeat' split
  all_goals simp

@[simp] theorem State.cmdWrite_pending (s priv a v m) :
    (State.cmdWrite s priv a v m).pending = s.pending := by simp [State.cmdWrite]

@[simp] theorem State.regWrites_pending (s priv a k vs) :
    (State.regWrites s priv a k vs).1.pending = s.pending := by
  induction vs generalizing s a k with
  | nil => rfl
  | cons v vs ih =>
    unfold State.regWrites
    split <;> simp [ih]

@[simp] theorem State.regHold_pending (s w) : (State.regHold s w).pending = s.pending := (rfl)

@[simp] theorem State.regWrGo_pending (s w) : (State.regWrGo s w).pending = s.pending := by simp [State.regWrGo]

@[simp] theorem State.regMaskGo_pending (s w) :
    (State.regMaskGo s w).pending = s.pending := by simp [State.regMaskGo]

@[simp] theorem State.mbxWrGo_pending (s w) : (State.mbxWrGo s w).pending = s.pending := by simp [State.mbxWrGo]

@[simp] theorem State.regGo_pending (s w) : (State.regGo s w).pending = s.pending := by
  unfold State.regGo
  split <;> simp

@[simp] theorem State.regResume_pending (s) : (State.regResume s).pending = s.pending := by simp [State.regResume]

@[simp] theorem State.hourEnds_pending (s) : (State.hourEnds s).pending = s.pending :=
  foldl_pending (fun _ _ => State.putStack_pending ..) _ _

@[simp] theorem State.countCycles_pending (s) :
    (State.countCycles s).pending = s.pending := by simp [State.countCycles]

@[simp] theorem State.tick_pending (s) : (State.tick s).pending = s.pending := by simp [State.tick]

/-- Settles O1: a tick alone keeps the queue as it is. -/
theorem stepRunsTheFrontCommand : Obligations.StepRunsTheFrontCommand := by
  unfold Obligations.StepRunsTheFrontCommand
  refine ⟨fun c rest s => by rw [step], fun s empty => ⟨by rw [step, empty], ?_⟩⟩
  rw [State.tick_pending, empty]

end Sys2Proof.Machine
end

section
/-! SUPPORT. The state after reset, and O2. -/

namespace Sys2Proof.Machine

/-- Every other domain is off at reset (R475). -/
theorem reset_domain_off : ∀ d < 64, 1 ≤ d → State.reset.domain d = 2 := by decide

/-- Settles O2. -/
theorem resetLeaves : Obligations.ResetLeaves := by
  unfold Obligations.ResetLeaves
  intro s
  have rings : ∀ n < 8, s.ringOn n = false := by decide
  refine ⟨rfl, rfl, fun d pos small => reset_domain_off d small pos, rfl, rfl, rfl, rfl, rfl, rfl, rfl, rfl, rfl, rfl, rfl, rfl,
    rfl, rfl, fun n => rfl, rings, fun q => rfl, fun g => rfl, rfl, by decide, by decide⟩

end Sys2Proof.Machine
end

section
/-! SUPPORT. The exact-match engine (R154 to R164) and O19. -/

namespace Sys2Proof.Machine

theorem State.learnApply_of_put {s t : State} {c : Nat} {move stashed : Bool} {e : XEnt} {r : List (Bool × XEnt)}
    (oldest : (s.cluster c).learns = (move, e) :: r)
    (put : let f := (s.setCluster c { s.cluster c with learns := r }).learnEnt c e move; f.2.xPut c f.1 = some (t, stashed)) :
    s.learnApply c = (if move then t else t.xCount c 0).crossPost c ⟨false, e⟩ := by
  simp only [State.learnApply, oldest, put]

theorem State.learnApply_of_full {s : State} {c : Nat} {move : Bool} {e : XEnt} {r : List (Bool × XEnt)}
    (oldest : (s.cluster c).learns = (move, e) :: r)
    (full : let f := (s.setCluster c { s.cluster c with learns := r }).learnEnt c e move; f.2.xPut c f.1 = none) :
    s.learnApply c = ((s.setCluster c { s.cluster c with learns := r }).xCount c 1).noRoom c := by
  simp only [State.learnApply, oldest, full]

/-- A posted learn whose case of R154 is to write is written where there is room (R163). -/
theorem State.crossApply_of_write {s t : State} {c : Nat} {stashed : Bool} {x : Cross} {r : List Cross}
    (oldest : (s.cluster c).cross = x :: r) (learn : x.del = false)
    (writes : (s.setCluster c { s.cluster c with cross := r }).learnCase c x.ent = .write)
    (put : let f := (s.setCluster c { s.cluster c with cross := r }).learnEnt c x.ent false; f.2.xPut c f.1 = some (t, stashed)) :
    s.crossApply c = t := by
  simp only [State.crossApply, oldest, learn, writes, reduceCtorEq, decide_false, put, Bool.false_eq_true, if_false]

/-- A posted deletion takes a learned entry not hit since (R163). -/
theorem State.crossApply_of_delete {s : State} {c place : Nat} {x : Cross} {r : List Cross} {e : XEnt}
    (oldest : (s.cluster c).cross = x :: r) (deletes : x.del = true)
    (found : (s.setCluster c { s.cluster c with cross := r }).xFind c x.ent.tid x.ent.wide x.ent.key = some (place, e))
    (mine : (!e.static && e.learned && !e.hit) = true) :
    s.crossApply c = (s.setCluster c { s.cluster c with cross := r }).xDel c place := by
  simp only [State.crossApply, oldest, deletes, found, mine, if_true]

/-- An entry neither hit nor struck is struck (R156). -/
theorem State.ageEntry_strikes {s : State} {c place : Nat} {n : Nat × Bool × List Byte} {e : XEnt}
    (found : s.xFind c n.1 n.2.1 n.2.2 = some (place, e)) (hit : e.hit = false) (strike : e.strike = false) :
    s.ageEntry c n = s.setXt (tins s.xt place { e with strike := true }) := by
  simp only [State.ageEntry, found, hit, strike, Bool.false_eq_true, if_false, Bool.not_false, if_true]

/-- Settles O19. -/
theorem exactEngineCompletes : Obligations.ExactEngineCompletes := by
  unfold Obligations.ExactEngineCompletes
  refine ⟨?learn, ?cross, ?age, ?iterator, ?flush, ?sync⟩
  case learn =>
    intro c s move e r oldest u f
    exact ⟨fun t b put => congrArg Host.Outcome.next (State.learnApply_of_put oldest put),
      fun full => congrArg Host.Outcome.next (State.learnApply_of_full oldest full)⟩
  case cross =>
    intro c s x r oldest u f
    refine ⟨fun t b learn writes put => congrArg Host.Outcome.next (State.crossApply_of_write oldest learn writes put),
      fun place e deletes found host learned hit => congrArg Host.Outcome.next (State.crossApply_of_delete oldest deletes found ?_)⟩
    simp [host, learned, hit]
  case age =>
    intro c tid s n place e powered due u one found hit strike
    have struck : u.ageEntry c n = u.setXt (tins u.xt place { e with strike := true }) := State.ageEntry_strikes found hit strike
    have keys : (s.ageKeys c tid) = [n] := one
    simp only [exec_agingPass, execAgingPass, powered, ne_eq, not_true_eq_false, if_false, List.foldl_nil, due, if_true, keys,
      List.foldl_cons]
    exact congrArg Host.Outcome.next struck
  case iterator =>
    intro c h s used idle
    simp only [exec_tblIteratorTimeout, execTblIteratorTimeout, used, idle, decide_true, Bool.and_self, if_true]
  case flush =>
    intro port s m first
    simp only [exec_flushComplete, execFlushComplete, first]
  case sync =>
    intro s r running one
    simp only [exec_tblSyncComplete, execTblSyncComplete, running, one, Bool.false_and, Bool.false_eq_true, if_false]

end Sys2Proof.Machine
end

section
/-! SUPPORT. One-record LPM commands (R137 to R141) and O20. -/

namespace Sys2Proof.Machine

/-- The big-endian bytes of a word read back. -/
theorem beNat_beBytes_word (w : Word) : beNat (beBytes 4 w.toNat) = w.toNat := by
  have small := w.isLt
  simp only [beNat, beBytes, List.foldl, BitVec.toNat_ofNat]
  omega

/-- A batch of one record that is applied. -/
theorem runBatch_ok {step : List Word → State → Except (Byte × State) (State × Nat)} {r : List Word} {s t : State} {k : Nat}
    (applies : step r s = .ok (t, k)) : runBatch step [r] s = (t, codeOk, [batchWord 1 0 k]) := by
  simp [runBatch, runRecords, applies, batchCode]

/-- A command of one IPv4 record: its words, as `lpmRecords` cuts them. -/
theorem lpmRecords_one {add : Bool} {r : List Word} {head : Word} {rest : List Word} (words : r = head :: rest)
    (v4 : bits head 31 28 = 4) (zeros : bits head 7 0 = 0) (length : r.length = 2 + 2 * b01 add) :
    lpmRecords add (BitVec.ofNat 32 0x01000000 :: r) = some [r] := by
  have cut : lpmLen add head = some (2 + 2 * b01 add) := by simp [lpmLen, zeros, v4]
  subst words
  have one : pf (BitVec.ofNat 32 0x01000000 :: head :: rest) 0 31 24 = 1 := by simp [pf, par, bits]
  have nothing : pf (BitVec.ofNat 32 0x01000000 :: head :: rest) 0 23 0 = 0 := by simp [pf, par, bits]
  have whole : cutRecords (lpmLen add) 1 (head :: rest) = some [head :: rest] := by
    simp only [cutRecords, cut]
    rw [← length]
    simp
  simp [lpmRecords, one, nothing, whole]

/-- Such a command on a state with no rebuild takes the effect of its record (R138, R141). -/
theorem State.lpmCommand_one {add : Bool} {op : Nat} {h : Hdr} {r : List Word} {s t : State} {head : Word} {rest : List Word}
    {k : Nat} (kind : (op == 0x210) = add) (wide : fdWide h = true) (mode : s.slipOrQuiet = false) (priv : h.priv ≠ 2)
    (acts : s.mirrorRefuses op h = false) (idle : s.fd.look.rebuild = []) (words : r = head :: rest)
    (v4 : bits head 31 28 = 4) (zeros : bits head 7 0 = 0) (length : r.length = 2 + 2 * b01 add)
    (applies : lpmRecord add r s = .ok (t, k)) :
    s.lpmCommand op h (BitVec.ofNat 32 0x01000000 :: r)
      = t.finishDone op h (BitVec.ofNat 32 0x01000000 :: r) codeOk [batchWord 1 0 k] := by
  have records := lpmRecords_one words v4 zeros length
  have hbad : (!fdWide h || (lpmRecords (op == 0x210) (BitVec.ofNat 32 0x01000000 :: r)).isNone) = false := by
    simp [wide, kind, records]
  have hperm : (h.priv == 2) = false := by simpa using priv
  simp only [State.lpmCommand, idle, List.isEmpty_nil, if_true, State.lpmRun]
  rw [runCommand_ok hbad hperm mode acts (by simp), kind, records, Option.getD_some, runBatch_ok applies]

/-- An IPv4 record that adds a route where there is room (R137, R138). -/
theorem lpmRecord_add {s : State} {head addr hi lo : Word} (v4 : bits head 31 28 = 4) (short : bits head 15 8 ≤ 32)
    (complement : resultOk (hi ++ lo) = true) (room : lpmUnits s.cfg.fd.lpm < 6291456) :
    lpmRecord true [head, addr, hi, lo] s = .ok (s.setFdCfg { s.cfg.fd with
      lpm := tins s.cfg.fd.lpm (routeKey false (bits head 27 16) addr.toNat (bits head 15 8)) (hi ++ lo) }, 0) := by
  have fits : ¬ 6291456 < lpmUnits s.cfg.fd.lpm + 1 := by omega
  have inside : ¬ 32 < bits head 15 8 := by omega
  simp [lpmRecord, par, v4, beNat_beBytes_word, inside, complement, fits]

/-- One that removes a route of the table (R138). -/
theorem lpmRecord_del {s : State} {head addr : Word} (v4 : bits head 31 28 = 4) (short : bits head 15 8 ≤ 32)
    (present : (tfind s.cfg.fd.lpm (routeKey false (bits head 27 16) addr.toNat (bits head 15 8))).isSome = true) :
    lpmRecord false [head, addr] s = .ok (s.setFdCfg { s.cfg.fd with
      lpm := tdel s.cfg.fd.lpm (routeKey false (bits head 27 16) addr.toNat (bits head 15 8)) }, 0) := by
  have inside : ¬ 32 < bits head 15 8 := by omega
  obtain ⟨r, found⟩ := Option.isSome_iff_exists.mp present
  simp [lpmRecord, par, v4, beNat_beBytes_word, inside, found]

/-- Settles O20. -/
theorem lpmCommandsComplete : Obligations.LpmCommandsComplete := by
  unfold Obligations.LpmCommandsComplete
  intro h s head addr hi lo wide mode priv v4 short zeros key count wordAdd wordDel
  refine ⟨?add, ?del, ?held, ?rebuilt⟩
  case add =>
    intro idle complement room acts
    exact congrArg Host.Outcome.next (State.lpmCommand_one rfl wide mode priv acts idle rfl v4 zeros rfl
      (lpmRecord_add v4 short complement room))
  case del =>
    intro idle present acts
    exact congrArg Host.Outcome.next (State.lpmCommand_one rfl wide mode priv acts idle rfl v4 zeros rfl
      (lpmRecord_del v4 short present))
  case held =>
    intro p busy
    simp [execLpmAdd, execLpmDel, State.lpmCommand, busy]
  case rebuilt =>
    intro vrf last waits
    simp [execLpmRebuildComplete, last, waits, execLpmDel, State.lpmCommand]

end Sys2Proof.Machine
end

section
/-! SUPPORT. The associative banks (R167 to R194) and O21. -/

namespace Sys2Proof.Machine

/-! ## A command with none running or waiting runs at once -/

theorem State.ascNext_one {s : State} {c : Started} (free : s.asc.run = none) (first : s.asc.waits = [c]) :
    s.ascNext 1 = (s.setAsc { s.asc with waits := [] }).ascExec c := by
  simp only [State.ascNext, free, first]

theorem State.ascCommand_idle {s : State} {op : Nat} {h : Hdr} {p : List Word} (free : s.asc.run = none)
    (idle : s.asc.waits = []) : s.ascCommand op h p = s.ascExec ⟨op, h, p⟩ := by
  have back : (s.setAsc { s.asc with waits := [⟨op, h, p⟩] }).setAsc { s.asc with waits := [] } = s := by
    rw [← idle]; rfl
  have next := State.ascNext_one (s := s.setAsc { s.asc with waits := [⟨op, h, p⟩] }) (c := ⟨op, h, p⟩) free rfl
  rw [State.ascCommand, idle]
  exact next.trans (congrArg (State.ascExec · ⟨op, h, p⟩) back)

section Commands

variable {s t : State} {h : Hdr} {p r : List Word} {k : Nat}

/-- One record of ASC_WRITE (R185, R186). -/
theorem State.ascExec_write (wide : fdWide h = true) (mode : s.slipOrQuiet = false) (priv : h.priv ≠ 2) (words : p ≠ [])
    (one : pf p 0 31 24 = 1) (zeros : pf p 0 23 0 = 0) (cut : cutRecords (ascLen 3) 1 (p.drop 1) = some [r])
    (acts : s.mirrorRefuses 0x300 h = false) (applies : ascWriteRec r s = .ok (t, k)) :
    s.ascExec ⟨0x300, h, p⟩ = t.finishDone 0x300 h p codeOk [batchWord 1 0 k] := by
  simp only [State.ascExec, one, cut]
  rw [runCommand_ok (by simp [wide, words, zeros]) (by simpa using priv) mode acts (by simp), Option.getD_some, runBatch_ok applies]

/-- One record of ASC_DELETE (R184, R186). -/
theorem State.ascExec_delete (wide : fdWide h = true) (mode : s.slipOrQuiet = false) (priv : h.priv ≠ 2) (words : p ≠ [])
    (one : pf p 0 31 24 = 1) (zeros : pf p 0 23 0 = 0) (cut : cutRecords (ascLen 1) 1 (p.drop 1) = some [r])
    (acts : s.mirrorRefuses 0x302 h = false) (applies : ascDeleteRec r s = .ok (t, k)) :
    s.ascExec ⟨0x302, h, p⟩ = t.finishDone 0x302 h p codeOk [batchWord 1 0 k] := by
  simp only [State.ascExec, one, cut]
  rw [runCommand_ok (by simp [wide, words, zeros]) (by simpa using priv) mode acts (by simp), Option.getD_some, runBatch_ok applies]

/-- One record of ASC_INSERT that needs no move (R183, R185). -/
theorem State.ascExec_insert (wide : fdWide h = true) (mode : s.slipOrQuiet = false) (priv : h.priv ≠ 2) (words : p ≠ [])
    (one : pf p 0 31 24 = 1) (zeros : pf p 0 23 0 = 0) (cut : s.cutInsert 1 (p.drop 1) = some [r])
    (acts : s.mirrorRefuses 0x301 h = false) (applies : s.insertOne r = .ok (t, none, k)) :
    s.ascExec ⟨0x301, h, p⟩ = t.insertEnd ⟨0x301, h, p⟩ 1 k 0 [(pf r 0 31 28, pf r 0 15 0)] := by
  have nonempty : p.isEmpty = false := List.isEmpty_eq_false_iff.mpr words
  have hperm : (h.priv == 2#2) = false := by simpa using priv
  simp only [State.ascExec, one, cut]
  simp [wide, nonempty, zeros, hperm, mode, acts, State.insertGo, applies]

/-- ASC_SEARCH of a set of chains that the command names (R187). -/
theorem State.ascExec_search (wide : fdWide h = true) (mode : s.slipOrQuiet = false) (length : p.length = 21)
    (zeros : pf p 0 24 16 = 0) (named : bit (par p 0) 25 = true) (acts : s.mirrorRefuses 0x303 h = false) :
    s.ascExec ⟨0x303, h, p⟩ = (s.activate (pf p 0 15 0) (2 ^ 64 - 1)).finishDone 0x303 h p codeOk
      (ascSearchWords (s.chainsIn (pf p 0 15 0)).isEmpty (s.ascSearch (pf p 0 15 0) (2 ^ 64 - 1) (ascWords (p.drop 1)))) := by
  simp only [State.ascExec]
  rw [runCommand_ok (by simp [wide, length, zeros]) rfl mode acts (by simp)]
  simp only [named, if_true]

/-- ASC_READ of a handle (R188). -/
theorem State.ascExec_read (wide : fdWide h = true) (mode : s.slipOrQuiet = false) (length : p.length = 1)
    (zeros : pf p 0 26 16 = 0) (handle : bit (par p 0) 27 = true) (acts : s.mirrorRefuses 0x304 h = false) :
    s.ascExec ⟨0x304, h, p⟩ = s.finishDone 0x304 h p codeOk
      (ascReadWords (pf p 0 31 28) (s.byHandle (pf p 0 31 28) (pf p 0 15 0))) := by
  simp only [State.ascExec]
  rw [runCommand_ok (by simp [wide, length, zeros]) rfl mode acts (by simp)]
  simp only [handle, if_true]

/-- ASC_CHAIN_CFG of a chain that fits its banks and overlaps no other (R169). -/
theorem State.ascExec_chainCfg {c : Nat} {k : ChainCfg} (chain : c = pf p 0 31 28)
    (cfg : k = ⟨bit (par p 0) 27, pf p 0 26 25, pf p 0 24 21, pf p 0 20 15⟩) (wide : fdWide h = true)
    (mode : s.slipOrQuiet = false) (priv : h.priv ≠ 2) (length : p.length = 1) (zeros : pf p 0 14 0 = 0) (width : k.width ≠ 3)
    (aligned : k.first % k.w = 0) (fits : k.first + k.w * (k.depthM1 + 1) ≤ 64)
    (apart : ∀ d < 16, d ≠ c → (s.chain d).en = true → k.overlaps (s.chain d) = false)
    (static : modeOpensStatic s.pwr.mode = true) (acts : s.mirrorRefuses 0x305 h = false) :
    s.ascExec ⟨0x305, h, p⟩ = (s.setFdCfg { s.cfg.fd with
      chains := tset dflt s.cfg.fd.chains c k, asc := s.cfg.fd.asc.filter (fun x => x.1 / 65536 != c) }).finishDone 0x305 h p
        codeOk [] := by
  have clear : (List.range 16).any (fun d => d != c && (s.chain d).en && k.overlaps (s.chain d)) = false := by
    simpa [List.any_eq_false, and_imp] using apart
  subst chain cfg
  simp only [State.ascExec, State.ascChainCfg]
  refine runSimple_ok ?_ (by simpa using priv) mode acts (by simp [static])
  simp [wide, length, zeros, width, aligned, fits, clear]

end Commands

/-! ## Moves, scrubs and spares -/

theorem State.onlyIn_takeSpare (s : State) (kind : Nat) : OnlyIn [.spares, .ev] s (s.takeSpare kind) := by
  simp only [State.takeSpare]
  repeat' split
  all_goals simp [onlyIn_iff, State.post]

theorem State.onlyIn_recordLife (s : State) (kind cause loc old new left : Nat) :
    OnlyIn [.spares, .ev] s (s.recordLife kind cause loc old new left) := by
  unfold State.recordLife
  split <;> simp [onlyIn_iff, State.post]

/-- A substitution is noted among the spares and in the log alone (R371, R374). -/
theorem State.onlyIn_substitute (s : State) (kind cause loc old new : Nat) :
    OnlyIn [.spares, .ev] s (s.substitute kind cause loc old new) :=
  (s.onlyIn_takeSpare kind).trans (State.onlyIn_recordLife _ kind cause loc old new _)

theorem State.substitute_fd (s : State) (kind cause loc old new : Nat) : (s.substitute kind cause loc old new).fd = s.fd :=
  s.onlyIn_substitute kind cause loc old new .fd (by simp)

theorem State.bankSwap_of_spare {s : State} {bank cause sp : Nat} {rest : List Nat} (spares : s.asc.spares = sp :: rest) :
    (s.bankSwap bank cause).asc.phys = tset idn s.asc.phys bank sp ∧ (s.bankSwap bank cause).asc.spares = rest ∧
      (s.bankSwap bank cause).asc.swap = (if rest.isEmpty then none else s.asc.failing.head?) := by
  simp only [State.bankSwap, spares]
  rw [State.asc, State.substitute_fd]
  exact ⟨rfl, rfl, rfl⟩

/-- Settles O21. -/
theorem ternaryTablesComplete : Obligations.TernaryTablesComplete := by
  unfold Obligations.TernaryTablesComplete
  refine ⟨fun h p s wide mode priv free idle words => ⟨fun one zeros => ⟨?write, ?insert, ?delete⟩, ?search, ?read, ?chain⟩,
    ?step, ?shadow, ?scrub, ?swap, ?millisecond⟩
  case write =>
    intro r a e cut enabled complement found acts
    refine congrArg Host.Outcome.next ((State.ascCommand_idle free idle).trans
      (State.ascExec_write wide mode priv words one zeros cut acts ?_))
    simp [ascWriteRec, enabled, complement, found]
  case insert =>
    intro r t k cut placed _ acts
    exact congrArg Host.Outcome.next ((State.ascCommand_idle free idle).trans
      (State.ascExec_insert wide mode priv words one zeros cut acts placed))
  case delete =>
    intro r a e cut enabled found acts
    refine congrArg Host.Outcome.next ((State.ascCommand_idle free idle).trans
      (State.ascExec_delete wide mode priv words one zeros cut acts ?_))
    simp [ascDeleteRec, enabled, found]
  case search =>
    intro length zeros named acts
    exact congrArg Host.Outcome.next ((State.ascCommand_idle free idle).trans
      (State.ascExec_search wide mode length zeros named acts))
  case read =>
    intro length zeros handle acts
    exact congrArg Host.Outcome.next ((State.ascCommand_idle free idle).trans
      (State.ascExec_read wide mode length zeros handle acts))
  case chain =>
    intro c k chain cfg length zeros width aligned fits apart static acts
    exact congrArg Host.Outcome.next ((State.ascCommand_idle free idle).trans
      (State.ascExec_chainCfg chain cfg wide mode priv length zeros width aligned fits apart static acts))
  case step =>
    intro s r a rest e running path found
    simp only [exec_ascBlockMoveStep, execAscBlockMoveStep, running, path, found]
    exact ⟨_, rfl, rfl, rfl, by simp [onlyIn_iff, State.setAsc, State.putRow, State.setAe]⟩
  case shadow =>
    intro bank row s c a e powered found
    simp only [exec_ascScrubCompare, execAscScrubCompare, powered, ne_eq, not_true_eq_false, if_false, if_true, found]
  case scrub =>
    intro bank row s powered unsuspected spares first
    have hour : ¬ (tget (fun _ => (0, 0)) s.asc.repairs bank.val).1 = s.hour := first
    simp only [exec_ascScrubCompare, execAscScrubCompare, powered, ne_eq, not_true_eq_false, unsuspected, hour, if_false,
      Bool.false_eq_true, Bool.not_true]
    refine ⟨_, (if_neg ?_).trans (if_neg ?_), rfl, rfl, rfl, by simp [onlyIn_iff, State.setAsc, State.postOnce]⟩
    · intro noSpare
      exact spares (List.isEmpty_iff.mp (Bool.and_eq_true_iff.mp noSpare).1)
    · simp
  case swap =>
    intro s b sp rest copying spares
    exact ⟨s.bankSwap b 0, by simp only [exec_ascSpareSwap, execAscSpareSwap, copying], State.bankSwap_of_spare spares⟩
  case millisecond =>
    intro s
    refine ⟨_, rfl, ?_⟩
    split
    · exact ⟨rfl, rfl, rfl, by simp [onlyIn_iff, State.post, State.setAsc]⟩
    · exact ⟨rfl, rfl, (List.append_nil _).symm, by simp [onlyIn_iff, State.setAsc]⟩

end Sys2Proof.Machine
end

section
/-! SUPPORT. Berths (R247 to R253) and O22. -/

namespace Sys2Proof.Machine

theorem State.br_setBerths (s : State) (b : Berths) : (s.setBerths b).br = b := rfl

/-- Settles O22. -/
theorem berthsComplete : Obligations.BerthsComplete := by
  unfold Obligations.BerthsComplete
  refine ⟨?free, ?double, ?good, ?bad, ?audit, ?rebuild, ?ends, ?qlist⟩
  case free =>
    intro b slice s o p room clean owned
    have fits : ¬ 32768 ≤ s.br.ring.length := by omega
    simp only [Berths.inQuar] at clean
    simp only [exec_berthFree, execBerthFree, fits, if_false, Berths.inQuar, State.br_setBerths, clean, Bool.false_eq_true, owned]
    split
    · exact ⟨_, rfl, rfl, rfl, rfl, by simp [onlyIn_iff, State.hbm, State.count, State.countN]⟩
    · exact ⟨_, rfl, rfl, rfl, rfl, by simp [onlyIn_iff]⟩
  case double =>
    intro b slice s room clean free space
    have fits : ¬ 32768 ≤ s.br.ring.length := by omega
    simp only [Berths.inQuar] at clean
    simp only [exec_berthFree, execBerthFree, fits, if_false, Berths.inQuar, State.br_setBerths, clean, Bool.false_eq_true, free]
    exact ⟨_, congrArg Host.Outcome.next (if_pos space), rfl, rfl, rfl, by simp [onlyIn_iff, State.post]⟩
  case good =>
    intro s b slice r first clean kept alive
    simp only [Berths.inQuar] at clean
    have alive' (x : Berths) : (s.setBerths x).onLostPc b = false := alive
    simp only [exec_checkRingResult, execCheckRingResult, first, Berths.inQuar, State.br_setBerths, clean, kept, Bool.or_self,
      Bool.false_eq_true, if_false, alive', decide_true, Bool.and_false, if_true]
    exact ⟨_, rfl, rfl, rfl, by simp [onlyIn_iff]⟩
  case bad =>
    intro s b slice owner r first clean kept other space
    simp only [Berths.inQuar] at clean
    simp only [exec_checkRingResult, execCheckRingResult, first, Berths.inQuar, State.br_setBerths, clean, kept, Bool.or_self,
      Bool.false_eq_true, if_false, other, decide_false, Bool.false_and]
    exact ⟨_, congrArg Host.Outcome.next (if_pos space), rfl, rfl, rfl, by simp [onlyIn_iff, State.post]⟩
  case audit =>
    intro h s wide priv mode idle acts
    refine .of_runCommand (exec_berthAudit ..) (by simp [wide]) (by simpa using priv) ?_ acts (by simp [idle]) rfl
    obtain mode | mode := mode <;> simp [mode]
  case rebuild =>
    intro s asked empty
    simp only [exec_berthAuditRebuild, execBerthAuditRebuild, asked, empty, ne_eq, not_true_eq_false, decide_false, Bool.not_true,
      Bool.or_self, Bool.false_eq_true, if_false]
    exact ⟨_, rfl, rfl, rfl, rfl, rfl, rfl, by simp [onlyIn_iff, State.setHw]⟩
  case ends =>
    intro s rebuilt
    simp only [exec_berthAuditComplete, execBerthAuditComplete, rebuilt, if_true]
    exact ⟨_, rfl, rfl, rfl, by simp [onlyIn_iff, State.post]⟩
  case qlist =>
    intro h p s wide length zeros mode acts l
    exact .of_runCommand (exec_berthQlist ..) (by simp [wide, length, zeros]) rfl (by simp [mode]) acts (by simp) rfl

end Sys2Proof.Machine
end

section
/-! SUPPORT. Admission, promotion and staging (R231 to R244, R256, R277), O23 and O24. -/

namespace Sys2Proof.Machine

/-! ## The tests of admission -/

/-- Settles O23: each test drops the packet once those before it pass. -/
theorem admissionTestsInOrder : Obligations.AdmissionTestsInOrder := by
  unfold Obligations.AdmissionTestsInOrder
  intro s q p
  refine ⟨fun unmapped => by rw [State.decide, unmapped], fun n node => ⟨fun landed bad => ?_, fun good stopped => ?_,
    fun good runs disabled => ?_, fun good runs enabled used full => ?_⟩⟩
  · simp only [State.decide, node, landed, bad, decide_true, Bool.and_self, if_true]
  · simp only [State.decide, node, good, decide_false, Bool.and_false, Bool.false_eq_true, if_false, stopped, if_true]
  · simp only [State.decide, node, good, decide_false, Bool.and_false, Bool.false_eq_true, if_false, Nat.not_le.mpr runs, disabled,
      Bool.not_false, if_true]
  · have some : (s.qrun q).ents.isEmpty = false := List.isEmpty_eq_false_iff.mpr used
    simp only [State.decide, node, good, decide_false, Bool.and_false, Bool.false_eq_true, if_false, Nat.not_le.mpr runs, enabled,
      Bool.not_true, full, some, decide_true, Bool.not_false, Bool.and_self, Bool.true_or, if_true]

/-! ## Packets that have crossed -/

/-- A unicast packet that is admitted: the state after its enqueue, but for the mark of a packet still in part (R231). -/
theorem State.admitUni_ok {s u t : State} {p : TdPkt} {bad : Nat} {ce : Bool} (decided : s.decide p.queue p = (.ok ce, u))
    (queued : u.enqueue p.queue (if p.part then cutChunks else chunksOf p.bytes.length) bad p none 0 ce = some t) :
    (s.admitUni p bad).td.q = t.td.q ∧ (s.admitUni p bad).br = t.br ∧ OnlyIn [.td] t (s.admitUni p bad) ∧
      (p.part = false → s.admitUni p bad = t) := by
  simp only [State.admitUni, decided, queued]
  split
  · split
    next part => exact ⟨rfl, rfl, by simp [onlyIn_iff], fun whole => absurd (part.symm.trans whole) (by simp)⟩
    next => exact ⟨rfl, rfl, OnlyIn.refl _ _, fun _ => rfl⟩
  · exact ⟨rfl, rfl, OnlyIn.refl _ _, fun _ => rfl⟩

/-- With nothing in transmission a tail status only marks what waits (R232). -/
theorem State.tailArrives_idle {s : State} (id : Nat) (bad : Bool) (idle : s.fd.eng.tx = []) :
    (s.tailArrives id bad).td.q = tmapv dflt (fun r => { r with ents := r.ents.map (fun e =>
      if e.id = id && e.pkt.tail.isNone then { e with pkt := { e.pkt with tail := some bad } } else e) }) s.td.q ∧
    (s.tailArrives id bad).fd.eng.threads = s.fd.eng.threads.map (fun x => { x with eg := x.eg.map (·.tailed id bad) }) ∧
    OnlyIn [.td, .fd] s (s.tailArrives id bad) := by
  simp only [State.tailArrives, idle, List.flatMap_nil, List.foldl_nil, ite_self]
  exact ⟨rfl, rfl, by simp [onlyIn_iff]⟩

/-! ## Promotion -/

/-- A promotion is due with 32 marked chunks, or with fewer where the queue's oldest are urgent (R238). -/
theorem not_early {parts : List (Nat × Nat)} {urgent : Bool} (nonzero : (parts.map (·.2)).sum ≠ 0)
    (due : 32 ≤ (parts.map (·.2)).sum ∨ urgent = true) :
    ¬ ((parts.map (·.2)).sum = 0 ∨ ((parts.map (·.2)).sum < 32 ∧ ¬ urgent = true)) := by
  rintro (zero | ⟨few, calm⟩)
  · exact nonzero zero
  · exact due.elim (fun many => absurd few (Nat.not_lt.mpr many)) calm

/-! ## Staging -/

/-- A read waits while the staging area is full or an earlier read of its slice waits (R242). -/
theorem waits_iff {s : State} {l : List Nat} {q : Nat} {slice : Nat} :
    (4096 ≤ s.stagedOf slice || (l.takeWhile (· != q)).any (fun x => sliceOfQ x == slice)) = true
      ↔ 4096 ≤ s.stagedOf slice ∨ ∃ x ∈ l.takeWhile (· != q), sliceOfQ x = slice := by
  simp

theorem trailerLinkOk_iff {t : BitVec 128} : trailerLinkOk t = true ↔ t.extractLsb' 72 28 = ~~~ t.extractLsb' 100 28 := by
  simp [trailerLinkOk]

/-- Settles O24. -/
theorem queueAdmissionCompletes : Obligations.QueueAdmissionCompletes := by
  unfold Obligations.QueueAdmissionCompletes
  refine ⟨⟨fun slice bad replBad s p r first => ?crossed, fun id bad s idle => ?tail⟩, fun q s => ⟨?age, ?write, ?noBerth, ?complete, ?staging⟩⟩
  case crossed =>
    intro u n
    have unicast (uni : p.mc = false) : exec (.queueAdmit slice bad replBad) s = .next (u.admitUni p bad) := by
      simp only [exec_queueAdmit, execQueueAdmit, first, uni, Bool.false_eq_true, if_false, u]
    refine ⟨fun ce u2 t uni decided queued => ?_, fun ce u2 uni decided full => ?_, fun i u2 uni decided => ?_, fun multi => ?_⟩
    · exact ⟨_, unicast uni, State.admitUni_ok decided queued⟩
    · rw [unicast uni]; simp only [State.admitUni, decided, full, n] at *
    · rw [unicast uni]; simp only [State.admitUni, decided]; rfl
    · simp only [exec_queueAdmit, execQueueAdmit, first, multi, if_true, u]
  case tail =>
    exact ⟨_, rfl, s.tailArrives_idle id bad idle⟩
  case age =>
    intro old promotes due
    have goes : ¬ (!s.mayPromote q || !(s.qrun q).ents.any old) = true := by simp [promotes, due]
    exact if_neg goes
  case write =>
    intro parts b u eq promotes nonzero due berth
    simp only [exec_promotionWrite, execPromotionWrite, promotes, if_true, ← eq, not_early nonzero due, if_false, berth]
  case noBerth =>
    intro parts u eq promotes nonzero due berth
    simp only [exec_promotionWrite, execPromotionWrite, promotes, if_true, ← eq, not_early nonzero due, if_false, berth]
  case complete =>
    intro w ws oldest
    simp only [exec_promotionWriteComplete, execPromotionWriteComplete, oldest]
  case staging =>
    intro b data trailer next w waits u
    have next' : w.nextRead q = some b := next
    simp only [exec_berthStagingRead, execBerthStagingRead]
    rw [show (s.setBerths { s.br with reads := s.br.reads.filter (fun x => (s.nextRead x).isSome) }) = w from rfl, next']
    refine ⟨fun wait => if_pos (waits_iff.mpr wait), fun go crc link => ?_, fun go crc dram => ?_, fun go crc link => ?_⟩
    all_goals refine (if_neg (mt waits_iff.mp go)).trans ?_
    · exact (if_neg (not_not.mpr crc)).trans (if_neg (by simpa using trailerLinkOk_iff.mpr link))
    · exact (if_pos crc).trans (congrArg Host.Outcome.next (if_pos dram))
    · exact (if_neg (not_not.mpr crc)).trans (if_pos (by simpa using mt trailerLinkOk_iff.mp link))

end Sys2Proof.Machine
end

section
/-! SUPPORT. The commands of queues and groups, the sampler, flushes and wakes (R254, R255, R281 to R286, R291, R482), and O25. -/

namespace Sys2Proof.Machine

/-- What a surge may begin (R482) leaves the domains and the waiting commands as they are. -/
theorem State.surge_keeps (s : State) :
    s.surge.pwr.domains = s.pwr.domains ∧ s.surge.pwr.qwaits = s.pwr.qwaits ∧
      OnlyIn [.pwr] s s.surge := by
  refine ⟨foldl_keeps (·.pwr.domains) (fun s x => ?_) _ s, foldl_keeps (·.pwr.qwaits) (fun s x => ?_) _ s,
    onlyIn_foldl (fun s x => ?_) _ s⟩
  all_goals
    simp only
    repeat' split
  all_goals simp [onlyIn_iff]

/-- A domain with power reads as its supply says; only one that is on can be stopped by its PLL (R476). -/
theorem State.domain_of_supplied {s : State} {d v : Nat} (supplied : s.supplied d = v) (other : v ≠ 0) : s.domain d = v := by
  simp [State.domain, supplied, other]

/-- A domain that is asked for wakes (R476). -/
theorem State.domain_askWake (s : State) (d : Nat) : (s.askWake d).domain d = 3 := by
  unfold State.askWake
  split
  next waking => exact State.domain_of_supplied waking (by simp)
  next =>
    refine State.domain_of_supplied ?_ (by simp)
    obtain ⟨domains, -⟩ := State.surge_keeps
      { s.setDomain d 3 with pwr := { (s.setDomain d 3).pwr with wakeQ := (s.setDomain d 3).pwr.wakeQ ++ [(d, s.supplied d == 2)] } }
    have three : 3 ≠ restDomain d := by unfold restDomain; split <;> omega
    exact (congrArg (tget restDomain · d) domains).trans (tget_tset_self restDomain s.pwr.domains d 3 three)

theorem State.askWake_keeps (s : State) (d : Nat) : (s.askWake d).pwr.qwaits = s.pwr.qwaits ∧ OnlyIn [.pwr] s (s.askWake d) := by
  unfold State.askWake
  split
  · exact ⟨rfl, OnlyIn.refl _ s⟩
  · obtain ⟨-, waits, only⟩ := State.surge_keeps
      { s.setDomain d 3 with pwr := { (s.setDomain d 3).pwr with wakeQ := (s.setDomain d 3).pwr.wakeQ ++ [(d, s.supplied d == 2)] } }
    exact ⟨waits, OnlyIn.trans (by simp [onlyIn_iff, State.setDomain]) only⟩

/-- Settles O25. -/
theorem queueControlCompletes : Obligations.QueueControlCompletes := by
  unfold Obligations.QueueControlCompletes
  refine ⟨fun h p s wide mode priv => ⟨?cfg, ?stat, ?set, ?read⟩, ?empty, ?sample, ?flush, ?wake⟩
  case cfg =>
    rintro q c good acts rfl rfl
    refine ⟨fun on group prio => ?_, fun off enables => ?_⟩
    · have stays : (bit (par p 0) 13 && 2 ≤ s.domain (queueDomain (sliceOfQ (pf p 0 31 14))) && !queueCfgBad h p && h.priv != 2
          && !s.slipOrQuiet && !s.mirrorRefuses 0x402 h) = false := by
        obtain on | disables := on
        · simp [Nat.not_le.mpr on]
        · simp [show bit (par p 0) 13 = false from disables]
      simp only [TakesEffect, exec_queueCfg, execQueueCfg, stays, Bool.false_eq_true, if_false, State.queueCfgRun]
      rw [runSimple_ok good (by simpa using priv) mode acts (by simp)]
      simp only [group, prio, decide_true, Bool.and_self, if_true]
    · have wakes : (bit (par p 0) 13 && 2 ≤ s.domain (queueDomain (sliceOfQ (pf p 0 31 14))) && !queueCfgBad h p && h.priv != 2
          && !s.slipOrQuiet && !s.mirrorRefuses 0x402 h) = true := by
        simpa [show bit (par p 0) 13 = true from enables, off, good, mode, acts] using priv
      obtain ⟨waits, only⟩ := s.askWake_keeps (queueDomain (sliceOfQ (pf p 0 31 14)))
      simp only [exec_queueCfg, execQueueCfg, wakes, if_true]
      refine ⟨_, rfl, s.domain_askWake _, congrArg (· ++ _) waits, only.trans (by simp [onlyIn_iff])⟩
  case stat =>
    rintro q n rfl rfl length zeros inside keep acts
    refine .of_runCommand (exec_queueStat ..) ?_ rfl mode acts (by simp) ?_
    · simp [wide, length, zeros, inside]
    · simp [keep]
  case set =>
    rintro g n rfl rfl length few zeros lines room acts
    refine .of_runSimple (exec_mcGroupSet ..) ?_ (by simpa using priv) mode acts ?_ rfl
    · simpa [wide, length, few, zeros] using lines
    · simpa using room
  case read =>
    rintro g rfl length zeros acts
    exact .of_runCommand (exec_mcGroupRead ..) (by simp [wide, length, zeros]) rfl mode acts (by simp) rfl
  case empty =>
    intro q s empty
    simp [execQueueSamplerVisit, empty, State.ageHead]
  case sample =>
    intro q s e rest head young
    have keeps : State.ageHead q (s.qrun q).ents.length s = s := by
      rw [head, List.length_cons, State.ageHead, head]
      simp only [Nat.not_lt.mpr young, if_false]
    have count : (s.qrun q).ents.length = rest.length + 1 := by simp [head]
    have first : (s.qrun q).ents.head? = some e := by simp [head]
    simp only [exec_queueSamplerVisit, execQueueSamplerVisit, keeps]
    rw [count, first, Option.map_some, Option.getD_some]
  case flush =>
    intro node s flushing f up
    simp only [exec_portFlushComplete, execPortFlushComplete, flushing, ne_eq, not_true_eq_false, if_false]
    rfl
  case wake =>
    intro dom s low waking last
    have none : s.pwr.wakeQ.any (·.1 == dom.val) = false := by simpa using last
    have d14 : ¬ 14 ≤ dom.val := by omega
    have d48 : ¬ 48 ≤ dom.val := by omega
    simp only [exec_domainWakeComplete, execDomainWakeComplete, waking, ne_eq, not_true_eq_false, none, Bool.or_self, Bool.false_eq_true,
      if_false, d14, d48, decide_false, Bool.false_and]

end Sys2Proof.Machine
end

section
/-! SUPPORT. The scheduler (R266 to R272, R287) and O26. -/

namespace Sys2Proof.Machine

/-- The head of a queue that is marked, in time and whole is released (R266, R278). -/
theorem State.dequeue_good {s : State} {node c g q : Nat} {e : QEnt} (marked : e.ce = true) (own : e.slot = none)
    (young : s.age e ≤ s.maxAge q) (good : e.pkt.tail ≠ some true) : s.dequeue node c g q e .good = s.release node c g q e true := by
  simp only [State.dequeue, own, Option.bind_none, Bool.false_eq_true, if_false, Nat.not_lt.mpr young, good, marked, if_true]

/-- The one entry that is due is retired (R271). -/
theorem State.retireOne_timely {s : State} {k : Nat} {e : TtEnt} (plain : e.wheel = false) (timely : s.slot - e.slot ≤ 250) :
    s.retireOne k e = (s.setSched { s.td.sched with tt := tset none0 s.td.sched.tt k none }).hwPeak 0xBF240400 31 16
      (s.slot - e.slot) 0xFFFF := by
  simp only [State.retireOne, plain, Bool.false_eq_true, if_false, Nat.not_lt.mpr timely]

/-- A refill slot that does not reach the burst (R272, R287). -/
theorem refillSlot_below {rate burst b f : Nat} (below : b + (f + rate * 4) / 1000000 ≤ burst) :
    refillSlot rate burst b f = (b + (f + rate * 4) / 1000000, (f + rate * 4) % 1000000) := by
  simp only [refillSlot, Nat.not_lt.mpr below, if_false]

theorem refillSlot_above {rate burst b f : Nat} (above : burst < b + (f + rate * 4) / 1000000) :
    refillSlot rate burst b f = (burst, 0) := by
  simp only [refillSlot, above, if_true]

/-- Settles O26. -/
theorem schedulingCompletes : Obligations.SchedulingCompletes := by
  unfold Obligations.SchedulingCompletes
  refine ⟨⟨fun node low read s => ⟨?release, ?stopped⟩, ?dequeue, ?timetable⟩, ?shaper, ?meter⟩
  case release =>
    intro c g q e u up allowed shaped room picked
    have goes : ((s.pnode node).st ≠ 0 || s.allowance node ≤ (s.pnode node).unsent || !s.shaperOk (nodeKey 3 node)
        || low.contains (4096 + node.val)) = false := by
      simpa [up, shaped, Nat.not_le.mpr allowed] using room
    simp only [exec_schedRelease, execSchedRelease, goes, Bool.false_eq_true, if_false, picked]
  case stopped =>
    intro down
    simp only [exec_schedRelease, execSchedRelease, down, ne_eq, not_false_eq_true, decide_true, Bool.true_or, if_true]
  case dequeue =>
    rintro s node c g q e ce rfl own young good marked
    exact State.dequeue_good marked own young good
  case timetable =>
    intro s k e alone due plain timely
    have entry : s.td.sched.tt.filterMap (fun x => x.2.map (fun e => (x.1, e))) = [(k, e)] := by rw [alone]; rfl
    have first : (dueIn s.slot [(k, e)]).take 16 = [(k, e)] := by simp [dueIn, due, sortBy, insBy]
    have empty : tset none0 s.td.sched.tt k none = [] := by simp [alone, tset, none0, tdel]
    simp only [exec_timetableRetire, execTimetableRetire, entry, first, List.foldl_cons, List.foldl_nil]
    rw [State.retireOne_timely plain timely, empty]
    rfl
  case shaper =>
    intro kind node s k c b
    refine ⟨fun idle => ?_, fun busy powered below => ?_, fun busy powered above => ?_⟩
    · simp only [exec_shaperRefill, execShaperRefill, show (s.shaperCfg (nodeKey kind node)).rate = 0 from idle, decide_true,
        Bool.true_or, if_true]
    all_goals
      have goes : ((s.shaperCfg (nodeKey kind node)).rate = 0 || s.domain 7 ≠ 0) = false := by simpa [powered] using busy
      simp only [exec_shaperRefill, execShaperRefill, goes, Bool.false_eq_true, if_false]
    · exact congrArg (Host.Outcome.next ∘ s.putBucket k) (if_neg (Int.not_lt.mpr below))
    · exact congrArg (Host.Outcome.next ∘ s.putBucket k) (if_pos above)
  case meter =>
    intro m s powered c r
    simp only [exec_meterRefill, execMeterRefill, powered, if_true]
    refine ⟨_, _, _, _, rfl, fun below => ?_, fun above => ?_,
      fun below => ?_, fun above => ?_⟩
    · rw [refillSlot_below below]; exact ⟨rfl, rfl⟩
    · rw [refillSlot_above above]; exact ⟨rfl, rfl⟩
    · rw [refillSlot_below below]; exact ⟨rfl, rfl⟩
    · rw [refillSlot_above above]; exact ⟨rfl, rfl⟩

end Sys2Proof.Machine
end

section
/-! SUPPORT. The commands of shapers, nodes and meters, port nodes and their links (R262 to R290), and O28. -/

namespace Sys2Proof.Machine

theorem burstOk_iff {b : Nat} : burstOk b = true ↔ 1024 ≤ b ∧ b ≤ 67108864 := by simp [burstOk]

section PortLink

variable {s : State} {n : Nat}

/-- The state in which a link change is judged: the node's link noted (R283). -/
def State.noteLink (s : State) (n : Nat) : State := s.putPnode n { s.pnode n with link := s.nodeLink n }

theorem State.portLink_falls_held (st : ((s.noteLink n).pnode n).st = 0) (down : s.nodeLink n = false)
    (admin : (s.noteLink n).nodeAdmin n = true) (hold : 0 < (s.noteLink n).holdMs n) :
    s.portLink n = (s.noteLink n).toPort n 1 0x140 [] := by
  unfold State.noteLink at *
  simp only [State.portLink, st, admin, hold, decide_true, Bool.and_self, if_true]
  rw [if_neg (by simp [down])]

theorem State.portLink_falls (st : ((s.noteLink n).pnode n).st = 0) (down : s.nodeLink n = false)
    (hold : (s.noteLink n).holdMs n = 0) : s.portLink n = (s.noteLink n).toPort n 2 0x142 [] := by
  unfold State.noteLink at *
  simp only [State.portLink, st, hold, Nat.lt_irrefl, decide_false, Bool.and_false, Bool.false_eq_true, if_false]
  rw [if_neg (by simp [down])]

theorem State.portLink_expired (st : ((s.noteLink n).pnode n).st = 1) (expired : (s.noteLink n).holdOver n = true) :
    s.portLink n = (s.noteLink n).toPort n 2 0x142 [] := by
  unfold State.noteLink at *
  simp only [State.portLink, st, expired, if_true]

theorem State.portLink_returns (st : ((s.noteLink n).pnode n).st = 1) (running : (s.noteLink n).holdOver n = false)
    (back : s.nodeLink n = true) : s.portLink n = (s.noteLink n).toPort n 0 0x141 [d16 0] := by
  unfold State.noteLink at *
  simp only [State.portLink, st, running, Bool.false_eq_true, if_false]
  rw [if_pos back]

theorem State.portLink_wakes (st : ((s.noteLink n).pnode n).st = 3) (back : s.nodeLink n = true) :
    s.portLink n = (s.noteLink n).toPort n 0 0x141 [d16 1] := by
  unfold State.noteLink at *
  simp only [State.portLink, st]
  rw [if_pos back]

end PortLink

/-- Settles O28. -/
theorem shapingCommandsComplete : Obligations.ShapingCommandsComplete := by
  unfold Obligations.ShapingCommandsComplete
  refine ⟨fun h p s mode priv => ⟨?shaper, ?node, ?hold, ?meter, ?read⟩, fun node s => ?link⟩
  case shaper =>
    rintro kind n rate burst rfl rfl rfl rfl wide length z0 z1 z2 z3 small pos most low high room acts rated k adj adjHigh adjLow shapers
    refine .of_runCommand (exec_shaperSet ..) ?_ (by simpa using priv) mode acts (by simp) ?_
    · have range : burstOk (pf p 2 26 0) = true := burstOk_iff.mpr ⟨low, high⟩
      have notAbove : ¬ 63 < (BitVec.ofNat 8 (pf p 3 7 0)).toInt := Int.not_lt.mpr adjHigh
      have notBelow : ¬ (BitVec.ofNat 8 (pf p 3 7 0)).toInt < -64 := Int.not_lt.mpr adjLow
      simp only [wide, length, z0, z1, z2, z3, range, Bool.not_true, bne_self_eq_false, Bool.and_false, Bool.or_self,
        Nat.not_le.mpr small, Nat.not_lt.mpr most, notAbove, notBelow, decide_false]
    · have live : pf p 1 27 0 ≠ 0 := by omega
      have paid : ¬ (s.bucket (nodeKey (pf p 0 31 30) (pf p 0 29 12))).b < 0 := Int.not_lt.mpr room
      simp only [live, rated, if_false, paid, decide_false, Bool.false_and, Bool.false_eq_true]
      rfl
  case node =>
    rintro n rfl kind wide length z0 z1 weight parent prio acts groups
    refine .of_runSimple (exec_nodeCfg ..) ?_ (by simpa using priv) mode acts (by simp) ?_
    · simp [wide, length, kind, z0, z1, weight]
    · simp [kind, parent, prio, groups]
  case hold =>
    rintro n rfl wide length z0 small short notHolding acts
    refine .of_runSimple (exec_portHold ..) ?_ (by simpa using priv) mode acts (by simp) ?_
    · simp [wide, length, z0, small, short]
    · have other (c) : ((s.setTdCfg c).pnode (pf p 0 31 24)).st ≠ 1 := notHolding
      simp [other]
  case meter =>
    rintro m c rfl rfl wide length z0 z1 z2 z3 z4 cir pir cbs pbs order acts
    refine .of_runSimple (exec_meterSet ..) ?_ (by simpa using priv) mode acts (by simp) rfl
    have ordered : (!bit (par p 0) 14 && decide (pf p 2 27 0 < pf p 1 27 0)) = false := by
      simpa [or_iff_not_imp_left] using order
    simp only [wide, length, z0, z1, z2, z3, z4, cbs, pbs, ordered, Nat.not_lt.mpr cir, Nat.not_lt.mpr pir, Bool.not_true,
      bne_self_eq_false, decide_false, Bool.or_self]
  case read =>
    rintro m rfl wide length zeros acts
    exact ⟨_, _, _, _, _, _, _, .of_runCommand (exec_meterRead ..) (by simp [wide, length, zeros]) rfl mode acts (by simp) rfl,
      rfl, rfl, rfl, rfl, rfl, rfl⟩
  case link =>
    intro up u
    refine ⟨fun st down admin hold => ?_, fun st down hold => ?_, fun st expired => ?_, fun st running back => ?_,
      fun st back => ?_, fun st expired => ?_, fun st ev => ⟨rfl, by simp [onlyIn_iff, State.toPort, State.post, State.putPnode]⟩⟩
    · exact congrArg Host.Outcome.next (State.portLink_falls_held st down admin hold)
    · exact congrArg Host.Outcome.next (State.portLink_falls st down hold)
    · exact congrArg Host.Outcome.next (State.portLink_expired st expired)
    · exact congrArg Host.Outcome.next (State.portLink_returns st running back)
    · exact congrArg Host.Outcome.next (State.portLink_wakes st back)
    · have ended : s.holdOver node = true := decide_eq_true expired
      simp only [exec_portHoldExpire, execPortHoldExpire, st, ended, decide_true, Bool.and_self, if_true]

end Sys2Proof.Machine
end

section
/-! SUPPORT. Ingress descriptors in their order (R36, R39), and O29. -/

namespace Sys2Proof.Machine

/-- Settles O29. -/
theorem descriptorsComplete : Obligations.DescriptorsComplete := by
  unfold Obligations.DescriptorsComplete
  refine ⟨fun desc data tail mapBad s => ?receive, fun slice s q x since held gap waited => ?gap⟩
  case receive =>
    intro slice bad pseq u on4 on7 none
    have powered : (s.domain 4 ≠ 0 || s.domain 7 ≠ 0) = false := by simp [on4, on7]
    have order (f) : (s.setD2d { s.fd.d2d with flight := f }).order (bits desc 118 115) = s.order slice := rfl
    refine ⟨fun failed => ?_, fun good complement => ⟨fun next small => ?_, fun ahead near empty => ?_⟩⟩
    · simp only [exec_ingressDescriptorReceive, execIngressDescriptorReceive, powered, Bool.false_eq_true, if_false, none,
        List.find?_nil]
      exact if_pos failed
    all_goals
      have passed : (crc8From 0xFF#8 (beBytes 31 (desc.toNat / 256)) != desc.extractLsb' 0 8) = false := good
      simp only [exec_ingressDescriptorReceive, execIngressDescriptorReceive, powered, Bool.false_eq_true, if_false, none,
        List.find?_nil, passed, complement, ne_eq, not_true_eq_false, order]
    · have distance : (bits desc 114 99 + 65536 - (s.order slice).next) % 65536 = 0 := by
        rw [show bits desc 114 99 = _ from next]; omega
      have step : (s.order slice).next = pseq := next.symm
      simp only [step]
      exact if_pos (step ▸ distance)
    · have apart : ¬ (bits desc 114 99 + 65536 - (s.order slice).next) % 65536 = 0 := by omega
      simp only [apart, if_false, empty, List.any_nil, Bool.not_false, Bool.and_true, List.nil_append]
      exact if_pos (decide_eq_true near)
  case gap =>
    intro n
    simp only [exec_d2dGapTimeout, execD2dGapTimeout, gap, waited, decide_true, Bool.not_true, Bool.false_eq_true, if_false, held,
      List.map_cons, List.map_nil, leastBy]
    rfl

end Sys2Proof.Machine
end

section
/-! SUPPORT. The die-to-die interface and the crossbar (R34, R37, R38, R41, R224 to R230), and O30. -/

namespace Sys2Proof.Machine

/-! ## What transmitters leave alone -/

/-- From `s` to `t` only transmitters and what they send change: the receivers, and which modules train or are retired, do not. -/
structure SendsOnly (s t : State) : Prop where
  dirs : t.fd.d2d.dirs = s.fd.d2d.dirs
  training : t.fd.d2d.training = s.fd.d2d.training
  retired : t.fd.d2d.retired = s.fd.d2d.retired
  only : OnlyIn [.fd] s t

theorem SendsOnly.refl (s : State) : SendsOnly s s := ⟨rfl, rfl, rfl, OnlyIn.refl _ s⟩

theorem SendsOnly.trans {s t u : State} (h : SendsOnly s t) (k : SendsOnly t u) : SendsOnly s u :=
  ⟨k.dirs.trans h.dirs, k.training.trans h.training, k.retired.trans h.retired, h.only.trans k.only⟩

theorem SendsOnly.foldl {α : Type} {f : State → α → State} (keeps : ∀ s a, SendsOnly s (f s a)) (l : List α) (s : State) :
    SendsOnly s (l.foldl f s) := by
  induction l generalizing s with
  | nil => exact SendsOnly.refl s
  | cons a l ih => exact (keeps s a).trans (ih _)

theorem State.sendsOnly_setD2d {s : State} {d : D2d} (dirs : d.dirs = s.fd.d2d.dirs) (training : d.training = s.fd.d2d.training)
    (retired : d.retired = s.fd.d2d.retired) : SendsOnly s (s.setD2d d) := ⟨dirs, training, retired, by simp [onlyIn_iff]⟩

theorem State.sendsOnly_putFlitTx (s : State) (k : Nat) (t : D2dTx) : SendsOnly s (s.putFlitTx k t) :=
  State.sendsOnly_setD2d rfl rfl rfl

theorem State.sendsOnly_linkSay (s : State) (m : Nat) (d : Dir) (msg : LinkMsg) : SendsOnly s (s.linkSay m d msg) :=
  s.sendsOnly_putFlitTx ..

theorem State.sendsOnly_linkHear (s : State) (m : Nat) (d : Dir) (f : List Byte) : SendsOnly s (s.linkHear m d f) :=
  (State.sendsOnly_putFlitTx s _ _).trans (State.sendsOnly_setD2d rfl rfl rfl)

theorem State.sendsOnly_placeSend (s : State) (x : D2dSend) : SendsOnly s (s.placeSend x) := by
  unfold State.placeSend
  split
  · exact State.sendsOnly_setD2d rfl rfl rfl
  · exact (s.sendsOnly_putFlitTx _ _).trans ((State.sendsOnly_setD2d rfl rfl rfl).trans (State.sendsOnly_setD2d rfl rfl rfl))

theorem State.sendsOnly_resendAll (s : State) (m : Nat) : SendsOnly s (s.resendAll m) :=
  ((s.sendsOnly_putFlitTx _ _).trans (State.sendsOnly_putFlitTx _ _ _)).trans (SendsOnly.foldl State.sendsOnly_placeSend _ _)

theorem State.sendsOnly_placeWaiting (s : State) : SendsOnly s s.placeWaiting := SendsOnly.foldl State.sendsOnly_placeSend _ s

/-! ## Flits and retraining -/

/-- A module in service retrains (R38). -/
theorem State.retrain_on {s : State} {m : Nat} (kept : s.fd.d2d.retired.contains m = false)
    (idle : s.fd.d2d.training.contains m = false) :
    (s.retrain m).fd.d2d.training = s.fd.d2d.training ++ [m] ∧ (s.retrain m).fd.d2d.retired = s.fd.d2d.retired ∧
      OnlyIn [.fd] s (s.retrain m) := by
  simp only [State.retrain, kept, idle, Bool.or_self, Bool.false_eq_true, if_false]
  refine ⟨(State.sendsOnly_resendAll _ m).training, (State.sendsOnly_resendAll _ m).retired,
    OnlyIn.trans ?_ (State.sendsOnly_resendAll _ m).only⟩
  simp [onlyIn_iff, State.putDir]

/-- The state in which a failing flit has been discarded and asked for again (R37). -/
def State.asksAgain (s : State) (m : Nat) (dir : Dir) : State :=
  let x := s.d2dDir m dir
  (s.putDir m dir { x with discard := true, fails := x.fails + 1, nak := some x.expect }).linkSay m dir (.nak x.expect)

theorem State.flitFails_eq (s : State) (m : Nat) (dir : Dir) :
    s.flitFails m dir = if 8 ≤ (s.d2dDir m dir).fails + 1 then (s.asksAgain m dir).retrain m else s.asksAgain m dir := rfl

theorem State.asksAgain_keeps (s : State) (m : Nat) (dir : Dir) :
    (s.asksAgain m dir).fd.d2d.dirs = tset dflt s.fd.d2d.dirs (m * 2 + (if dir = .tdToFd then 1 else 0))
      { s.d2dDir m dir with
        discard := true, fails := (s.d2dDir m dir).fails + 1, nak := some (s.d2dDir m dir).expect } ∧
    (s.asksAgain m dir).fd.d2d.training = s.fd.d2d.training ∧ (s.asksAgain m dir).fd.d2d.retired = s.fd.d2d.retired ∧
    OnlyIn [.fd] s (s.asksAgain m dir) :=
  ⟨rfl, rfl, rfl, by simp [onlyIn_iff, State.asksAgain, State.linkSay, State.putDir, State.putFlitTx]⟩

theorem SendsOnly.ite {s a b : State} {c : Prop} [Decidable c] (h : SendsOnly s a) (k : SendsOnly s b) :
    SendsOnly s (if c then a else b) := by
  split
  · exact h
  · exact k

/-- The state in which a good flit has been taken from a direction, before the link hears of it (R34). -/
def State.tookFlit (s : State) (m : Nat) (dir : Dir) (flit : List Byte) : State :=
  (s.count 0x08 m (bits (flitHead flit) 31 29) (some (if dir = .fdToTd then 127 else 191)) none 0).putDir m dir
    ((s.d2dDir m dir).take flit)

/-- What the link hears and says of it (R34, R37): the credits that return, the credit owed and the acknowledgement. -/
def State.heardFlit (s : State) (m : Nat) (dir : Dir) (flit : List Byte) (x : D2dDir) : State :=
  let w := flitHead flit
  let k := txKey m (otherWay dir)
  let t := s.linkHear m dir flit
  let t := if bits w 31 29 = 7 then t
    else t.putFlitTx k { t.d2dTx k with owed := tset zn (t.d2dTx k).owed (bits w 31 29) (tget zn (t.d2dTx k).owed (bits w 31 29) + 1) }
  if x.since + 1 = 32 then t.linkSay m dir (.ack ((x.expect + 1) % 2048)) else t

theorem State.tookFlit_keeps (s : State) (m : Nat) (dir : Dir) (flit : List Byte) :
    (s.tookFlit m dir flit).fd.d2d.dirs
      = tset dflt s.fd.d2d.dirs (m * 2 + (if dir = .tdToFd then 1 else 0)) ((s.d2dDir m dir).take flit) ∧
    OnlyIn [.fd, .cnt] s (s.tookFlit m dir flit) :=
  ⟨rfl, by simp [onlyIn_iff, State.tookFlit, State.putDir, State.count, State.countN]⟩

theorem State.sendsOnly_heardFlit (s : State) (m : Nat) (dir : Dir) (flit : List Byte) (x : D2dDir) :
    SendsOnly s (s.heardFlit m dir flit x) := by
  refine SendsOnly.trans (SendsOnly.trans (s.sendsOnly_linkHear m dir flit) ?_)
    (SendsOnly.ite (State.sendsOnly_linkSay _ _ _ _) (SendsOnly.refl _))
  exact SendsOnly.ite (SendsOnly.refl _) (State.sendsOnly_putFlitTx _ _ _)

theorem D2dDir.take_eq (x : D2dDir) (f : List Byte) :
    (x.take f).expect = (x.expect + 1) % 2048 ∧ (x.take f).discard = false ∧ (x.take f).fails = 0 := by
  simp only [D2dDir.take]
  repeat' split
  all_goals exact ⟨rfl, rfl, rfl⟩

section Flits

variable {m : Fin 24} {dir : Dir} {flit : List Byte} {s : State} (powered : s.domain 4 = 0) (on : s.modOn m = true)
include powered on

theorem execFlitReceive_of_on : execFlitReceive m dir flit s =
    if !flitOk m flit then .next (s.flitFails m dir)
    else if bits (flitHead flit) 26 16 = (s.d2dDir m dir).expect then
      .next ((s.tookFlit m dir flit).heardFlit m dir flit (s.d2dDir m dir))
    else if serialLe 2048 513 (bits (flitHead flit) 26 16) (s.d2dDir m dir).expect then
      .next (s.linkSay m dir (.ack (s.d2dDir m dir).expect))
    else .next s := by
  have runs : ¬ (s.domain 4 ≠ 0 || !s.modOn m) = true := by simp [powered, on]
  exact if_neg runs

/-- A failing flit is discarded and asked for again (R37). -/
theorem execFlitReceive_fails (bad : flitOk m flit = false) (few : (s.d2dDir m dir).fails < 7) :
    execFlitReceive m dir flit s = .next (s.asksAgain m dir) := by
  have below : ¬ 8 ≤ (s.d2dDir m dir).fails + 1 := by omega
  rw [execFlitReceive_of_on powered on, bad, State.flitFails_eq, if_neg below]
  rfl

/-- The eighth failure in a row begins a retrain (R38). -/
theorem execFlitReceive_retrains (bad : flitOk m flit = false) (many : 7 ≤ (s.d2dDir m dir).fails) :
    execFlitReceive m dir flit s = .next ((s.asksAgain m dir).retrain m) := by
  have reached : 8 ≤ (s.d2dDir m dir).fails + 1 := by omega
  rw [execFlitReceive_of_on powered on, bad, State.flitFails_eq, if_pos reached]
  rfl

/-- The flit that is next is taken (R34). -/
theorem execFlitReceive_takes (good : flitOk m flit = true) (next : bits (flitHead flit) 26 16 = (s.d2dDir m dir).expect) :
    execFlitReceive m dir flit s = .next ((s.tookFlit m dir flit).heardFlit m dir flit (s.d2dDir m dir)) := by
  rw [execFlitReceive_of_on powered on, good, if_pos next]
  rfl

/-- One that has come before is acknowledged again, one still to come is discarded (R37). -/
theorem execFlitReceive_other (good : flitOk m flit = true) (other : bits (flitHead flit) 26 16 ≠ (s.d2dDir m dir).expect) :
    execFlitReceive m dir flit s = .next (if serialLe 2048 513 (bits (flitHead flit) 26 16) (s.d2dDir m dir).expect then
      s.linkSay m dir (.ack (s.d2dDir m dir).expect) else s) := by
  rw [execFlitReceive_of_on powered on, good, if_neg other]
  exact (apply_ite Host.Outcome.next ..).symm

end Flits

/-- A good flit that is next is taken, and its direction goes on at the next one (R34). -/
theorem execFlitReceive_good {m : Fin 24} {dir : Dir} {flit : List Byte} {s : State} (powered : s.domain 4 = 0) (on : s.modOn m = true)
    (good : flitOk m flit = true) (next : bits (flitHead flit) 26 16 = (s.d2dDir m dir).expect) :
    ∃ t y, execFlitReceive m dir flit s = .next t ∧
      t.fd.d2d.dirs = tset dflt s.fd.d2d.dirs (m * 2 + (if dir = .tdToFd then 1 else 0)) y ∧
      y.expect = ((s.d2dDir m dir).expect + 1) % 2048 ∧ y.discard = false ∧ y.fails = 0 ∧ OnlyIn [.fd, .cnt] s t := by
  obtain ⟨takes, marks⟩ := s.tookFlit_keeps m dir flit
  have hears := (s.tookFlit m dir flit).sendsOnly_heardFlit m dir flit (s.d2dDir m dir)
  obtain ⟨expect, discard, fails⟩ := (s.d2dDir m dir).take_eq flit
  exact ⟨_, _, execFlitReceive_takes powered on good next, hears.dirs.trans takes, expect, discard, fails,
    marks.trans (hears.only.mono (by simp))⟩

/-- What a substitution counts, and what it leaves of the spares (R371). -/
theorem State.substitute_spares (s : State) (kind cause loc old new : Nat) :
    (s.substitute kind cause loc old new).spares.lanes = s.spares.lanes ∧
      (s.substitute kind cause loc old new).spares.used = tset zn s.spares.used kind (s.spareUsed kind + 1) := by
  simp only [State.substitute, State.recordLife, State.takeSpare]
  repeat' split
  all_goals exact ⟨rfl, rfl⟩

theorem State.onlyIn_post (s : State) (c : Nat) (d : List (Nat × Nat)) : OnlyIn [.spares, .ev] s (s.post c d) := by
  simp [onlyIn_iff, State.post]

/-- A module with redundant lanes left in a direction repairs a lane (R41, R371). -/
theorem State.repairLane_left {s : State} {m : Nat} {up : Bool} {lane : Nat}
    (left : tget zn s.spares.lanes (m * 2 + b01 up) < 4) :
    ∃ u, s.repairLane m up lane = some u ∧
      u.spares.lanes = tset zn s.spares.lanes (m * 2 + b01 up) (tget zn s.spares.lanes (m * 2 + b01 up) + 1) ∧
      u.spareUsed 8 = s.spareUsed 8 + 1 ∧ u.fd = s.fd ∧ OnlyIn [.spares, .ev] s u := by
  simp only [State.repairLane, if_neg (Nat.not_le.mpr left)]
  refine ⟨_, rfl, (State.substitute_spares ..).1, ?_, State.substitute_fd .., ?_⟩
  · refine (congrArg (tget zn · 8) (State.substitute_spares ..).2).trans ?_
    exact tget_tset_self _ _ _ _ (Nat.succ_ne_zero _)
  · have counts : OnlyIn [.spares, .ev] s { s with spares := { s.spares with
        lanes := tset zn s.spares.lanes (m * 2 + b01 up) (tget zn s.spares.lanes (m * 2 + b01 up) + 1) } } := by simp [onlyIn_iff]
    exact (counts.trans (State.onlyIn_substitute _ 8 0 _ _ _)).trans (State.onlyIn_post _ _ _)

/-! ## The crossbar -/

/-- One multicast head of an input ages when it has waited long enough (R226). -/
def ageHead (input mono wait : Nat) (v : Nat × List Cell) : Nat × List Cell :=
  if v.1 / 96 = input && v.1 % 96 / 32 = 2 then
    (v.1, match v.2 with | c :: r => { c with aged := c.aged || c.since + wait ≤ mono } :: r | [] => [])
  else v

theorem ageHead_aged {input mono wait : Nat} {v : Nat × List Cell} {c : Cell} {r : List Cell}
    (own : (ageHead input mono wait v).1 / 96 = input) (multicast : (ageHead input mono wait v).1 % 96 / 32 = 2)
    (head : (ageHead input mono wait v).2 = c :: r) (old : c.since + wait ≤ mono) : c.aged = true := by
  obtain ⟨k, l⟩ := v
  simp only [ageHead] at own multicast head
  split at head
  · cases l with
    | nil => simp at head
    | cons d l =>
      obtain ⟨rfl, -⟩ := List.cons.inj head
      simp [show d.since + wait ≤ mono from old]
  · next other =>
    rw [if_neg other] at own multicast
    exact absurd (by simp [own, multicast]) other

theorem ageHead_keeps (input mono wait : Nat) (v : Nat × List Cell) :
    ((ageHead input mono wait v).1, (ageHead input mono wait v).2.map (fun c => { c with aged := false }))
      = (v.1, v.2.map (fun c => { c with aged := false })) := by
  obtain ⟨k, l⟩ := v
  unfold ageHead
  split
  · cases l <;> rfl
  · rfl

/-- A request alone is granted (R227). -/
theorem Xbar.grant_alone (x : Xbar) (r : Req) (unicast : r.key % 96 / 32 ≠ 2) : x.grant [r] r.o = some r := by
  simp [Xbar.grant, leastBy, firstFrom, unicast]

theorem Xbar.accept_alone (x : Xbar) (r : Req) (unicast : r.key % 96 / 32 ≠ 2) : x.accept [r] r.i = [r] := by
  simp [Xbar.accept, leastBy, firstFrom, unicast]

/-- A request alone is matched in the first round, and the rest of them add nothing (R227). -/
theorem matchRounds_alone (x : Xbar) (r : Req) (unicast : r.key % 96 / 32 ≠ 2) :
    matchRounds [r] 3 [] x = ([r], x.point [r]) := by
  have once (n : Nat) : [n].eraseDups = [n] := rfl
  simp [matchRounds, once, Xbar.grant_alone x r unicast, Xbar.accept_alone x r unicast]

theorem Xbar.point_keeps (x : Xbar) (r : Req) : (x.point [r]).voqs = x.voqs ∧ (x.point [r]).crossing = x.crossing := ⟨rfl, rfl⟩

/-- A module that failed eight times in a row retrains (R38). -/
theorem State.asksAgain_retrain {s : State} {m : Nat} {dir : Dir} (kept : s.fd.d2d.retired.contains m = false)
    (idle : s.fd.d2d.training.contains m = false) :
    ((s.asksAgain m dir).retrain m).fd.d2d.training = s.fd.d2d.training ++ [m] ∧ OnlyIn [.fd] s ((s.asksAgain m dir).retrain m) := by
  obtain ⟨-, training, retired, only⟩ := s.asksAgain_keeps m dir
  rw [← retired] at kept
  rw [← training] at idle ⊢
  obtain ⟨trains, -, also⟩ := State.retrain_on kept idle
  exact ⟨trains, only.trans also⟩

/-- What a flit does to the direction it comes by (R34, R37, R38). -/
theorem flitReceive_completes {m : Fin 24} {dir : Dir} {s : State} (flit : List Byte) (powered : s.domain 4 = 0)
    (kept : s.fd.d2d.retired.contains m.val = false) (idle : s.fd.d2d.training.contains m.val = false) :
    (flitOk m flit = false → (s.d2dDir m dir).fails < 7 → ∃ t, execFlitReceive m dir flit s = .next t ∧
      t.fd.d2d.dirs = tset dflt s.fd.d2d.dirs (m * 2 + (if dir = .tdToFd then 1 else 0)) { s.d2dDir m dir with
        discard := true, fails := (s.d2dDir m dir).fails + 1, nak := some (s.d2dDir m dir).expect } ∧
      t.fd.d2d.training = s.fd.d2d.training ∧ OnlyIn [.fd] s t) ∧
    (flitOk m flit = false → 7 ≤ (s.d2dDir m dir).fails → ∃ t, execFlitReceive m dir flit s = .next t ∧
      t.fd.d2d.training = s.fd.d2d.training ++ [m.val] ∧ OnlyIn [.fd] s t) ∧
    (flitOk m flit = true → bits (flitHead flit) 26 16 = (s.d2dDir m dir).expect → ∃ t y, execFlitReceive m dir flit s = .next t ∧
      t.fd.d2d.dirs = tset dflt s.fd.d2d.dirs (m * 2 + (if dir = .tdToFd then 1 else 0)) y ∧
      y.expect = ((s.d2dDir m dir).expect + 1) % 2048 ∧ y.discard = false ∧ y.fails = 0 ∧ OnlyIn [.fd, .cnt] s t) ∧
    (flitOk m flit = true → bits (flitHead flit) 26 16 ≠ (s.d2dDir m dir).expect → execFlitReceive m dir flit s
      = .next (if serialLe 2048 513 (bits (flitHead flit) 26 16) (s.d2dDir m dir).expect then
          s.linkSay m dir (.ack (s.d2dDir m dir).expect) else s)) := by
  have on : s.modOn m = true := by rw [State.modOn, kept, idle]; rfl
  obtain ⟨dirs, training, -, only⟩ := s.asksAgain_keeps m dir
  exact ⟨fun bad few => ⟨_, execFlitReceive_fails powered on bad few, dirs, training, only⟩,
    fun bad many => ⟨_, execFlitReceive_retrains powered on bad many, State.asksAgain_retrain kept idle⟩,
    fun good next => execFlitReceive_good powered on good next,
    fun good other => execFlitReceive_other powered on good other⟩

/-- A module that comes back from retraining with nothing to repair (R38). -/
theorem execD2dRetrainEnd_back {m : Fin 24} {s : State} (training : s.fd.d2d.training.contains m.val = true) :
    ∃ t, execD2dRetrainEnd m true [] s = .next t ∧ t.fd.d2d.training = s.fd.d2d.training.filter (· != m.val) ∧
      t.fd.d2d.retired = s.fd.d2d.retired ∧ OnlyIn [.fd] s t := by
  have ends := State.sendsOnly_placeWaiting (s.setD2d { s.fd.d2d with training := s.fd.d2d.training.filter (· != m.val) })
  simp only [execD2dRetrainEnd, training, Bool.not_true, Bool.false_eq_true, if_false, State.repairLanes, if_true]
  exact ⟨_, rfl, ends.training, ends.retired, OnlyIn.trans (by simp [onlyIn_iff]) ends.only⟩

/-- A module that comes back from retraining with one faulty lane, which it repairs (R41). -/
theorem execD2dRetrainEnd_repairs {m : Fin 24} {s : State} {up : Bool} {lane : Fin 64}
    (training : s.fd.d2d.training.contains m.val = true) (left : tget zn s.spares.lanes (m * 2 + b01 up) < 4) :
    ∃ t, execD2dRetrainEnd m true [(up, lane)] s = .next t ∧
      t.spares.lanes = tset zn s.spares.lanes (m * 2 + b01 up) (tget zn s.spares.lanes (m * 2 + b01 up) + 1) ∧
      t.spareUsed 8 = s.spareUsed 8 + 1 ∧ t.fd.d2d.retired = s.fd.d2d.retired ∧
      t.fd.d2d.training = s.fd.d2d.training.filter (· != m.val) ∧ OnlyIn [.fd, .spares, .ev] s t := by
  obtain ⟨u, repairs, lanes, used, fd, only⟩ := State.repairLane_left (lane := lane) left
  have ends := State.sendsOnly_placeWaiting (u.setD2d { u.fd.d2d with training := u.fd.d2d.training.filter (· != m.val) })
  have spares := ends.only .spares (by simp)
  simp only [execD2dRetrainEnd, training, Bool.not_true, Bool.false_eq_true, if_false, State.repairLanes, repairs, if_true]
  refine ⟨_, rfl, (congrArg Spares.lanes spares).trans lanes, ?_, ends.retired.trans (congrArg (·.d2d.retired) fd),
    ends.training.trans (congrArg (·.d2d.training.filter (· != m.val)) fd), ?_⟩
  · exact (congrArg (fun r : Spares => tget zn r.used 8) spares).trans used
  · exact (only.mono (by simp)).trans (OnlyIn.trans (by simp [onlyIn_iff]) (ends.only.mono (by simp)))

/-- A cell whose wait is over joins its VOQ with the next sequence number of its stream (R225). -/
theorem execXbarPackTimeout_joins {input out : Fin 32} {cls : Fin 3} {s : State} {c : Cell}
    (packed : tget none0 s.td.xb.packs (voqKey input cls out) = some c) (due : c.since + 8 * s.rf 0xBF210000 31 24 ≤ s.mono) :
    execXbarPackTimeout input out cls s = .next (s.setXb { s.td.xb with
      packs := tset none0 s.td.xb.packs (voqKey input cls out) none
      seqs := tset zn s.td.xb.seqs (voqKey input cls out) ((tget zn s.td.xb.seqs (voqKey input cls out) + 1) % 65536)
      voqs := tset nil0 s.td.xb.voqs (voqKey input cls out) (tget nil0 s.td.xb.voqs (voqKey input cls out)
        ++ [{ c with seq := tget zn s.td.xb.seqs (voqKey input cls out), since := s.mono }]) }) := by
  simp only [execXbarPackTimeout, State.pushCell, packed, due, if_true]

/-- A unicast cell alone crosses to its output (R229). -/
theorem Xbar.cross_alone {x : Xbar} {key o : Nat} {c : Cell} (mono : Nat) (unicast : c.cls = 1) (outs : c.outs = [o])
    (only : x.voqs = [(key, [c])]) : x.cross mono key [o] = { x with voqs := [], crossing := x.crossing ++ [(o, c)] } := by
  have whole : { c with outs := [o], cls := 1 } = c := unicast ▸ outs ▸ rfl
  simp [Xbar.cross, only, tget, tset, tdel, unicast, nil0, whole]

/-- The one cell that waits is matched with its output and crosses (R227, R229). -/
theorem execXbarMatching_alone {s : State} {i o : Nat} {c : Cell} (below : o < 16) (unicast : c.cls = 1) (outs : c.outs = [o])
    (ready : s.td.fab.ready = []) (stalled : s.fd.d2d.stalled = []) (only : s.td.xb.voqs = [(voqKey i 1 o, [c])]) :
    execXbarMatching s = .next (s.setXb { s.td.xb.point [⟨i, o, 1, voqKey i 1 o⟩] with
      voqs := [], crossing := s.td.xb.crossing ++ [(o, c)] }) := by
  have key : voqKey i 1 o / 96 = i ∧ voqKey i 1 o % 32 = o ∧ voqKey i 1 o % 96 / 32 ≠ 2 := by simp only [voqKey]; omega
  obtain ⟨input, output, class1⟩ := key
  have asks : (s.td.xb.voqs.flatMap voqReqs).filter (fun r => s.outOpen r.o) = [⟨i, o, 1, voqKey i 1 o⟩] := by
    simp [only, voqReqs, unicast, input, output, State.outOpen, below]
  have crosses := Xbar.cross_alone s.mono unicast outs ((s.td.xb.point_keeps ⟨i, o, 1, voqKey i 1 o⟩).1.trans only)
  simp only [execXbarMatching, asks, matchRounds_alone _ ⟨i, o, 1, voqKey i 1 o⟩ class1, List.map,
    show [voqKey i 1 o].eraseDups = [voqKey i 1 o] from rfl, List.filter, beq_self_eq_true, List.foldl, crosses]
  simp only [(Xbar.point_keeps ..).2]
  simp [stalled, ready, State.setXb, State.landReady]

/-- The cell that crossed first is found first, and leaves the list as it is taken. -/
theorem crossing_first {s : State} {out : Nat} {c : Cell} {rest : List (Nat × Cell)} (first : s.td.xb.crossing = (out, c) :: rest) :
    s.td.xb.crossing.find? (·.1 == out) = some (out, c) ∧ s.td.xb.crossing.erase (out, c) = rest := by simp [first]

/-- Settles O30. -/
theorem crossingCompletes : Obligations.CrossingCompletes := by
  unfold Obligations.CrossingCompletes
  refine ⟨fun m dir s => ⟨fun flit powered kept idle => flitReceive_completes flit powered kept idle,
    fun kept idle => ⟨_, rfl, State.retrain_on kept idle⟩,
    fun training => ⟨execD2dRetrainEnd_back training, fun up lane left => execD2dRetrainEnd_repairs training left⟩⟩,
    ?pack, ?age, ?matching, ?lost, ?taken⟩
  case pack =>
    intro input out cls s c packed due
    exact ⟨_, execXbarPackTimeout_joins packed due, rfl, rfl, by simp [onlyIn_iff]⟩
  case age =>
    intro input s
    refine ⟨s.setXb { s.td.xb with
        voqs := s.td.xb.voqs.map (ageHead input s.mono (1000 * max 1 (s.rf 0xBF210000 23 12))) }, rfl, ?_, ?_, by simp [onlyIn_iff]⟩
    · intro v listed own multicast c r head old
      obtain ⟨w, -, rfl⟩ := List.mem_map.mp listed
      exact ageHead_aged own multicast head old
    · exact (List.map_map ..).trans (List.map_congr_left fun v _ => ageHead_keeps ..)
  case matching =>
    intro s i o c narrow below unicast outs ready stalled only
    exact ⟨_, execXbarMatching_alone below unicast outs ready stalled only, rfl, rfl, by simp [onlyIn_iff]⟩
  case lost =>
    intro out s c rest first empty quiet
    obtain ⟨found, leaves⟩ := crossing_first first
    simp only [exec_xbarCellReceive, execXbarCellReceive, State.setXb, found, leaves, quiet, empty, Bool.not_false, Bool.true_or, if_true,
      Bool.false_eq_true, if_false]
    exact ⟨_, rfl, rfl, rfl, rfl, by simp [onlyIn_iff, State.post]⟩
  case taken =>
    intro out s c rest first empty next
    obtain ⟨found, leaves⟩ := crossing_first first
    have inOrder : (c.cls ≠ 2 && c.seq ≠ (tget dflt s.td.xb.rx (voqKey c.input c.cls out)).expect) = false := by
      rcases next with multicast | turn <;> simp [*]
    simp only [exec_xbarCellReceive, execXbarCellReceive, found, leaves, empty]
    exact ⟨_, if_neg (by rw [Bool.not_true, Bool.false_or]; exact Bool.eq_false_iff.mp inOrder), rfl, rfl, by simp [onlyIn_iff]⟩

end Sys2Proof.Machine
end

section
/-! SUPPORT. The arbitration of a module's transmitter (R40), and O31. -/

namespace Sys2Proof.Machine

/-- A round serves the first ready VC from its turn on (R40). -/
theorem D2dTx.robin_some {t : D2dTx} {k base n v : Nat} (served : t.robin k base n = some v) :
    ∃ i, i < n ∧ v = base + (tget zn t.turns k + i) % n ∧ t.ready v = true ∧
      ∀ j < i, t.ready (base + (tget zn t.turns k + j) % n) = false := by
  obtain ⟨ready, i, below, rfl, earlier⟩ := List.find?_eq_some_iff_getElem.mp served
  simp only [List.getElem_map, List.getElem_range] at *
  exact ⟨i, by simpa using below, rfl, ready, fun j before => by simpa using earlier j before⟩

/-- A round that serves nothing has nothing ready (R40). -/
theorem D2dTx.robin_none_iff {t : D2dTx} {k base n : Nat} :
    t.robin k base n = none ↔ ∀ i < n, t.ready (base + (tget zn t.turns k + i) % n) = false := by
  simp [D2dTx.robin, List.find?_eq_none]

/-- VC4 and VC5 serve nothing when neither is ready (R40). -/
theorem D2dTx.robin_low_none {t : D2dTx} (idle : (t.ready 4 || t.ready 5) = false) : t.robin 1 4 2 = none := by
  obtain ⟨four, five⟩ := Bool.or_eq_false_iff.mp idle
  refine D2dTx.robin_none_iff.mpr fun i _ => ?_
  rcases Nat.mod_two_eq_zero_or_one (tget zn t.turns 1 + i) with turn | turn <;> simp only [turn, four, five]

/-- VC4 or VC5 is served when one is ready (R40). -/
theorem D2dTx.robin_low_some {t : D2dTx} (ready : (t.ready 4 || t.ready 5) = true) :
    ∃ v, t.robin 1 4 2 = some v ∧ (v = 4 ∨ v = 5) ∧ t.ready v = true := by
  match served : t.robin 1 4 2 with
  | some v =>
    obtain ⟨i, -, rfl, goes, -⟩ := D2dTx.robin_some served
    exact ⟨_, rfl, by omega, goes⟩
  | none =>
    have waits := D2dTx.robin_none_iff.mp served
    have both : ∀ v < 2, t.ready (4 + v) = false := fun v below => by
      have turn := waits ((v + tget zn t.turns 1) % 2) (Nat.mod_lt _ (by decide))
      rwa [show (tget zn t.turns 1 + (v + tget zn t.turns 1) % 2) % 2 = v by omega] at turn
    simp [both 0 (by decide), both 1 (by decide)] at ready

/-- VC0 to VC3 serve nothing when none of them is ready (R40). -/
theorem D2dTx.robin_data_none {t : D2dTx} (idle : (List.range 4).any t.ready = false) : t.robin 0 0 4 = none :=
  D2dTx.robin_none_iff.mpr fun i _ => by
    simpa using List.any_eq_false.mp idle ((tget zn t.turns 0 + i) % 4) (List.mem_range.mpr (Nat.mod_lt _ (by decide)))

/-- One of VC0 to VC3 is served, the first ready from its turn on, when one is ready (R40). -/
theorem D2dTx.robin_data_some {t : D2dTx} (ready : (List.range 4).any t.ready = true) :
    ∃ v i, t.robin 0 0 4 = some v ∧ v < 4 ∧ t.ready v = true ∧ i < 4 ∧ v = (tget zn t.turns 0 + i) % 4 ∧
      ∀ j < i, t.ready ((tget zn t.turns 0 + j) % 4) = false := by
  match served : t.robin 0 0 4 with
  | some v =>
    obtain ⟨i, below, rfl, goes, earlier⟩ := D2dTx.robin_some served
    simp only [Nat.zero_add] at *
    exact ⟨_, i, rfl, Nat.mod_lt _ (by decide), goes, below, rfl, earlier⟩
  | none =>
    have waits := D2dTx.robin_none_iff.mp served
    obtain ⟨v, listed, goes⟩ := List.any_eq_true.mp ready
    have below := List.mem_range.mp listed
    have turn := waits ((v + 3 * (tget zn t.turns 0 % 4)) % 4) (Nat.mod_lt _ (by decide))
    rw [show 0 + (tget zn t.turns 0 + (v + 3 * (tget zn t.turns 0 % 4)) % 4) % 4 = v by omega, goes] at turn
    cases turn

/-- Before 63 flits have passed without the low VCs, or with none of them ready, they are not due (R40). -/
theorem D2dTx.not_due {t : D2dTx} (early : t.starved < 63 ∨ (t.ready 4 || t.ready 5) = false) :
    (if 63 ≤ t.starved then t.robin 1 4 2 else none) = none := by
  rcases early with few | idle
  · exact if_neg (Nat.not_le.mpr few)
  · rw [D2dTx.robin_low_none idle, ite_self]

/-- Settles O31. -/
theorem flitsAreServedByClass : Obligations.FlitsAreServedByClass := by
  unfold Obligations.FlitsAreServedByClass
  intro t m data low
  refine ⟨?link, ?data, ?marks, ?low, ?again, ?fresh⟩
  case link => intro link; simp only [D2dTx.pick, link, if_true]
  case data =>
    intro quiet early ready
    obtain ⟨v, i, served, rest⟩ := D2dTx.robin_data_some ready
    exact ⟨v, i, by simp [D2dTx.pick, quiet, D2dTx.not_due early, served], rest⟩
  case marks =>
    intro quiet early idle six
    simp [D2dTx.pick, quiet, D2dTx.not_due early, D2dTx.robin_data_none idle, six]
  case low =>
    intro quiet ready turn
    obtain ⟨v, served, rest⟩ := D2dTx.robin_low_some ready
    refine ⟨v, ?_, rest⟩
    rcases turn with due | ⟨idle, six⟩
    · simp [D2dTx.pick, quiet, due, served]
    · by_cases due : 63 ≤ t.starved <;> simp [D2dTx.pick, quiet, D2dTx.robin_data_none idle, six, served, due]
  case again =>
    intro k seq f b asked _ kept
    have waiting : 0 < t.again := by omega
    simp only [D2dTx.slot, if_pos waiting, kept]
    exact ⟨trivial, trivial, trivial⟩
  case fresh =>
    intro v none room picks
    simp [D2dTx.slot, none, Nat.not_le.mpr room, picks]

end Sys2Proof.Machine
end

section
/-! SUPPORT. Codeword lock and the lanes of a Span port (R57, R65 to R68, R72), and O34 and O35. -/

namespace Sys2Proof.Machine

theorem State.onlyIn_setLine (s : State) (x : LineSide) : OnlyIn [.line] s (s.setLine x) := by simp [onlyIn_iff]

theorem State.putPortRun_lane (s : State) (p : Nat) (r : PortRun) (l : Nat) :
    (s.putPortRun p r).lane l = s.lane l := rfl

/-- Settles O34. -/
theorem codewordLock : Obligations.CodewordLock := by
  unfold Obligations.CodewordLock
  intro c mono
  refine ⟨fun out fourth => ?_, fun out few => ?_, fun out => ?_, fun held eighth => ?_, fun held few => ?_, fun held => ?_⟩
  · simp [CwLock.take, out, fourth]
  · simp [CwLock.take, out, show c.good + 1 < 4 by omega]
  · simp [CwLock.take, out]
  · simp [CwLock.take, held, eighth]
  · simp [CwLock.take, held, show c.bad + 1 < 8 by omega]
  · simp [CwLock.take, held]

section Lanes

variable {lane : Fin 128} {s : State} {p : Nat} {c : PortCfg} (found : s.portAt lane = some (p, c)) (span : c.type = 4)
  (up : c.up = true) (powered : s.lineOn = true)
include found span up powered

/-- A codeword that does not lose the lock moves it, and a locked lane reads its 20 blocks (R57, R65). -/
theorem execCodewordReceive_line {ok : Bool} (n : Nat) (message : BitVec 5140)
    (held : (s.lane lane).cw.lock = false ∨ ((s.lane lane).cw.take ok s.mono).lock = true) :
    ∃ r, execCodewordReceive false lane ok n message s = .next ((s.putPortRun p r).putLane lane
      (if ((s.lane lane).cw.take ok s.mono).lock then
          { s.lane lane with
            cw := (s.lane lane).cw.take ok s.mono, got := if ok then readBlocks message else []
            blocks := if (s.lane lane).cw.lock then ((s.lane lane).blocks + 20) % 4096 else 20 }
        else { s.lane lane with cw := (s.lane lane).cw.take ok s.mono, got := [], blocks := 0 })) := by
  have stays : (!(s.lane lane).cw.lock || ((s.lane lane).cw.take ok s.mono).lock) = true := by
    rcases held with out | locked <;> simp [*]
  simp only [execCodewordReceive, found, powered, up, span, Bool.not_true, Bool.or_self, Bool.false_eq_true, if_false,
    State.putPortRun_lane, Bool.or_assoc, decide_true, Bool.true_and]
  exact ⟨{ s.portRun p with fec := (s.portRun p).fec + n, errs := (s.portRun p).errs + 0 }, if_pos stays⟩

/-- The first frame alignment word seen in HUNT begins the lane's only candidate (R66). -/
theorem execSpanBlockReceive_begins {pos : Fin 4096} {oh : List Byte} (locked : (s.lane lane).cw.lock = true)
    (hunting : (s.lane lane).fsm = .hunt) (empty : (s.lane lane).cands = [])
    (fas : BitVec.ofNat 48 (beNat (oh.take 6)) = fasPattern) (length : oh.length = 64)
    (good : ohOk (unscramble (beNat ((oh.drop 6).take 1)) (beNat ((oh.drop 7).take 2)) oh) = true) :
    ∃ slot, execSpanBlockReceive lane pos oh s = .next (s.putLane lane { s.lane lane with
      cands := [⟨pos, slot, 0, 1, 1, beNat ((oh.drop 6).take 1), beNat ((oh.drop 7).take 2)⟩], fsm := .confirm }) := by
  simp only [execSpanBlockReceive, found, powered, span, up, locked, hunting, empty, fas, length, good]
  exact ⟨_, rfl⟩

end Lanes

/-- Settles O35. -/
theorem lanesComplete : Obligations.LanesComplete := by
  unfold Obligations.LanesComplete
  intro lane s p c found span up powered
  refine ⟨?codeword, ?hit, ?period, ?flywheel, ?clears, ?enters⟩
  case codeword =>
    intro ok n message x cw held
    obtain ⟨r, takes⟩ := execCodewordReceive_line found span up powered n message held
    exact ⟨_, takes, (s.onlyIn_setLine _).trans (State.onlyIn_setLine _ _), rfl⟩
  case hit =>
    intro pos oh locked hunting empty fas length good
    obtain ⟨slot, begins⟩ := execSpanBlockReceive_begins found span up powered (pos := pos) locked hunting empty fas length good
    exact ⟨_, begins, rfl, rfl, rfl, rfl⟩
  case period =>
    intro seen locked confirming none
    simp [execSpanFramePeriodEnd, found, powered, span, up, locked, confirming, none]
  case flywheel =>
    intro locked flying fifth
    simp [execSpanFramePeriodEnd, found, powered, span, up, locked, flying, fifth]
  case clears =>
    intro alarm locked held
    simp [execDlocwExitTimer, found, powered, alarm, locked, ms, held]
  case enters =>
    intro quiet unlocked held
    simp [execDlocwLockTimeout, found, powered, span, up, quiet, unlocked, held]

end Sys2Proof.Machine
end

section
/-! SUPPORT. Port defects, degraded seconds, pending entries and holdover (R50, R53, R59, R73 to R75, R88), and O36. -/

namespace Sys2Proof.Machine

/-! ## A channel that is lost -/

/-- From `s` to `t` the ports and the configuration stay, and events are only added. -/
structure KeepsPorts (s t : State) : Prop where
  ports : t.line.ports = s.line.ports
  cfg : t.cfg = s.cfg
  events : s.ev.flight <+: t.ev.flight

theorem KeepsPorts.refl (s : State) : KeepsPorts s s := ⟨rfl, rfl, List.prefix_rfl⟩

theorem KeepsPorts.trans {s t u : State} (h : KeepsPorts s t) (k : KeepsPorts t u) : KeepsPorts s u :=
  ⟨k.ports.trans h.ports, k.cfg.trans h.cfg, h.events.trans k.events⟩

theorem KeepsPorts.ite {s a b : State} {c : Prop} [Decidable c] (h : KeepsPorts s a) (k : KeepsPorts s b) :
    KeepsPorts s (if c then a else b) := by
  split
  · exact h
  · exact k

theorem KeepsPorts.foldl {α : Type} {f : State → α → State} (keeps : ∀ s a, KeepsPorts s (f s a)) (l : List α) (s : State) :
    KeepsPorts s (l.foldl f s) := by
  induction l generalizing s with
  | nil => exact KeepsPorts.refl s
  | cons a l ih => exact (keeps s a).trans (ih _)

theorem State.keepsPorts_post (s : State) (n : Nat) (l : List (Nat × Nat)) : KeepsPorts s (s.post n l) :=
  ⟨rfl, rfl, List.prefix_append _ _⟩

theorem State.keepsPorts_tellAlign (s : State) (c kind : Nat) (t : Word64) (p : Nat) : KeepsPorts s (s.tellAlign c kind t p) := by
  simp only [State.tellAlign, State.tetherPut, State.tetherSend]
  repeat' split
  all_goals exact ⟨rfl, rfl, List.prefix_rfl⟩

/-- A lost channel loses its position and its alignment (R86, R340). -/
theorem State.keepsPorts_chanLost (s : State) (c : Nat) : KeepsPorts s (s.chanLost c) := by
  have reset (a : Align) : KeepsPorts s ((s.putPos c 0).putAlign c a) := ⟨rfl, rfl, List.prefix_rfl⟩
  have put (t : State) (a : Align) : KeepsPorts t (t.putAlign c a) := ⟨rfl, rfl, List.prefix_rfl⟩
  simp only [State.chanLost]
  split
  · exact reset _
  · exact ((reset _).trans (put _ _)).trans (KeepsPorts.trans
      (KeepsPorts.ite (State.keepsPorts_tellAlign _ _ _ _ _) (KeepsPorts.refl _))
      (KeepsPorts.ite (State.keepsPorts_post _ _ _) (KeepsPorts.refl _)))

/-- A port noted as stopped keeps the defects it has (R75). -/
theorem State.markStop_std (s : State) (p q : Nat) : ((s.markStop p).portRun q).std = (s.portRun q).std := by
  by_cases same : q = p
  · subst same
    have stopped : { s.portRun q with stopped := true } ≠ (default : PortRun) := fun e => by cases congrArg PortRun.stopped e
    have reads : (s.markStop q).portRun q = { s.portRun q with stopped := true } := tget_tset_self _ _ _ _ stopped
    rw [reads]
  · exact congrArg PortRun.std (tget_tset_ne _ _ _ _ _ same)

theorem State.markStops_keeps (s : State) (l : List (Nat × PortCfg)) (q : Nat) :
    ((s.markStops l).portRun q).std = (s.portRun q).std ∧ (s.markStops l).ev = s.ev := by
  unfold State.markStops
  induction l generalizing s with
  | nil => exact ⟨rfl, rfl⟩
  | cons x l ih =>
    rw [List.foldl_cons, (ih _).1, (ih _).2]
    split
    · exact ⟨s.markStop_std x.1 q, rfl⟩
    · exact ⟨rfl, rfl⟩

/-- Channels lost and ports noted as stopped leave the standard defects, and only add events. -/
theorem State.defect_spreads (s : State) (l : List Nat) (k : List (Nat × PortCfg)) (q : Nat) :
    (((l.foldl (fun s ch => s.chanLost ch) s).markStops k).portRun q).std = (s.portRun q).std ∧
      s.ev.flight <+: ((l.foldl (fun s ch => s.chanLost ch) s).markStops k).ev.flight := by
  have lost : KeepsPorts s (l.foldl (fun s ch => s.chanLost ch) s) := KeepsPorts.foldl State.keepsPorts_chanLost l s
  obtain ⟨std, ev⟩ := State.markStops_keeps (l.foldl (fun s ch => s.chanLost ch) s) k q
  rw [std, ev]
  exact ⟨by rw [State.portRun, lost.ports]; rfl, lost.events⟩

/-! ## Standard defects -/

section Defects

variable {port : Fin 128} {s : State} {c : PortCfg} (found : s.port port = some c) (powered : s.lineOn = true)
include found powered

/-- A defect of the port's own standard enters, with its event (R50, R73). -/
theorem execPortStandardDefect_enters {d : PortDefect} (fits : d.fits c.type c.lanes = true) (notBip : d ≠ .otnBip8)
    (notClient : ∀ ch, d ≠ .clientLock ch) (new : d ∉ (s.portRun port).std) :
    ∃ t, execPortStandardDefect port d true s = .next t ∧ (t.portRun port).std = (s.portRun port).std ++ [d] ∧
      ⟨d.event c.type, evData [], s.time.dev, false⟩ ∈ t.ev.flight := by
  have unlisted : (s.portRun port).std.contains d = false := by simpa using new
  simp only [execPortStandardDefect, found, powered, fits, Bool.not_true, Bool.or_self, Bool.false_eq_true, if_false, if_true, unlisted]
  refine ⟨_, rfl, (State.defect_spreads _ _ _ _).1.trans ?_, (State.defect_spreads _ _ _ 0).2.subset ?_⟩
  · exact congrArg PortRun.std (tget_tset_self (fun _ => default) s.line.ports _ _
      fun e => List.append_ne_nil_of_right_ne_nil _ (List.cons_ne_nil d []) (congrArg PortRun.std e))
  · exact List.mem_append_right _ (List.mem_singleton_self _)

/-- A defect of the port's own standard leaves, with its event (R50, R73). -/
theorem execPortStandardDefect_leaves {d : PortDefect} (fits : d.fits c.type c.lanes = true) (notBip : d ≠ .otnBip8)
    (notClient : ∀ ch, d ≠ .clientLock ch) (held : d ∈ (s.portRun port).std) :
    execPortStandardDefect port d false s
      = .next ((s.putPortRun port { s.portRun port with std := (s.portRun port).std.erase d }).post (d.event c.type + 0x010) []) := by
  have listed : (s.portRun port).std.contains d = true := List.contains_iff_mem.mpr held
  simp only [execPortStandardDefect, found, powered, fits, Bool.not_true, Bool.or_self, Bool.false_eq_true, if_false, listed, if_true]

end Defects

/-! ## Entries, seconds and holdover -/

/-- Entries that wait come into effect (R53). -/
theorem State.commitEntries_waiting {s : State} {p type : Nat} {c : PortCfg} {es : List Word} (found : s.port p = some c)
    (waits : (s.portRun p).entries = some es) (fits : c.type = type) :
    (s.commitEntries p type).port p = some { c with entries := es } ∧
      (trising s.line.ports = true → ((s.commitEntries p type).portRun p).entries = none) := by
  simp only [State.commitEntries, found, waits, fits, ne_eq, not_true_eq_false, if_false]
  constructor
  · refine (congrArg (fun x : Setup => tget (fun _ => none) x.ports p) (KeepsPorts.foldl State.keepsPorts_chanLost _ _).cfg).trans ?_
    rw [apply_ite State.cfg, apply_ite Setup.ports, ite_self]
    exact tget_tset_self (fun _ => none) s.cfg.ports p _ (Option.some_ne_none _)
  · intro rising
    refine (congrArg (fun x => (tget (fun _ => default) x p).entries) (KeepsPorts.foldl State.keepsPorts_chanLost _ _).ports).trans ?_
    rw [apply_ite State.line, ite_self]
    refine (congrArg PortRun.entries (tget_tset (fun _ => default) s.line.ports p p _ rising)).trans ?_
    rw [if_pos rfl]

/-- Settles O36. -/
theorem linePortsComplete : Obligations.LinePortsComplete := by
  unfold Obligations.LinePortsComplete
  intro port s c found powered
  refine ⟨fun d fits notBip notClient => ⟨?enters, ?leaves⟩, ?bip, ?second, fun es waits => ⟨?flexe, ?otn⟩, ?holdover, ?release⟩
  case enters => exact execPortStandardDefect_enters found powered fits notBip notClient
  case leaves => exact execPortStandardDefect_leaves found powered fits notBip notClient
  case bip =>
    intro otn
    simp [execPortStandardDefect, found, powered, PortDefect.fits, otn]
  case second =>
    intro many clear run
    simp [execDegSecondEnd, found, powered, many, clear, run]
  case flexe =>
    intro flexe
    have commits := State.commitEntries_waiting found waits flexe
    simp only [exec_flexeCalendarSwitch, execFlexeCalendarSwitch, powered, if_true]
    exact ⟨_, rfl, commits⟩
  case otn =>
    intro otn
    have commits := State.commitEntries_waiting found waits otn
    simp only [exec_otnEntryCommit, execOtnEntryCommit, powered, if_true]
    exact ⟨_, rfl, commits⟩
  case holdover =>
    intro locked free held
    simp [execHoldoverExit, State.holdOut, powered, locked, free, held]
  case release =>
    intro unlocked held
    simp [execJustHoldoverRelease, powered, held, unlocked, State.putPortRun_lane]

end Sys2Proof.Machine
end

section
/-! SUPPORT. Frames received and sent on the line side, and LINE_STATUS (R47, R54, R55, R81, R85, R86), and O37. -/

namespace Sys2Proof.Machine

/-- A port node drives its line by the mode, the pair and the Span groups alone (R85). -/
theorem State.drives_congr {s t : State} (cfg : t.cfg = s.cfg) (pwr : t.pwr = s.pwr) (pair : t.pair = s.pair) (node : Nat) :
    t.drives node = s.drives node := by
  simp only [State.drives, State.silent, State.span, cfg, pwr, pair]

/-- A time-stamp action touches no mode, no pair and no configuration (R388). -/
theorem State.tsAction_keeps (s : State) (node : Nat) (e : EgInfo) (f : List Byte) :
    (s.tsAction node e f).2.cfg = s.cfg ∧ (s.tsAction node e f).2.pwr = s.pwr ∧ (s.tsAction node e f).2.pair = s.pair := by
  unfold State.tsAction
  repeat' split
  all_goals exact ⟨rfl, rfl, rfl⟩

theorem State.tsAction_drives (s : State) (node : Nat) (e : EgInfo) (f : List Byte) :
    (s.tsAction node e f).2.drives node = s.drives node :=
  let ⟨cfg, pwr, pair⟩ := s.tsAction_keeps node e f
  State.drives_congr cfg pwr pair node

/-- A frame on a channel that is carried is judged by its length and its type, and else handed in (R47, R54). -/
theorem execFrameReceive_carried {chan : Fin 4096} {units : Nat} {frame : List Byte} {s : State} {p : Nat} {c : PortCfg}
    (found : s.portList.find? (fun x => x.2.channels.contains chan.val) = some (p, c)) (powered : s.lineOn = true)
    (up : c.up = true) (runs : s.portStops p c = false) (locked : (s.portRun p).seek.contains (.clientLock chan) = false) :
    execFrameReceive chan units frame s =
      if frame.length < 64 then .next ((s.putPos chan (s.chanPos chan + units)).bump 0 p 2 1)
      else if c.maxFrame < frame.length then .next ((s.putPos chan (s.chanPos chan + units)).bump 0 p 3 1)
      else if be16 frame 12 = 0x8808 then .next ((s.putPos chan (s.chanPos chan + units)).bump 0 p 4 1)
      else .next ((s.putPos chan (s.chanPos chan + units)).handIn
        { port := p, chan, manifest := BitVec.ofNat 48 (s.chanPos chan + units), time := (s.putPos chan (s.chanPos chan + units)).now,
          bad := frame != withFcs (frame.take (frame.length - 4)) false, origin := none, bytes := frame }) := by
  simp only [execFrameReceive, found, powered, up, runs, locked, Bool.not_true, Bool.or_self, Bool.false_eq_true, if_false]

section Framer

variable {node : Fin 176} {s : State} {f : List Byte} {e : EgInfo} {r : List (List Byte × EgInfo)}
  (head : tget nil0 s.fd.eng.tx node = (f, e) :: r)
include head

/-- The framer sends a frame whose tail status is there (R54, R81). -/
theorem execEgressFrameTransmit_sends (tail : e.tailIn = true) (port : node.val < 144) (drives : s.drives node = true) :
    let s1 := (s.setEng { s.fd.eng with tx := tset nil0 s.fd.eng.tx node r }).unsend node f.length
    let b := if e.begun then (f.take (f.length - 4), s1) else s1.tsAction node e (f.take (f.length - 4))
    execEgressFrameTransmit node s
      = .next (b.2.setEng { b.2.fd.eng with sent := tset nil0 b.2.fd.eng.sent node (withFcs b.1 e.stomp) }) := by
  intro s1 b
  have still : b.2.drives node = true := by
    by_cases begun : e.begun = true
    · simp only [b, begun, if_true]; exact drives
    · simp only [b, begun, Bool.false_eq_true, if_false, State.tsAction_drives]; exact drives
  simp only [execEgressFrameTransmit, head, tail, Bool.not_true, Bool.false_and, Bool.false_eq_true, if_false, State.sentPart, if_true]
  refine (if_pos port).trans (congrArg Host.Outcome.next (if_pos still))

/-- The framer begins a frame whose tail status is still to come (R81, log 27). -/
theorem execEgressFrameTransmit_begins (tail : e.tailIn = false) (begun : e.begun = false) :
    execEgressFrameTransmit node s = .next (s.beginFrame node e f r) := by
  simp only [execEgressFrameTransmit, head, tail, begun, Bool.not_false, Bool.and_self, if_true]

/-- A frame begun whose tail status is late is cut off (R81, log 27). -/
theorem execEgressFrameTransmit_cuts (tail : e.tailIn = false) (begun : e.begun = true) (port : node.val < 144)
    (drives : s.drives node = true) :
    let s1 := (s.setEng { s.fd.eng with tx := tset nil0 s.fd.eng.tx node r }).unsend node f.length
    ∃ k u, u = (s1.draw.2.bump 1 node 13 1).postOnce 0x110 0 [d16 node] ∧ execEgressFrameTransmit node s
      = .next (u.setEng { u.fd.eng with sent := tset nil0 u.fd.eng.sent node (withFcs ((f.take (f.length - 4)).take k) true) }) := by
  intro s1
  have still : ((s1.draw.2.bump 1 node 13 1).postOnce 0x110 0 [d16 node]).drives node = true := drives
  simp only [execEgressFrameTransmit, head, tail, begun, Bool.not_true, Bool.and_false, Bool.false_eq_true, if_false, if_true,
    State.sentPart]
  exact ⟨_, _, rfl, (if_pos port).trans (congrArg Host.Outcome.next (if_pos still))⟩

end Framer

/-- Settles O37. -/
theorem lineFramesComplete : Obligations.LineFramesComplete := by
  unfold Obligations.LineFramesComplete
  refine ⟨?receive, ?send, ?late, ?status⟩
  case receive =>
    intro chan units frame s p c found powered up runs locked
    have judged := execFrameReceive_carried (units := units) (frame := frame) found powered up runs locked
    refine ⟨fun short => judged.trans (if_pos short), fun whole long => ?_, fun whole fits control => ?_, fun whole fits data => ?_⟩
    all_goals have notShort : ¬ frame.length < 64 := Nat.not_lt.mpr whole
    · exact judged.trans ((if_neg notShort).trans (if_pos long))
    all_goals have notLong : ¬ c.maxFrame < frame.length := Nat.not_lt.mpr fits
    · exact judged.trans ((if_neg notShort).trans ((if_neg notLong).trans (if_pos control)))
    · exact ⟨_, judged.trans ((if_neg notShort).trans ((if_neg notLong).trans (if_neg data))), rfl, rfl, rfl, rfl, rfl, bne_iff_ne⟩
  case send => exact fun node s f e r head tail port drives => execEgressFrameTransmit_sends head tail port drives
  case late =>
    exact fun node s f e r head tail => ⟨fun begun => execEgressFrameTransmit_begins head tail begun,
      fun begun port drives => execEgressFrameTransmit_cuts head tail begun port drives⟩
  case status =>
    intro h p s c wide length zeros found mode powered acts
    refine .of_runCommand (exec_lineStatus ..) (by simp [wide, length, zeros, found]) rfl (by simp [mode]) acts (by simp) ?_
    simp [found, powered]

end Sys2Proof.Machine
end

section
/-! SUPPORT. The configuration of ports and Span groups (R51 to R53, R78, R79, R92, R93), and O38. -/

namespace Sys2Proof.Machine

/-- Settles O38. -/
theorem portAndGroupCommandsComplete : Obligations.PortAndGroupCommandsComplete := by
  unfold Obligations.PortAndGroupCommandsComplete
  refine fun h p s => ⟨fun good priv mode room acts => ⟨fun shadow => ?shadow, fun apply down clear => ?apply⟩,
    fun good priv mode fits acts => ⟨fun shadow new => ?spanShadow, fun apply new => ?spanApply⟩, ?resize⟩
  case shadow =>
    exact .of_runSimple (exec_linePortCfg ..) good (by simpa using priv) mode acts (by simp [shadow, shadow ▸ room]) (by simp [shadow])
  case apply =>
    exact .of_runSimple (exec_linePortCfg ..) good (by simpa using priv) mode acts (by simp [apply, down, clear, apply ▸ room]) (by simp [apply])
  case spanShadow =>
    refine .of_runSimple (exec_spanGroupCfg ..) good (by simpa using priv) mode acts (by simp [fits, shadow]) ?_
    have absent : State.span { s with cfg := { s.cfg with
        spanShadow := tset (fun _ => none) s.cfg.spanShadow (pf p 0 31 27) (some (spanCfgOf p)) } } (pf p 0 31 27) = none := new
    simp [shadow, absent]
  case spanApply =>
    exact .of_runSimple (exec_spanGroupCfg ..) good (by simpa using priv) mode acts (by simp [fits, apply, new]) (by simp [apply, new])
  case resize =>
    intro c length zeros found good mode active quiet acts g r seq
    have may : (s.pwr.mode == .standby && !c.prot) = false := by rcases active with other | protected_ <;> simp [*]
    refine .of_runCommand (exec_spanResize ..) (by simp [length, zeros, found, good]) rfl (by simp [mode]) acts
      (by simp [found, quiet, may]) ?_
    simp [found, g, r, seq]

end Sys2Proof.Machine
end

section
/-! SUPPORT. Span instances, deskewed blocks and delineation (R69 to R71, R83, R87, R90), and O39. -/

namespace Sys2Proof.Machine

section Instances

variable {port : Fin 128} {inst : Fin 64} {frame : List Byte} {s : State} {pc : PortCfg} (found : s.port port = some pc)
  (powered : s.lineOn = true) (span : pc.type = 4) (up : pc.up = true) (own : inst.val < 8 * pc.lanes)
  (length : frame.length = 16384) (locked : (s.lane (port.val + inst.val % pc.lanes)).fsm = .inFrame)
include found powered span up own length locked

/-- A Span stream not yet accepted is checked on its FAS and its counts (R69). -/
theorem execSpanInstanceFrameReceive_checks (seeks : (s.inst port inst).acc = false) :
    execSpanInstanceFrameReceive port inst frame s = .next (s.putInst port inst ((s.inst port inst).check
      (BitVec.ofNat 48 (beNat (frame.take 6)) == fasPattern) (beNat ((frame.drop 6).take 1)) (beNat ((frame.drop 7).take 2)))) := by
  simp [execSpanInstanceFrameReceive, found, powered, span, up, Nat.not_le.mpr own, length, locked, seeks]

/-- The fifth frame without FAS restarts an accepted Span stream (R71). -/
theorem execSpanInstanceFrameReceive_restarts (accepted : (s.inst port inst).acc = true)
    (far : 2 < diffBits (BitVec.ofNat 48 (beNat (frame.take 6))) fasPattern) (fifth : (s.inst port inst).fasBad = 4) :
    execSpanInstanceFrameReceive port inst frame s
      = .next ((s.putInst port inst (s.inst port inst).restart).lofIn port inst) := by
  simp [execSpanInstanceFrameReceive, found, powered, span, up, Nat.not_le.mpr own, length, locked, accepted, far, fifth]

end Instances

/-- A block whose time has come is read, and the last one of a cycle ends it (R87). -/
theorem execSpanBlockRead_reads {g : Fin 32} {s : State} {c : SpanCfg} {t : Nat} {ts : List Nat} (found : s.span g = some c)
    (reading : (s.spanRun g).reading = true) :
    let c1 := (s.readCal g c).1
    let e := ((s.spanRun g).rdG - (s.readCal g c).2) % c1.krx
    let at_ := readTime c1 (t :: ts) (ts.foldl min t) (ts.foldl max t)
    (s.cycleTimes c1 ((s.spanRun g).rdG - e)).filterMap (·.2) = t :: ts → at_ ≤ s.mono →
      let s1 := s.takeBlock g (s.blockAt g c1 e at_)
      execSpanBlockRead g s = .next (if e + 1 < c1.krx then s1 else s1.endCycle g c1) := by
  intro c1 e at_ times due s1
  have now : ¬ (!(s.spanRun g).reading || s.mono < at_) = true := by simp [reading, Nat.not_lt.mpr due]
  simp only [c1, e] at times
  simp only [execSpanBlockRead, found, if_pos reading, times]
  exact (if_neg now).trans rfl

/-- A cycle without arrival times is read late, as lost words (R90, log 105). -/
theorem execSpanBlockRead_lost {g : Fin 32} {s : State} {c : SpanCfg} {late : Nat} (found : s.span g = some c)
    (reading : (s.spanRun g).reading = true) :
    let c1 := (s.readCal g c).1
    let e := ((s.spanRun g).rdG - (s.readCal g c).2) % c1.krx
    (s.cycleTimes c1 ((s.spanRun g).rdG - e)).filterMap (·.2) = [] → s.laterTime c ((s.spanRun g).rdG - e + c1.krx) = some late →
      late + 9240 ≤ s.mono → execSpanBlockRead g s = .next (s.takeBlock g none) := by
  intro c1 e times later due
  simp only [c1, e] at times later
  simp [execSpanBlockRead, found, reading, times, later, due]

/-- Settles O39. -/
theorem spanReceiveCompletes : Obligations.SpanReceiveCompletes := by
  unfold Obligations.SpanReceiveCompletes
  refine ⟨?frames, ?blocks, ?words⟩
  case frames =>
    intro port inst frame s pc found powered span up own length locked x seen
    exact ⟨execSpanInstanceFrameReceive_checks found powered span up own length locked,
      execSpanInstanceFrameReceive_restarts found powered span up own length locked⟩
  case blocks =>
    intro g s c t ts found reading r c1 e times lo hi
    refine ⟨fun arrived due => ⟨fun more => ?_, fun last => ?_⟩, fun late none later due => ?_⟩
    · exact (execSpanBlockRead_reads found reading arrived due).trans (congrArg Host.Outcome.next (if_pos more))
    · exact (execSpanBlockRead_reads found reading arrived due).trans (congrArg Host.Outcome.next (if_neg (Nat.not_lt.mpr last)))
    · exact execSpanBlockRead_lost found reading none later due
  case words =>
    intro g s c w ws found waiting r r1
    refine ⟨fun hunts bad => ?_, fun hunts good => ?_, fun checks due good third => ?_, fun locked due idle bad => ?_⟩
    · simp [execSpanWordReceive, found, waiting, show (s.spanRun g).delin = _ from hunts, bad, r1, r]
    · simp [execSpanWordReceive, found, waiting, show (s.spanRun g).delin = _ from hunts, good, r1, r]
    · simp [execSpanWordReceive, found, waiting, show (s.spanRun g).delin = _ from checks, show (s.spanRun g).skip = _ from due,
        show (s.spanRun g).valids = _ from third, good, r1, r]
    · simp [execSpanWordReceive, found, waiting, show (s.spanRun g).delin = _ from locked, show (s.spanRun g).skip = _ from due,
        show (s.spanRun g).pkt = _ from idle, bad, r1, r]

end Sys2Proof.Machine
end

section
/-! SUPPORT. Group defects, the resize handshake and sent frames of the Span groups (R94, R95, R97, R99), and O40. -/

namespace Sys2Proof.Machine

/-- A group that must not follow its partner acts by itself (R99). -/
theorem State.spanFollows_eq_false {s : State} {c : SpanCfg} (acts : s.pwr.mode ≠ .standby ∨ c.prot = true) :
    s.spanFollows c = false := by
  rcases acts with other | guarded <;> simp [State.spanFollows, *]

section Groups

variable {g : Fin 32} {s : State} {c : SpanCfg} (found : s.span g = some c)
include found

/-- The received counts switch at their multiframe (R94). -/
theorem execSpanResizeApplyRx_switches {b : Nat} (accepted : (s.leadIn c).acc = true) (multiframe : (s.leadIn c).mf = 1)
    (waits : (s.spanRun g).rxShake.new ≠ []) (first : (s.leadIn c).firstG = some b)
    (due : ((s.spanRun g).rxShake.ph = 3 ∧ (s.leadIn c).sf = (s.spanRun g).rxShake.sfc) ∨
      ((s.spanRun g).rxShake.ph = 2 ∧
        c.carriers.map (fun q => beNat (((s.inst q.port 0).oh.drop 3).take 1) % 128) = (s.spanRun g).rxShake.new)) :
    let s1 := (s.setSpan g (some (c.withRx (s.spanRun g).rxShake.new))).renumberAll c (c.withRx (s.spanRun g).rxShake.new) b
    execSpanResizeApplyRx g s = .next (s1.putSpanRun g { s1.spanRun g with
      rxEpoch := b, rxOld := some ((s.spanRun g).rxEpoch, c.rxCounts), skewOf := none, skewSeen := []
      rxShake := { (s.spanRun g).rxShake with ph := 3, new := [], sfc := (s.leadIn c).sf } }) := by
  intro s1
  have now : ((s.leadIn c).acc && (s.leadIn c).mf = 1 && !(s.spanRun g).rxShake.new.isEmpty &&
      (((s.spanRun g).rxShake.ph = 3 && (s.leadIn c).sf = (s.spanRun g).rxShake.sfc) || ((s.spanRun g).rxShake.ph = 2 &&
        c.carriers.map (fun q => beNat (((s.inst q.port 0).oh.drop 3).take 1) % 128) = (s.spanRun g).rxShake.new))) = true := by
    rcases due with ⟨phase, frame⟩ | ⟨phase, counts⟩ <;> simp [*]
  simp only [execSpanResizeApplyRx, found, now, first]
  rfl

/-- The sent side of a resize ends one multiframe after its switch (R95). -/
theorem execSpanResizeDone_sent (switched : (s.spanRun g).txShake.ph = 2) (done : (s.spanRun g).txShake.new = [])
    (later : (s.lead c).sf = ((s.spanRun g).txShake.sfc + 1) % 65536) (other : (s.spanRun g).rxShake.ph ≠ 3) :
    execSpanResizeDone g s = .next (s.txDone g) := by
  simp [execSpanResizeDone, found, switched, done, later, other]

/-- The received side of a resize ends one multiframe after its switch (R95). -/
theorem execSpanResizeDone_received (switched : (s.spanRun g).rxShake.ph = 3) (done : (s.spanRun g).rxShake.new = [])
    (later : (s.leadIn c).sf = ((s.spanRun g).rxShake.sfc + 1) % 65536) (other : (s.spanRun g).txShake.ph ≠ 2) :
    execSpanResizeDone g s = .next (s.rxDone g c) := by
  simp [execSpanResizeDone, found, switched, done, later, other]

end Groups

/-- Settles O40. -/
theorem spanResizeCompletes : Obligations.SpanResizeCompletes := by
  unfold Obligations.SpanResizeCompletes
  intro g s c found r
  refine ⟨fun powered up lost held => ?losBegins, fun alarm sync held none => ?losEnds, fun alarm held none => ?partEnds,
    fun agreed waits frame multiframe acts => ?switch, fun new mirrored frame => ?mirror,
    fun b accepted multiframe waits first due => execSpanResizeApplyRx_switches found accepted multiframe waits first due,
    fun switched done later other => execSpanResizeDone_sent found switched done later other,
    fun switched done later other => execSpanResizeDone_received found switched done later other,
    fun asked late acts => ?timeout, fun port pc ci k fill own carrier powered up calm => ?transmit⟩
  case losBegins =>
    simp only [r] at lost held
    simp [execDglosEntryTimer, found, powered, up, lost, ms, held]
  case losEnds =>
    simp only [r] at alarm sync held
    simp only [exec_dglosExitTimer, execDglosExitTimer, found, alarm, sync, ms, show 10 * 1000000 = 10000000 from rfl, none, BEq.rfl, Bool.and_true,
      decide_eq_true held, if_true, r]
  case partEnds =>
    simp only [r] at alarm held
    simp only [exec_dgpartExitTimer, execDgpartExitTimer, found, alarm, ms, show 10 * 1000000 = 10000000 from rfl, none, Bool.and_true,
      decide_eq_true held, if_true, r]
  case switch =>
    simp only [r] at agreed waits multiframe
    simp [execSpanSwitchMultiframe, found, agreed, waits, frame, multiframe, State.spanFollows_eq_false acts, r]
  case mirror =>
    simp only [r] at mirrored
    simp [execStandbySpanApply, found, mirrored, frame]
  case timeout =>
    simp only [r] at asked late
    simp [execSpanResizeTimeout, found, asked, ms, late, State.spanFollows_eq_false acts]
  case transmit =>
    simp only [r] at calm
    simp [execSpanFrameTransmit, own, carrier, powered, up, calm]

end Sys2Proof.Machine
end

section
/-! SUPPORT. Channel alignment and manifest samples (R340 to R342), and O42. -/

namespace Sys2Proof.Machine

theorem Pair.onLane_chans (p : Pair) (f : TetherFrame) : (p.onLane f).chans = p.chans := by
  simp only [Pair.onLane]
  split <;> rfl

/-- A frame handed to the tether leaves the channels of the pair as they are (R341). -/
theorem State.tellAlign_keeps (s : State) (c kind : Nat) (t : Word64) (p : Nat) :
    OnlyIn [.pair] s (s.tellAlign c kind t p) ∧ (s.tellAlign c kind t p).pair.chans = s.pair.chans := by
  simp only [State.tellAlign, State.tetherPut, State.tetherSend]
  repeat' split
  · exact ⟨by simp [onlyIn_iff], Pair.onLane_chans _ _⟩
  all_goals exact ⟨OnlyIn.refl _ s, rfl⟩

theorem State.putAlign_align_ne (s : State) {c d : Nat} (a : Align) (other : d ≠ c) : (s.putAlign c a).align d = s.align d :=
  tget_tset_ne _ _ _ _ _ other

theorem State.onlyIn_putAlign (s : State) (c : Nat) (a : Align) : OnlyIn [.pair] s (s.putAlign c a) := by
  simp [onlyIn_iff, State.putAlign]

/-- Alignment of one channel begins (R340). -/
def State.beginAlign (s : State) (c : Nat) : State :=
  if s.spanChan c || (s.align c).enabled then s
  else s.putAlign c { s.align c with enabled := true, began := some s.now }

/-- Alignment of one channel ends (R340). -/
def State.endAlign (s : State) (c : Nat) : State :=
  let t := (s.putAlign c { restAlign c with markers := (s.align c).markers }).tellAlign c 2 0 0
  if (s.align c).aligned then t.post 0x19C [d16 c] else t

theorem State.beginAlign_keeps (s : State) (c : Nat) :
    OnlyIn [.pair] s (s.beginAlign c) ∧ ∀ d, d ≠ c → (s.beginAlign c).align d = s.align d := by
  unfold State.beginAlign
  split
  · exact ⟨OnlyIn.refl _ s, fun _ _ => rfl⟩
  · exact ⟨s.onlyIn_putAlign c _, fun d other => s.putAlign_align_ne _ other⟩

theorem State.endAlign_keeps (s : State) (c : Nat) :
    OnlyIn [.pair, .ev] s (s.endAlign c) ∧ ∀ d, d ≠ c → (s.endAlign c).align d = s.align d := by
  obtain ⟨only, chans⟩ := State.tellAlign_keeps (s.putAlign c { restAlign c with markers := (s.align c).markers }) c 2 0 0
  have told := (s.onlyIn_putAlign c { restAlign c with markers := (s.align c).markers }).trans only
  have others (d : Nat) (other : d ≠ c) := (congrArg (tget restAlign · d) chans).trans
    (s.putAlign_align_ne { restAlign c with markers := (s.align c).markers } other)
  simp only [State.endAlign]
  split
  · exact ⟨(told.mono (by simp)).trans (by simp [onlyIn_iff, State.post]), others⟩
  · exact ⟨told.mono (by simp), others⟩

/-- A channel that is no Span group's is enabled once alignment of it has begun (R340). -/
theorem State.beginAlign_enabled {s : State} {c d : Nat} (free : s.spanChan c = false)
    (held : d = c ∨ (s.align c).enabled = true) : ((s.beginAlign d).align c).enabled = true := by
  by_cases same : d = c
  · subst same
    by_cases on : (s.align d).enabled = true
    · simp [State.beginAlign, on]
    · simp only [State.beginAlign, free, on, Bool.or_self, Bool.false_eq_true, if_false]
      have begun : { s.align d with enabled := true, began := some s.now } ≠ restAlign d :=
        fun e => Bool.noConfusion (congrArg Align.enabled e)
      exact congrArg Align.enabled (tget_tset_self restAlign s.pair.chans d _ begun)
  · rw [(s.beginAlign_keeps d).2 c (Ne.symm same)]
    exact held.resolve_left same

theorem State.foldl_keeps_align {f : State → Nat → State} {ps : List Part}
    (keeps : ∀ s c, OnlyIn ps s (f s c) ∧ ∀ d, d ≠ c → (f s c).align d = s.align d) (l : List Nat) (s : State) :
    OnlyIn ps s (l.foldl f s) ∧ ∀ d, d ∉ l → (l.foldl f s).align d = s.align d := by
  induction l generalizing s with
  | nil => exact ⟨OnlyIn.refl _ s, fun _ _ => rfl⟩
  | cons c l ih =>
    obtain ⟨only, others⟩ := keeps s c
    obtain ⟨onlyRest, othersRest⟩ := ih (f s c)
    exact ⟨only.trans onlyRest, fun d absent =>
      (othersRest d (List.not_mem_of_not_mem_cons absent)).trans (others d (List.ne_of_not_mem_cons absent))⟩

theorem State.foldl_beginAlign_enabled {l : List Nat} {s : State} {c : Nat} (free : s.spanChan c = false)
    (held : c ∈ l ∨ (s.align c).enabled = true) : ((l.foldl State.beginAlign s).align c).enabled = true := by
  induction l generalizing s with
  | nil => simpa using held
  | cons d l ih =>
    have cfg : (s.beginAlign d).cfg = s.cfg := (s.beginAlign_keeps d).1 .cfg (by simp)
    have still : (s.beginAlign d).spanChan c = false := by rw [State.spanChan, State.spanList, cfg]; exact free
    refine ih still ?_
    rcases held with listed | on
    · rcases List.mem_cons.mp listed with first | later
      · exact .inr (State.beginAlign_enabled free (.inl first.symm))
      · exact .inl later
    · exact .inr (State.beginAlign_enabled free (.inr on))

/-- Settles O42. -/
theorem alignmentCompletes : Obligations.AlignmentCompletes := by
  unfold Obligations.AlignmentCompletes
  refine ⟨?markers, ?retry, fun s => ⟨_, rfl, by simp [onlyIn_iff], rfl, rfl⟩, ?command⟩
  case markers =>
    intro chan t pos s powered s1 a a1
    have runs : ¬ (!s.lineOn) = true := by simp [powered]
    refine ⟨fun off => (if_neg runs).trans (if_pos (congrArg not off)), fun on new => ?_, fun on locked idle => ?_,
      fun b on locked began due formed holds unsent free => ?_⟩
    all_goals have enabled : ¬ (!a.enabled) = true := by simp [on]
    · exact (if_neg runs).trans ((if_neg enabled).trans (if_pos (congrArg not new)))
    all_goals
      have held : ¬ (!a.lock) = true := by simp [locked]
      refine (if_neg runs).trans ((if_neg enabled).trans ((if_neg held).trans ?_))
    · refine if_neg ?_
      rw [show (s.align chan).began = none from idle]
      simp
    · refine if_pos ?_
      rw [show (s.align chan).began = some b from began]
      simp [show (s.putPos chan pos.toNat).pair.formed = true from formed,
        show (s.align chan).sent = none from unsent, show (s.align chan).retryAt = none from free, due]
      exact holds
  case retry =>
    intro chan s t waits due
    simp [execAlignRetryTimer, waits, due]
  case command =>
    intro h p s first n length zeros fits act formed acts
    have inside (c : Nat) : c < first ∨ first + n ≤ c → c ∉ (List.range n).map (first + ·) := by
      intro out listed
      obtain ⟨i, below, rfl⟩ := List.mem_map.mp listed
      have := List.mem_range.mp below
      omega
    refine ⟨fun op => ⟨((List.range n).map (first + ·)).foldl State.beginAlign s, ?_, ?_⟩,
      fun op => ⟨((List.range n).map (first + ·)).foldl State.endAlign s, ?_, ?_⟩, fun op few => ?_⟩
    · exact .of_runCommand (exec_pairAlign ..) (by simp [length, zeros, op]; omega) rfl rfl acts (by simp [act, formed]) (by simp only [op]; rfl)
    · obtain ⟨only, others⟩ := State.foldl_keeps_align State.beginAlign_keeps ((List.range n).map (first + ·)) s
      refine ⟨only, fun c out => others c (inside c out), fun c low high free => State.foldl_beginAlign_enabled free (.inl ?_)⟩
      exact List.mem_map.mpr ⟨c - first, List.mem_range.mpr (by omega), by omega⟩
    · exact .of_runCommand (exec_pairAlign ..) (by simp [length, zeros, op]; omega) rfl rfl acts (by simp [act, formed]) (by simp only [op]; rfl)
    · obtain ⟨only, others⟩ := State.foldl_keeps_align State.endAlign_keeps ((List.range n).map (first + ·)) s
      exact ⟨only, fun c out => others c (inside c out)⟩
    · exact .of_runCommand (exec_pairAlign ..) (by simp [length, zeros, op]; omega) rfl rfl acts (by simp [act, formed]) (by simp only [op]; rfl)

end Sys2Proof.Machine
end

section
/-! SUPPORT. Tether frames, lanes, timers and sweeps (R333 to R338, R341, R342, R397), and O43. -/

namespace Sys2Proof.Machine

theorem State.takeAck_mono (s : State) (f : TetherFrame) : (s.takeAck f).mono = s.mono := by
  simp only [State.takeAck]
  split <;> rfl

/-- A frame after which no frame waits is the last one delivered (R334). -/
theorem State.deliverRun_last {s : State} {f : TetherFrame} (n : Nat)
    (last : (State.deliver (s.setPair { s.pair with rxSeq := f.lseq + 1 }) f).pair.ahead.find?
      (·.lseq == (State.deliver (s.setPair { s.pair with rxSeq := f.lseq + 1 }) f).pair.rxSeq) = none) :
    State.deliverRun (n + 1) f s = State.deliver (s.setPair { s.pair with rxSeq := f.lseq + 1 }) f := by
  simp only [State.deliverRun, last]

section Frames

variable {s : State} {f : TetherFrame} (on : s.tetherOn = true)
include on

/-- A frame with a bad TCRC is counted (R334). -/
theorem State.tetherRecv_bad (bad : f.tcrc ≠ TetherFrame.crc f) :
    s.tetherRecv f = (s.setPair { s.pair with statusFrom := none }).pairCount 0 1 := by
  simp only [State.tetherRecv, on, Bool.not_true, Bool.false_eq_true, if_false, if_pos bad]

/-- A good frame acknowledges and shows the tether alive (R334, R335). -/
def State.tetherHears (s : State) (f : TetherFrame) : State :=
  (s.takeAck f).setPair { (s.takeAck f).pair with
    goodAt := s.mono, statusFrom := if s.pair.goodAt + 100000 ≤ s.mono then none else (s.takeAck f).pair.statusFrom }

/-- A good frame is judged by its order (R334). -/
theorem State.tetherRecv_good (good : f.tcrc = TetherFrame.crc f) :
    s.tetherRecv f = (
      let u := s.tetherHears f
      let d := (f.lseq - u.pair.rxSeq).toNat
      if d = 0 then u.deliverRun 1025 f
      else if d < 1024 then
        if u.pair.ahead.any (·.lseq == f.lseq) then u else u.setPair { u.pair with ahead := u.pair.ahead ++ [f] }
      else if u.pair.tetherUp then u
      else (u.setPair { u.pair with ahead := [] }).deliverRun 1025 f).noteGap
        (s.tetherHears f).pair.ahead (s.tetherHears f).pair.rxSeq := by
  simp only [State.tetherRecv, on, Bool.not_true, Bool.false_eq_true, if_false, if_neg (not_not.mpr good), State.takeAck_mono]
  rfl

/-- A frame that comes in its order does what its TTYPE says (R334). -/
theorem State.tetherRecv_next {t : State} (good : f.tcrc = TetherFrame.crc f)
    (next : (f.lseq - (s.tetherHears f).pair.rxSeq).toNat = 0)
    (does : State.deliver ((s.tetherHears f).setPair { (s.tetherHears f).pair with rxSeq := f.lseq + 1 }) f = t)
    (last : t.pair.ahead.find? (·.lseq == t.pair.rxSeq) = none) :
    s.tetherRecv f = t.noteGap (s.tetherHears f).pair.ahead (s.tetherHears f).pair.rxSeq := by
  subst does
  rw [State.tetherRecv_good on good]
  simp only [if_pos next]
  rw [State.deliverRun_last 1024 last]

/-- A frame ahead of its order waits (R334). -/
theorem State.tetherRecv_ahead (good : f.tcrc = TetherFrame.crc f) (later : 0 < (f.lseq - (s.tetherHears f).pair.rxSeq).toNat)
    (near : (f.lseq - (s.tetherHears f).pair.rxSeq).toNat < 1024)
    (new : (s.tetherHears f).pair.ahead.any (·.lseq == f.lseq) = false) :
    s.tetherRecv f = ((s.tetherHears f).setPair { (s.tetherHears f).pair with
      ahead := (s.tetherHears f).pair.ahead ++ [f] }).noteGap (s.tetherHears f).pair.ahead (s.tetherHears f).pair.rxSeq := by
  rw [State.tetherRecv_good on good]
  simp only [if_neg later.ne', if_pos near, new, Bool.false_eq_true, if_false]

/-- A frame already delivered only acknowledges (R334). -/
theorem State.tetherRecv_old (good : f.tcrc = TetherFrame.crc f) (far : 1024 ≤ (f.lseq - (s.tetherHears f).pair.rxSeq).toNat)
    (up : (s.tetherHears f).pair.tetherUp = true) : s.tetherRecv f = s.tetherHears f := by
  have notNext : (f.lseq - (s.tetherHears f).pair.rxSeq).toNat ≠ 0 := by omega
  rw [State.tetherRecv_good on good]
  simp only [if_neg notNext, if_neg (Nat.not_lt.mpr far), up, if_true, State.noteGap]
  simp

end Frames

/-- The lane that enters service is in service (R333). -/
theorem putBits_one_ne_zero (w : Byte) {i : Nat} (below : i < 8) : putBits w i i 1 ≠ 0 := by
  intro zero
  have set := getLsbD_putBits w i i 1 i
  simp [zero, below] at set

/-- A lane that has held its lock for 1 ms enters (R333). -/
theorem State.tetherLane_enters {s : State} {lane : Fin 8} (out : s.pair.lanes.getLsbD lane = false) :
    s.tetherLane lane true
      = (s.setPair { s.pair with lanes := putBits s.pair.lanes lane lane 1 }).post 0x199 [d16 lane, d16 1] := by
  have served := putBits_one_ne_zero s.pair.lanes lane.isLt
  have off : ¬ s.pair.lanes.getLsbD lane = true := Bool.eq_false_iff.mp out
  exact (if_neg off).trans (if_neg served)

/-- What a TTYPE's frame does when it comes in its order (R335). -/
theorem tetherFrame_rows {c : TetherFrame → Instr} {k : Nat} {eff : State → List Byte → State} (listed : (c, k, eff) ∈
    [(Instr.tetherStatus, 1, State.takeStatus), (Instr.tetherBucketSweep, 2, State.takeSweep),
     (Instr.tetherOamState, 3, fun s b => takeEach 48 (fun r s => s.takeOam r) 84 b s),
     (Instr.tetherMirroredCommand, 4, State.takeCommand), (Instr.tetherMirroredReply, 5, State.takeReply),
     (Instr.tetherAlignment, 6, State.takeAlign), (Instr.tetherManifestCheck, 7, State.takeSamples),
     (Instr.tetherAck, 8, fun s _ => s),
     (Instr.tetherSpanHandshake, 9, fun s b => takeEach 32 (fun r s => s.takeShake r) 127 b s)]) (f : TetherFrame) (s : State) :
    exec (c f) s = .next (s.tetherRecv f) ∧ (f.ttype.toNat = k → s.deliver f = eff s f.payload) := by
  simp only [List.mem_cons, List.not_mem_nil, or_false, Prod.mk.injEq] at listed
  rcases listed with ⟨rfl, rfl, rfl⟩ | ⟨rfl, rfl, rfl⟩ | ⟨rfl, rfl, rfl⟩ | ⟨rfl, rfl, rfl⟩ | ⟨rfl, rfl, rfl⟩ | ⟨rfl, rfl, rfl⟩ |
    ⟨rfl, rfl, rfl⟩ | ⟨rfl, rfl, rfl⟩ | ⟨rfl, rfl, rfl⟩
  all_goals exact ⟨rfl, fun type => by simp only [State.deliver, type]⟩

/-- Settles O43. -/
theorem tetherCompletes : Obligations.TetherCompletes := by
  unfold Obligations.TetherCompletes
  refine ⟨fun c k eff listed f s on => ?frames, fun s => ⟨?up, ?down, ?lane, ?gap, ?status, ?sweep, ?reply⟩⟩
  case frames =>
    obtain ⟨receives, delivers⟩ := tetherFrame_rows listed f s
    rw [receives]
    refine ⟨fun bad => congrArg Host.Outcome.next (State.tetherRecv_bad on bad), fun good => ?_⟩
    intro u s1 d
    refine ⟨fun next type => ?_, fun later near new => ?_, fun far up => ?_⟩
    · intro s2 last
      have does := (tetherFrame_rows listed f (s1.setPair { s1.pair with rxSeq := f.lseq + 1 })).2 type
      exact congrArg Host.Outcome.next (State.tetherRecv_next on good next does last)
    · exact congrArg Host.Outcome.next (State.tetherRecv_ahead on good later near new)
    · exact congrArg Host.Outcome.next (State.tetherRecv_old on good far up)
  case up =>
    intro from_ on down since long fresh
    simp [execTetherUp, on, down, State.statusLong, since, ms, long, fresh]
  case down =>
    intro up late
    simp [execTetherDownTimeout, State.tetherDown, up, late]
  case lane =>
    intro lane powered locked held out
    simp only [exec_tetherLaneService, execTetherLaneService, powered, locked, ms, held, State.tetherLane_enters out]
    exact ⟨_, rfl, rfl, rfl, by simp [onlyIn_iff, State.post]⟩
  case gap =>
    intro waits late
    simp [execTetherGapTimeout, waits, Nat.not_lt.mpr late]
  case status => exact ⟨_, rfl, rfl, rfl⟩
  case sweep =>
    intro on act
    simp [execTetherSweepSend, on, act]
  case reply =>
    intro w ws waits late
    simp [execMirrorReplyTimeout, waits, ms, late]

end Sys2Proof.Machine
end

section
/-! SUPPORT. The store's blocks, journal and checkpoints (R364 to R370, R373), and O46. -/

namespace Sys2Proof.Machine

/-- The retention pass notes the block it has passed, and nothing else of the memories (R370). -/
theorem MemSide.passOver_keeps (m : MemSide) (b poh : Nat) :
    (m.passOver b poh).wroteAt = m.wroteAt ∧ (m.passOver b poh).moved = m.moved ∧ (m.passOver b poh).rewritten = m.rewritten := by
  simp only [MemSide.passOver]
  repeat' split
  all_goals exact ⟨rfl, rfl, rfl⟩

theorem State.onlyIn_memStore (s : State) (m : MemSide) (c : Store) : OnlyIn [.mem, .store] s { s with mem := m, store := c } := by
  simp [onlyIn_iff]

section Retention

variable {b n : Nat} {s : State} (powered : s.domain 2 = 0) (inside : b < 61440) (free : s.ckptBusy = false)
  (quiet : s.mem.retiring = [])
include powered inside free quiet

theorem execRetentionPass_runs : execRetentionPass b n s =
    (let s1 := { s with mem := s.mem.passOver b s.spares.poh }
    if 24 < n then .next (s1.post 0x1D1 [d16 b])
    else if 16 < n && (tfind s.mem.moved b).isSome then .next { s1 with mem := { s1.mem with retiring := [(b, 0)] } }
    else if 8760 ≤ s.spares.poh - tget zn s.mem.wroteAt b || 8 < n then .next (s1.rewriteBlock b)
    else .next s1) := by
  obtain ⟨wrote, moved, -⟩ := s.mem.passOver_keeps b s.spares.poh
  have runs : ¬ (s.domain 2 ≠ 0 || 61440 ≤ b || s.ckptBusy || !s.mem.retiring.isEmpty) = true := by
    simp [powered, Nat.not_le.mpr inside, free, quiet]
  simp only [execRetentionPass, if_neg runs, wrote, moved]

end Retention

/-- Settles O46. -/
theorem storeCompletes : Obligations.StoreCompletes := by
  unfold Obligations.StoreCompletes
  refine ⟨?retire, ?retention, ?log, ?bucket, ?counters, ?command, ?instant, ?complete⟩
  case retire =>
    intro b s powered inside
    simp [execStoreBlockRetire, powered, Nat.not_le.mpr inside]
  case retention =>
    intro b n s powered inside free quiet s1 old again
    have runs := execRetentionPass_runs (n := n) powered inside free quiet
    have notTwice (once : ¬ again) : ¬ (16 < n && (tfind s.mem.moved b).isSome) = true := by simpa [again] using once
    refine ⟨fun bad => runs.trans (if_pos bad), fun few twice => ?_, fun few once due => ?_, fun good fresh => ?_⟩
    · have weak : (16 < n && (tfind s.mem.moved b).isSome) = true := by simpa [again] using twice
      exact runs.trans ((if_neg (Nat.not_lt.mpr few)).trans (if_pos weak))
    · have rewrites : (8760 ≤ s.spares.poh - tget zn s.mem.wroteAt b || 8 < n) = true := by
        simpa [old, or_comm] using due
      obtain ⟨wrote, moved, count⟩ := s.mem.passOver_keeps b s.spares.poh
      refine ⟨s1.rewriteBlock b, (Config.freeValue s.free).toNat % 65536, runs.trans ((if_neg (Nat.not_lt.mpr few)).trans
        ((if_neg (notTwice once)).trans (if_pos rewrites))), by simp [onlyIn_iff, State.rewriteBlock, State.draw, s1], ?_⟩
      simp only [State.rewriteBlock, State.draw, s1, wrote, moved, count]
    · have small : ¬ 24 < n := by omega
      have once : ¬ again := fun twice => absurd twice.1 (by omega)
      have keeps : ¬ (8760 ≤ s.spares.poh - tget zn s.mem.wroteAt b || 8 < n) = true := by simpa [old, good] using fresh
      exact runs.trans ((if_neg small).trans ((if_neg (notTwice once)).trans (if_neg keeps)))
  case log =>
    intro s powered due
    simp only [exec_retentionProgressLog, execRetentionProgressLog, powered, dayNs, Nat.not_lt.mpr due, ne_eq, not_true_eq_false,
      decide_false, Bool.or_self, Bool.false_eq_true, if_false]
    exact ⟨_, rfl, rfl, by simp [onlyIn_iff, State.post], rfl⟩
  case bucket =>
    intro s powered
    simp only [exec_journalBucketRefill, execJournalBucketRefill, powered, ne_eq, not_true_eq_false, if_false]
    exact ⟨_, rfl, rfl, by simp [onlyIn_iff], rfl⟩
  case counters =>
    intro s powered runs due
    have waits : ¬ (s.domain 2 ≠ 0 || !s.pwr.fwRuns || s.mono < s.mem.pcAt + ms 10000) = true := by
      simp [powered, runs, ms, Nat.not_lt.mpr due]
    simp only [exec_persistentCountersWrite, execPersistentCountersWrite, if_neg waits]
    exact ⟨_, rfl, rfl, rfl, rfl, by simp [onlyIn_iff, State.wear]⟩
  case command =>
    intro h p s length zeros wide priv mode test acts
    have runs : (s.slipOrQuiet || s.pwr.mode == .test) = false := by simp [mode, test]
    refine ⟨fun kind spaced free apart => ?_, fun kind held funds free apart => ?_, fun kind free => ?_⟩
    · exact .of_runCommand (exec_storeCheckpoint ..) (by simp [length, zeros, wide, kind]) (by simpa using priv) runs acts
        (by simp [kind, spaced, free, apart]) (by simp [kind])
    · exact .of_runCommand (exec_storeCheckpoint ..) (by simp [length, zeros, wide, kind, held]) (by simpa using priv) runs acts
        (by simp [kind, funds, free, apart]) (by simp [kind])
    · exact .of_runCommand (exec_storeCheckpoint ..) (by simp [length, zeros, wide, kind]) (by simpa using priv) runs acts
        (by simp [kind]) (by simp [kind, free])
  case instant =>
    intro kib s r run waits due
    refine ⟨fun incr funds => ?_, fun incr short => ?_, fun full spaced => ?_⟩
    · simp only [exec_checkpointInstant, execCheckpointInstant, run, waits, due, incr, Option.isSome_none, Bool.not_true, Bool.or_self,
        Bool.false_eq_true, if_false, if_true]
      generalize kib * 1024 * jByte = cost at funds ⊢
      exact ⟨_, if_neg (Nat.not_lt.mpr funds), rfl, rfl, rfl, s.onlyIn_memStore _ _⟩
    · simp only [exec_checkpointInstant, execCheckpointInstant, run, waits, due, incr, Option.isSome_none, Bool.not_true, Bool.or_self,
        Bool.false_eq_true, if_false, if_true]
      generalize kib * 1024 * jByte = cost at short ⊢
      exact if_pos short
    · simp only [exec_checkpointInstant, execCheckpointInstant, run, waits, due, full, spaced, Option.isSome_none, Bool.not_true,
        Bool.or_self, Bool.false_eq_true, if_false]
      exact ⟨_, rfl, rfl, rfl, rfl, by simp [onlyIn_iff, State.wear]⟩
  case complete =>
    intro fail s r img k run staged kib
    refine ⟨fun f fails => ?_, fun good => ?_⟩
    · simp [execCheckpointComplete, run, staged, kib, fails]
    · simp only [exec_checkpointComplete, execCheckpointComplete, run, staged, kib, good, Option.isNone_some, Bool.false_eq_true,
        if_false]
      exact ⟨_, rfl, rfl, rfl, rfl, by simp [onlyIn_iff, State.draw, State.post]⟩

end Sys2Proof.Machine
end

section
/-! SUPPORT. DEVTIME, the 1PPS servo and output, and captures (R381 to R384, R388), and O47. -/

namespace Sys2Proof.Machine

/-- An edge counts where none came before, in HOLDOVER, within 10 µs of its second in LOCKED, and from 0.9 s on otherwise
(R382). -/
def State.edgeInWindow (s : State) : Bool :=
  match s.time.lastEdge with
  | none => true
  | some x => match s.servo with
    | .locked => (s.edgeGap x - 1000000000).natAbs ≤ 10000
    | .holdover => true
    | _ => 900000000 ≤ s.edgeGap x

theorem State.edgeInWindow_holdover {s : State} (held : s.servo = .holdover) : s.edgeInWindow = true := by
  unfold State.edgeInWindow
  rw [held]
  cases s.time.lastEdge <;> rfl

theorem State.edgeInWindow_locked {s : State} {x : Word64} (edge : s.time.lastEdge = some x) (locked : s.servo = .locked) :
    s.edgeInWindow = Decidable.decide ((s.edgeGap x - 1000000000).natAbs ≤ 10000) := by
  unfold State.edgeInWindow
  rw [edge, locked]

/-- An edge outside its window is discarded, and one is taken as lost where it is 10 µs late (R382, log 62, log 118). -/
theorem execPpsEdge_outside {s : State} (on : s.ppsOn = true) (out : s.edgeInWindow = false) :
    let u := (s.bump 4 0 6 1).setTime { s.time with discarded := s.time.discarded + 1 }
    execPpsEdge s = .next (if (s.time.lastEdge.map s.edgeOver).getD false then u.edgeLost else u) := by
  have runs : ¬ (!s.ppsOn) = true := by simp [on]
  exact (if_neg runs).trans (if_pos (congrArg not out))

/-- An edge that comes in HOLDOVER brings the servo to ACQUIRING (R382). -/
theorem execPpsEdge_returns {s : State} {t : Nat} (on : s.ppsOn = true) (held : s.servo = .holdover)
    (label : s.edgeLabel = (some t, true)) :
    execPpsEdge s = .next ((s.noteTod (some t) true).setTime { (s.noteTod (some t) true).time with
      lastEdge := some s.now, missed := 0, servo := .acquiring, good := 0, bad := 0 }) := by
  have runs : ¬ (!s.ppsOn) = true := by simp [on]
  have inside : ¬ (!s.edgeInWindow) = true := by simp [State.edgeInWindow_holdover held]
  have holding : (s.servo == .holdover) = true := by simp [held]
  refine (if_neg runs).trans ?_
  rw [label]
  exact (if_neg inside).trans (if_pos holding)

theorem State.edgeOver_iff {s : State} {x : Word64} : s.edgeOver x = true ↔ 1000010000 < (s.now.toNat : Int) - x.toNat :=
  decide_eq_true_iff

/-- Settles O47. -/
theorem timeCompletes : Obligations.TimeCompletes := by
  unfold Obligations.TimeCompletes
  refine ⟨?adjust, ?slew, fun s on => ⟨?returns, ?stray, ?missing, ?tod⟩, fun s free => ⟨?off, ?rises, ?falls⟩, ?read⟩
  case adjust =>
    intro h p s wide length zeros priv mode servo acts
    refine ⟨fun op => ?_, fun op => ?_, fun op near => ?_, fun op near => ?_⟩
    · exact .of_runSimple (exec_timeAdj ..) (by simp [wide, length, zeros, op]) priv (by simp [mode]) acts (by simp [servo])
        (by simp [op])
    · exact .of_runSimple (exec_timeAdj ..) (by simp [wide, length, zeros, op]) priv (by simp [mode]) acts (by simp [servo])
        (by simp [op])
    · exact .of_runSimple (exec_timeAdj ..) (by simp [wide, length, zeros, op, Nat.not_lt.mpr near]) priv (by simp [mode]) acts
        (by simp [servo]) (by simp [op])
    · exact .of_runSimple (exec_timeAdj ..) (by simp [wide, length, zeros, op, Nat.not_lt.mpr near]) priv (by simp [mode]) acts
        (by simp [servo]) (by simp [op])
  case slew =>
    intro s done
    simp [execSlewComplete, done]
  case returns =>
    exact fun t held label => execPpsEdge_returns on held label
  case stray =>
    intro x edge locked gap u
    refine ⟨fun late => ?_, fun early => ?_⟩
    all_goals
      have out : s.edgeInWindow = false := by
        rw [State.edgeInWindow_locked edge locked, decide_eq_false_iff_not]
        simp only [State.edgeGap, gap] at *
        omega
      refine (execPpsEdge_outside on out).trans (congrArg Host.Outcome.next ?_)
      rw [edge]
    · exact if_pos (State.edgeOver_iff.mpr late)
    · exact if_neg (fun lost => by have := State.edgeOver_iff.mp lost; simp only [gap] at early; omega)
  case missing =>
    intro x edge late
    have lost : s.edgeOver x = true := State.edgeOver_iff.mpr (by omega)
    simp [execPpsEdgeMissing, on, edge, lost]
  case tod =>
    intro x msg edge valid early late
    simp [execTodMessageReceive, edge, on, valid, early, late]
  case off =>
    intro off rise
    have undriven : s.ppsDriven = false := by rcases off with unset | slip <;> simp [State.ppsDriven, *]
    simp [execPpsOutEdge, free, undriven]
  case rises =>
    intro set mode whole
    simp [execPpsOutEdge, free, State.ppsDriven, set, mode, whole]
  case falls =>
    intro set mode wide
    simp [execPpsOutEdge, free, State.ppsDriven, set, mode, wide]
  case read =>
    intro h p s wide length zeros mode acts
    refine ⟨fun op => ?_, fun op => ⟨_, .of_runCommand (exec_timeRead ..) (by simp [wide, length, zeros, op]) rfl (by simp [mode]) acts
      (by simp) (if_neg (by simp [op]))⟩⟩
    exact .of_runCommand (exec_timeRead ..) (by simp [wide, length, zeros, op]) rfl (by simp [mode]) acts (by simp) (by simp [op])

end Sys2Proof.Machine
end

section
/-! SUPPORT. What a ring's registers do when its table holds it twice (R422), and the refutation of O50. -/

namespace Sys2Proof.Machine

/-- Ring 0 is enabled, and the table of rings holds it twice: at rest, and behind that with a CHEAD of 1. No step builds such a
table, but the statement speaks of every state. -/
def doubledRing : State :=
  { State.reset with host := { State.reset.host with
      regs := [(rcfgAddr 0, 0x80000000#32)]
      rings := [(0, restRing 0), (0, { restRing 0 with chead := 1 })] } }

theorem doubledRing_enabled : doubledRing.ringOn 0 = true ∧ (doubledRing.ring 0).chead = 0 := by decide

/-- Disabling the ring writes its value at rest, which takes the first entry away and leaves the second to be read. -/
theorem doubledRing_disabled : ((doubledRing.rcfgWrite 0 0).ring 0).chead = 1 := by decide

/-- Refutes O50: a ring disabled where its table holds it a second time reads back as that second entry, and not as the ring
with its running and held commands taken out. -/
theorem not_hostRingsComplete : ¬ Obligations.HostRingsComplete := by
  unfold Obligations.HostRingsComplete
  rintro ⟨⟨-, -, disabled, -⟩, -⟩
  have reads := congrArg InRing.chead (disabled 0 doubledRing doubledRing_enabled.1 0 (by decide))
  have one : (1 : Nat) = 0 := doubledRing_disabled.symm.trans (reads.trans doubledRing_enabled.2)
  exact absurd one (by decide)

end Sys2Proof.Machine
end

section
/-! SUPPORT. The register and mailbox commands (R454 to R456, R462, R466), and O52. -/

namespace Sys2Proof.Machine

/-- A command that no condition bars (R580). -/
theorem State.firstBar_none {s : State} {op : Nat} {h : Hdr} {bad perm mode : Bool} {rest : List (Bool × Byte)} (hb : bad = false)
    (hp : perm = false) (hm : mode = false) (acts : s.mirrorRefuses op h = false) (hr : ∀ x ∈ rest, x.1 = false) :
    s.firstBar op h bad perm mode rest = none := by
  have clear : (rest.find? fun x => x.1) = none := List.find?_eq_none.mpr fun x listed => by simp [hr x listed]
  simp [State.firstBar, hb, hp, hm, acts, clear]

/-- A command that begins now is not late (R466). -/
theorem State.not_regLate {s : State} {w : RegWait} (fresh : w.since = s.mono) : s.regLate w = false := by
  simp [State.regLate, fresh]

section Begin

variable {s : State} {h : Hdr} {p : List Word}

/-- A REG_WR whose writes end without the work of a PW field ends with the count of those applied (R454, R455). -/
theorem State.regBegin_write (ends : (s.regWrites h.priv.toNat (par p 0).toNat 0 (p.drop 2)).2.2 ≠ codeTimeout)
    (quiet : (s.regWrites h.priv.toNat (par p 0).toNat 0 (p.drop 2)).2.2 ≠ 0 ∨
      (s.regWrites h.priv.toNat (par p 0).toNat 0 (p.drop 2)).1.pwRuns (par p 0).toNat (pf p 1 6 0) = false) :
    s.regBegin 0x101 h p = (s.regWrites h.priv.toNat (par p 0).toNat 0 (p.drop 2)).1.finishDone 0x101 h p
      (batchCode (pf p 1 6 0) (s.regWrites h.priv.toNat (par p 0).toNat 0 (p.drop 2)).2.1
        (s.regWrites h.priv.toNat (par p 0).toNat 0 (p.drop 2)).2.2)
      [batchWord (s.regWrites h.priv.toNat (par p 0).toNat 0 (p.drop 2)).2.1
        (s.regWrites h.priv.toNat (par p 0).toNat 0 (p.drop 2)).2.2 0] := by
  have ended : (Decidable.decide ((s.regWrites h.priv.toNat (par p 0).toNat 0 (p.drop 2)).2.2 = codeTimeout)) = false := decide_eq_false ends
  have settled : (Decidable.decide ((s.regWrites h.priv.toNat (par p 0).toNat 0 (p.drop 2)).2.2 = 0) &&
      (s.regWrites h.priv.toNat (par p 0).toNat 0 (p.drop 2)).1.pwRuns (par p 0).toNat (pf p 1 6 0)) = false := by
    rcases quiet with stopped | done
    · rw [decide_eq_false stopped, Bool.false_and]
    · rw [done, Bool.and_false]
  simp only [State.regBegin, State.regGo, State.regWrGo, Nat.mul_zero, Nat.add_zero, List.drop_zero, ended, settled, Bool.false_and,
    Bool.false_eq_true, if_false]

/-- A REG_WR whose first register lies in a busy block waits (R466). -/
theorem State.regBegin_write_busy {v : Word} {r : List Word} (first : p.drop 2 = v :: r)
    (busy : s.cmdBars (par p 0).toNat v 0xFFFFFFFF#32 = some codeTimeout) :
    s.regBegin 0x101 h p = s.regHold ⟨⟨0x101, h, p⟩, 0, s.mono, 0⟩ := by
  simp only [State.regBegin, State.regGo, State.regWrGo, Nat.mul_zero, Nat.add_zero, List.drop_zero, first, State.regWrites, busy]
  simp [State.not_regLate]

/-- A REG_WR_MASK that meets a busy block waits (R466). -/
theorem State.regBegin_mask_busy (busy : s.blockBusy ((par p 0).toNat / 65536) = true) :
    s.regBegin 0x102 h p = s.regHold ⟨⟨0x102, h, p⟩, 0, s.mono, 0⟩ := by
  simp [State.regBegin, State.regGo, State.regMaskGo, busy, State.not_regLate]

/-- A REG_WR_MASK writes, and answers the value before the write, or waits for the work of a PW field (R456, R466). -/
theorem State.regBegin_mask (free : s.blockBusy ((par p 0).toNat / 65536) = false) :
    s.regBegin 0x102 h p =
      (let u := s.cmdWrite h.priv.toNat (par p 0).toNat (par p 2) (par p 1)
      if u.pwRuns (par p 0).toNat 1 then u.regHold ⟨⟨0x102, h, p⟩, 1, s.mono, s.regValue (par p 0).toNat⟩
      else u.finishDone 0x102 h p codeOk [s.regValue (par p 0).toNat]) := by
  simp only [State.regBegin, State.regGo, State.regMaskGo, free, Bool.and_false, Bool.false_eq_true, if_false, if_true]

/-- An MBX_WR of an idle block is counted and ends (R462). -/
theorem State.regBegin_mailbox (free : s.blockBusy ((par p 0).toNat / 65536) = false) :
    s.regBegin 0x104 h p = (s.countReg (par p 0).toNat true 1 h.priv.toNat).finishDone 0x104 h p codeOk [] := by
  simp only [State.regBegin, State.regGo, State.mbxWrGo, free, Bool.false_eq_true, if_false]

end Begin

/-- Settles O52. -/
theorem registerCommandsComplete : Obligations.RegisterCommandsComplete := by
  unfold Obligations.RegisterCommandsComplete
  intro h p s wide priv aligned a
  have may : (h.priv == 2) = false := by simpa using priv
  have whole : ((par p 0).toNat % 4 != 0) = false := by simp [aligned]
  have served (rom : s.romServes = false ∨ a < 2 ^ 30) : (s.romServes && (par p 0).toNat / 2 ^ 30 != 0) = false := by
    rcases rom with off | low
    · rw [off, Bool.false_and]
    · rw [show (par p 0).toNat / 2 ^ 30 = 0 from Nat.div_eq_of_lt low]; simp
  refine ⟨?read, ?write, ?mask, ?mailboxRead, ?mailboxWrite⟩
  case read =>
    intro length zeros some few inRange narrow rom acts
    exact .of_runCommand (exec_regRd ..) (by simp [wide, length, zeros, Nat.not_lt.mpr few, show rangePast (par p 0).toNat _ = _ from inRange]; omega)
      may (served rom) acts (by simp [whole, show (addrsFrom (par p 0).toNat _).any inMb = _ from narrow]) rfl
  case write =>
    intro zeros some few length inRange host rom acts r
    have clear : s.firstBar 0x101 h (!devWide h || pf p 1 31 7 != 0 || pf p 1 6 0 == 0 || 64 < pf p 1 6 0 || p.length != 2 + pf p 1 6 0 ||
        rangePast (par p 0).toNat (pf p 1 6 0)) (h.priv == 2 || inPcie (par p 0).toNat)
        (s.romServes && (par p 0).toNat / 2 ^ 30 != 0) [((par p 0).toNat % 4 != 0, codeBadAlign)] = none :=
      State.firstBar_none (by simp [wide, zeros, Nat.not_lt.mpr few, length, show rangePast (par p 0).toNat _ = _ from inRange]; omega)
        (by rw [may, Bool.false_or]; exact host) (served rom) acts (by simp [whole])
    have begins : exec (.regWr h p) s = .next (s.regBegin 0x101 h p) := by simp only [exec_regWr, execRegWr, clear]
    refine ⟨fun ends quiet => begins.trans (congrArg Host.Outcome.next (State.regBegin_write ends quiet)), fun busy => ?_⟩
    have first : p.drop 2 = par p 2 :: p.drop 3 := by
      rw [List.drop_eq_getElem_cons (show 2 < p.length by omega)]
      simp [par, List.getElem?_eq_getElem (show 2 < p.length by omega)]
    exact begins.trans (congrArg Host.Outcome.next (State.regBegin_write_busy first busy))
  case mask =>
    intro length plain host narrow static rom acts u
    have clear : s.firstBar 0x102 h (!devWide h || p.length != 3 || hasMk (par p 0).toNat) (h.priv == 2 || inPcie (par p 0).toNat)
        s.romServes [((par p 0).toNat % 4 != 0, codeBadAlign), (inMb (par p 0).toNat, codeBadWidth),
          (s.staticBars (par p 0).toNat (par p 2) (par p 1), codeRunning)] = none :=
      State.firstBar_none (by simp [wide, length, show hasMk (par p 0).toNat = _ from plain])
        (by rw [may, Bool.false_or]; exact host) rom acts
        (by simp [whole, show inMb (par p 0).toNat = _ from narrow, show s.staticBars (par p 0).toNat _ _ = _ from static])
    have begins : exec (.regWrMask h p) s = .next (s.regBegin 0x102 h p) := by simp only [exec_regWrMask, execRegWrMask, clear]
    refine ⟨fun free quiet => ?_, fun free runs => ?_, fun busy => ?_⟩
    · exact begins.trans (congrArg Host.Outcome.next ((State.regBegin_mask free).trans (if_neg (Bool.eq_false_iff.mp quiet))))
    · exact begins.trans (congrArg Host.Outcome.next ((State.regBegin_mask free).trans (if_pos runs)))
    · exact begins.trans (congrArg Host.Outcome.next (State.regBegin_mask_busy busy))
  case mailboxRead =>
    intro length zeros some known rom acts
    exact .of_runCommand (exec_mbxRd ..) (by simp [wide, length, zeros, some]) may rom acts
      (by simp [whole]; exact List.contains_iff_mem.mp known) rfl
  case mailboxWrite =>
    intro zeros some length host known free rom acts
    have clear : s.firstBar 0x104 h (!devWide h || pf p 1 31 4 != 0 || pf p 1 3 0 + 1 == 1 || p.length != 2 + (pf p 1 3 0 + 1))
        (h.priv == 2 || inPcie (par p 0).toNat) s.romServes [((par p 0).toNat % 4 != 0, codeBadAlign),
          (!mbRegs.contains ((par p 0).toNat, pf p 1 3 0 + 1), codeBadWidth)] = none :=
      State.firstBar_none (by simp [wide, zeros, some, length]) (by rw [may, Bool.false_or]; exact host) rom acts
        (by simp [whole]; exact List.contains_iff_mem.mp known)
    have begins : exec (.mbxWr h p) s = .next (s.regBegin 0x104 h p) := by simp only [exec_mbxWr, execMbxWr, clear]
    exact begins.trans (congrArg Host.Outcome.next (State.regBegin_mailbox free))

end Sys2Proof.Machine
end

section
/-! SUPPORT. Mode changes and DRAIN (R485 to R487), and O53. -/

namespace Sys2Proof.Machine

/-- A MODE_SET that no condition bars is accepted (R485, R580). -/
theorem execModeSet_accepts {h : Hdr} {p : List Word} {s : State} (length : p.length = 1) (zeros : pf p 0 28 0 = 0)
    (priv : h.priv ≠ 2) (legal : s.modeWrong (modeOf (pf p 0 31 29)) = false) (free : s.modeBusy (modeOf (pf p 0 31 29)) = false)
    (worn : modeOf (pf p 0 31 29) = .quiescent → modeOf (pf p 0 31 29) ≠ s.pwr.mode → s.quiesceRefused = false) :
    execModeSet h p s = .next (s.modeAccept h p (modeOf (pf p 0 31 29))) := by
  have may : (h.priv == 2) = false := by simpa using priv
  have spared : (modeOf (pf p 0 31 29) == .quiescent && modeOf (pf p 0 31 29) != s.pwr.mode && s.quiesceRefused) = false := by
    by_cases quiescent : modeOf (pf p 0 31 29) = .quiescent ∧ modeOf (pf p 0 31 29) ≠ s.pwr.mode
    · rw [worn quiescent.1 quiescent.2, Bool.and_false]
    · have other : (modeOf (pf p 0 31 29) == .quiescent && modeOf (pf p 0 31 29) != s.pwr.mode) = false := by simpa using quiescent
      rw [other, Bool.false_and]
  simp only [execModeSet, List.find?, length, zeros, may, legal, free, spared, bne_self_eq_false, Bool.or_self]

/-- Settles O53. -/
theorem modesComplete : Obligations.ModesComplete := by
  unfold Obligations.ModesComplete
  refine ⟨?set, ?transition, ?quiescent, ?drain⟩
  case set =>
    intro h p s m length zeros priv legal free worn
    have accepts := execModeSet_accepts length zeros priv legal free worn
    refine ⟨accepts, fun current => accepts.trans (congrArg Host.Outcome.next ?_)⟩
    exact (if_pos current).trans (by rw [length])
  case transition =>
    intro s r c asked cmd
    refine ⟨fun claim => ?_, fun plain slip => ?_, fun plain other => ?_⟩
    · simp [execModeTransitionComplete, asked, cmd, claim]
    · simp only [exec_modeTransitionComplete, execModeTransitionComplete, asked, cmd, plain, Option.isNone_some,
        Bool.false_eq_true, if_false]
      rw [if_pos slip]
    · simp only [exec_modeTransitionComplete, execModeTransitionComplete, asked, cmd, plain, other, Option.isNone_some,
        Bool.false_eq_true, if_false]
  case quiescent =>
    intro s quiescing idle
    simp [execQuiescentEntryComplete, quiescing, idle]
  case drain =>
    intro s mode unsaid
    refine ⟨fun empty => ?_, fun late => ?_⟩
    · simp [execDrainEmpty, mode, unsaid, empty]
    · simp [execDrainTimeout, mode, unsaid, late]

end Sys2Proof.Machine
end

section
/-! SUPPORT. The ferryman's windows, drains and gates, and the power commands (R478 to R483, R494), and O54. -/

namespace Sys2Proof.Machine

theorem State.ferryMeasure_keeps (s : State) (uses : List SliceUse) (buckets : List (Nat × Nat)) :
    (s.ferryMeasure uses buckets).pwr.lowSince = s.pwr.lowSince ∧ (s.ferryMeasure uses buckets).cfg = s.cfg := ⟨rfl, rfl⟩

/-- A need that has just become low has not been low for DOWN_MS (R479). -/
theorem not_rested_at_first {downMs : Nat} (slow : 1 ≤ downMs) (mono : Nat) : ¬ mono - 100000 + ms downMs ≤ mono := by
  simp only [ms]
  omega

section Window

variable {uses : List SliceUse} {buckets : List (Nat × Nat)} {s : State}

/-- The measurement of a window that has ended is kept, and decides whether the ferryman wakes or marks time (R478, R479). -/
theorem execFerrymanWindow_new (powered : s.domain 5 = 0) (new : s.now.toNat / 100000 ≠ s.pwr.window) :
    let s1 := (s.setPwr { s.pwr with window := s.now.toNat / 100000 }).ferryMeasure uses buckets
    let need := s1.ferryNeed (slices.map (tget zn s1.fd.gang.use)).sum
    let n := s1.inService.length + s1.fd.gang.wakes.length
    (s1.ferryRuns = false → execFerrymanWindow uses buckets s = .next s1) ∧
    (s1.ferryRuns = true → n < need → execFerrymanWindow uses buckets s
      = .next ((s1.setPwr { s1.pwr with lowSince := none }).ferryWake (need - n))) ∧
    (s1.ferryRuns = true → n = need → execFerrymanWindow uses buckets s = .next (s1.setPwr { s1.pwr with lowSince := none })) ∧
    (s1.ferryRuns = true → need < n → s.pwr.lowSince = none → 1 ≤ s.cfg.ferry.downMs →
      execFerrymanWindow uses buckets s = .next (s1.setPwr { s1.pwr with lowSince := some (s1.mono - 100000) })) := by
  have runs : ¬ (s.domain 5 ≠ 0 || s.now.toNat / 100000 = s.pwr.window) = true := by simp [powered, new]
  have low := (State.ferryMeasure_keeps (s.setPwr { s.pwr with window := s.now.toNat / 100000 }) uses buckets).1
  have cfg := (State.ferryMeasure_keeps (s.setPwr { s.pwr with window := s.now.toNat / 100000 }) uses buckets).2
  simp only [State.setPwr_pwr, State.setPwr_cfg] at low cfg
  simp only [execFerrymanWindow, if_neg runs]
  generalize (s.setPwr { s.pwr with window := s.now.toNat / 100000 }).ferryMeasure uses buckets = t at low cfg ⊢
  generalize t.ferryNeed (slices.map (tget zn t.fd.gang.use)).sum = need
  generalize t.inService.length + t.fd.gang.wakes.length = n
  refine ⟨fun off => ?_, fun on few => ?_, fun on enough => ?_, fun on many fresh slow => ?_⟩
  · simp only [off, Bool.not_false, if_true]
  · simp only [on, Bool.not_true, Bool.false_eq_true, if_false, if_pos few]
  · simp only [on, enough, Bool.not_true, Bool.false_eq_true, if_false, Nat.lt_irrefl]
  · have early := not_rested_at_first slow t.mono
    rw [← cfg] at early
    rw [if_neg (by simp [on]), if_neg (Nat.lt_asymm many), if_pos many, low, fresh, Option.getD_none]
    refine congrArg Host.Outcome.next (if_neg fun rested => early ?_)
    simp only [Bool.and_eq_true, decide_eq_true_eq] at rested
    exact rested.1.1

end Window

/-- Settles O54. -/
theorem ferrymanCompletes : Obligations.FerrymanCompletes := by
  unfold Obligations.FerrymanCompletes
  refine ⟨fun uses buckets s => ⟨?same, execFerrymanWindow_new⟩, ?drain, ?off, ?idle, ?queues, ?policy, ?status⟩
  case same =>
    intro same
    simp [execFerrymanWindow, same]
  case drain =>
    intro s l draining empty idle
    simp [execFerrymanDrainComplete, draining, empty, idle]
  case off =>
    intro slice s runs off gated asleep late
    simp only [exec_ferrymanPowerOff, execFerrymanPowerOff, runs, off, gated, asleep, late, BEq.rfl, Bool.not_false, Bool.and_self,
      decide_true, if_true]
  case idle =>
    intro d s t on high powered empty busy since late
    simp only [exec_idleGate, execIdleGate, on, high, powered, empty, busy, since, late, BEq.rfl, Bool.not_false, Bool.and_self,
      decide_true, Option.any_some, if_true]
  case queues =>
    intro n s t on powered unused empty since late
    simp [execQueueSlicePowerOff, on, powered, State.sliceQuiet, unused, empty, since, late]
  case policy =>
    intro h p s wide length priv mode acts
    refine ⟨fun sel zeros resume clear => ?_, fun sel zeros clear few many low high down => ?_⟩
    · exact .of_runSimple (exec_pwrPolicy ..) (by simp [wide, length, sel, zeros, resume, clear]) priv (by simp [mode]) acts (by simp)
        (by simp [sel])
    · refine .of_runSimple (exec_pwrPolicy ..) ?_ priv (by simp [mode]) acts (by simp) (by simp [sel])
      simp [wide, length, sel, zeros, clear, Nat.not_lt.mpr, many, low, high, down]
      omega
  case status =>
    intro h s mode acts
    exact ⟨_, rfl, rfl, .of_runCommand (exec_pwrStatus ..) rfl rfl (by simp [mode]) acts (by simp) rfl⟩

end Sys2Proof.Machine
end

section
/-! SUPPORT. Resets, the watchdog, restarts and starts (R488 to R493, R564 to R568), and O56. -/

namespace Sys2Proof.Machine

/-! ## The configuration registers -/

theorem State.rawReg_setCfgReg_ne (s : State) {a b : Nat} (v : Word) (other : b ≠ a) : (s.setCfgReg a v).rawReg b = s.rawReg b := by
  unfold State.setCfgReg State.rawReg
  by_cases here : isHostReg a = true <;> by_cases there : isHostReg b = true <;>
    simp [here, there, tget_tset_ne _ _ _ _ _ other]

/-- The three copies of another register are voted as before (R245). -/
theorem State.cfgReg_setCfgReg_ne (s : State) {a b : Nat} (v : Word) (other : b ≠ a) : (s.setCfgReg a v).cfgReg b = s.cfgReg b := by
  have raw := s.rawReg_setCfgReg_ne v other
  have copies : (s.setCfgReg a v).wr = s.wr := by unfold State.setCfgReg; split <;> rfl
  unfold State.rawReg at raw
  simp only [State.cfgReg, raw, copies]

theorem State.setCfgReg_rings (s : State) (a : Nat) (v : Word) : (s.setCfgReg a v).host.rings = s.host.rings := by
  unfold State.setCfgReg
  split <;> rfl

theorem State.ring_setCfgReg_setRing_ne (s : State) (a : Nat) (v : Word) {k n : Nat} (r : InRing) (other : n ≠ k) :
    ((s.setCfgReg a v).setRing k r).ring n = s.ring n :=
  (tget_tset_ne _ _ _ _ _ other).trans (congrArg (tget restRing · n) (s.setCfgReg_rings a v))

theorem State.setCfgReg_host (s : State) {a : Nat} (v : Word) (host : isHostReg a = true) :
    s.setCfgReg a v = { s with host := { s.host with regs := tset cfgRest s.host.regs a v } } := if_pos host

theorem State.rawReg_setCfgReg_self (s : State) {a : Nat} (v : Word) (host : isHostReg a = true) (rising : trising s.host.regs = true) :
    (s.setCfgReg a v).rawReg a = v := by
  simp [State.setCfgReg, State.rawReg, host, tget_tset _ _ _ _ _ rising]

theorem isHostReg_rcfgAddr {n : Nat} (below : n < 8) : isHostReg (rcfgAddr n) = true := by
  have block : rcfgAddr n / 0x10000 = 0x3F07 := by simp only [rcfgAddr]; omega
  simp [isHostReg, block]

theorem isHostReg_ocfgAddr {m : Nat} (below : m < 5) : isHostReg (ocfgAddr m) = true := by
  have block : ocfgAddr m / 0x10000 = 0x3F07 := by simp only [ocfgAddr]; omega
  simp [isHostReg, block]

theorem bit_putBits_clear (w : Word) : bit (putBits w 31 31 0) 31 = false := by
  rw [bit, getLsbD_putBits]
  rfl

theorem bit_zero (i : Nat) : bit (0 : Word) i = false := BitVec.getLsbD_zero

theorem bit_cfgBits_zero (a i : Nat) : bit (cfgBits a 0) i = false := by
  simp [cfgBits, bit]

/-! ## PERST_N takes the rings down -/

/-- A ring's enable falls: its commands are taken out of it (R422). -/
theorem State.rcfgWrite_zero (s : State) (n : Nat) : ∃ v, bit v 31 = false ∧
    s.rcfgWrite n 0 = if s.ringOn n then (s.setCfgReg (rcfgAddr n) v).setRing n { s.ring n with
      held := none, running := none, orphans := (s.ring n).orphans ++ ((s.ring n).running.map (·.hdr)).toList }
    else s.setCfgReg (rcfgAddr n) v := by
  unfold State.rcfgWrite
  by_cases on : s.ringOn n = true
  · exact ⟨_, bit_putBits_clear (s.cfgReg (rcfgAddr n)), by
      simp only [on, bit_zero, if_true, Bool.false_eq_true, if_false, State.ring, State.setCfgReg_rings]⟩
  · exact ⟨cfgBits (rcfgAddr n) 0, bit_cfgBits_zero _ _, by simp only [on, bit_zero, Bool.false_eq_true, if_false]⟩

theorem State.ocfgWrite_zero (s : State) (m : Nat) : ∃ v, bit v 31 = false ∧ s.ocfgWrite m 0 = s.setCfgReg (ocfgAddr m) v := by
  unfold State.ocfgWrite
  by_cases on : bit (s.cfgReg (ocfgAddr m)) 31 = true
  · exact ⟨_, bit_putBits_clear (s.cfgReg (ocfgAddr m)), by simp only [on, bit_zero, if_true, Bool.false_eq_true, if_false]⟩
  · exact ⟨cfgBits (ocfgAddr m) 0, bit_cfgBits_zero _ _, by simp only [on, bit_zero, Bool.false_eq_true, if_false]⟩

/-- Inbound ring `n` of `s` is down, as PERST_N leaves it (R443). -/
def RingFell (s0 s : State) (n : Nat) : Prop :=
  bit (s.rawReg (rcfgAddr n)) 31 = false ∧ (s0.ringOn n = true → (s.ring n).held = none ∧ (s.ring n).running = none)

/-- The inbound rings below `k` are down, and the others are as they were. -/
structure InboundDown (s0 s : State) (k : Nat) : Prop where
  only : OnlyIn [.host] s0 s
  regs : trising s.host.regs = true
  rings : trising s.host.rings = true
  fell : ∀ n < k, RingFell s0 s n
  left : ∀ n, k ≤ n → s.cfgReg (rcfgAddr n) = s0.cfgReg (rcfgAddr n)

theorem InboundDown.next {s0 s : State} {k : Nat} (down : InboundDown s0 s k) (below : k < 8) :
    InboundDown s0 (s.rcfgWrite k 0) (k + 1) := by
  obtain ⟨v, clear, writes⟩ := s.rcfgWrite_zero k
  have host := isHostReg_rcfgAddr below
  have apart {n : Nat} (other : n ≠ k) : rcfgAddr n ≠ rcfgAddr k := by simp only [rcfgAddr]; omega
  have same : s.ringOn k = s0.ringOn k := by simp only [State.ringOn, State.rf, down.left k le_rfl]
  rw [writes]
  have upTo {n : Nat} (within : n < k + 1) : n < k ∨ n = k := Nat.lt_succ_iff_lt_or_eq.mp within
  by_cases on : s.ringOn k = true
  · rw [if_pos on]
    refine ⟨down.only.trans ?_, ?_, ?_, fun n within => ?_, fun n beyond => ?_⟩
    · rw [State.setCfgReg_host s v host]; simp [onlyIn_iff]
    · rw [State.setCfgReg_host s v host]; exact trising_tset _ _ _ down.regs
    · exact State.trising_rings_setRing k _ ((s.setCfgReg_rings (rcfgAddr k) v).symm ▸ down.rings)
    · rcases upTo within with earlier | rfl
      · obtain ⟨off, held⟩ := down.fell n earlier
        exact ⟨(congrArg (bit · 31) (s.rawReg_setCfgReg_ne v (apart (Nat.ne_of_lt earlier)))).trans off, fun was => by
          rw [State.ring_setCfgReg_setRing_ne _ _ _ _ (Nat.ne_of_lt earlier)]; exact held was⟩
      · refine ⟨(congrArg (bit · 31) (s.rawReg_setCfgReg_self v host down.regs)).trans clear, fun _ => ?_⟩
        rw [State.ring_setRing_self _ _ ((s.setCfgReg_rings (rcfgAddr n) v).symm ▸ down.rings)]
        exact ⟨rfl, rfl⟩
    · exact (s.cfgReg_setCfgReg_ne v (apart (by omega))).trans (down.left n (by omega))
  · rw [if_neg on]
    refine ⟨down.only.trans ?_, ?_, (s.setCfgReg_rings _ v).symm ▸ down.rings, fun n within => ?_, fun n beyond => ?_⟩
    · rw [State.setCfgReg_host s v host]; simp [onlyIn_iff]
    · rw [State.setCfgReg_host s v host]; exact trising_tset _ _ _ down.regs
    · rcases upTo within with earlier | rfl
      · obtain ⟨off, held⟩ := down.fell n earlier
        refine ⟨(congrArg (bit · 31) (s.rawReg_setCfgReg_ne v (apart (Nat.ne_of_lt earlier)))).trans off, fun was => ?_⟩
        rw [State.ring, s.setCfgReg_rings]
        exact held was
      · exact ⟨(congrArg (bit · 31) (s.rawReg_setCfgReg_self v host down.regs)).trans clear, fun was => absurd (same.trans was) on⟩
    · exact (s.cfgReg_setCfgReg_ne v (apart (by omega))).trans (down.left n (by omega))

/-- The inbound rings are down, and the outbound ones below `k` are. -/
structure OutboundDown (s0 s : State) (k : Nat) : Prop where
  only : OnlyIn [.host] s0 s
  regs : trising s.host.regs = true
  fell : ∀ n < 8, RingFell s0 s n
  out : ∀ m < k, bit (s.rawReg (ocfgAddr m)) 31 = false

theorem OutboundDown.next {s0 s : State} {k : Nat} (down : OutboundDown s0 s k) (below : k < 5) :
    OutboundDown s0 (s.ocfgWrite k 0) (k + 1) := by
  obtain ⟨v, clear, writes⟩ := s.ocfgWrite_zero k
  have host := isHostReg_ocfgAddr below
  rw [writes]
  refine ⟨down.only.trans ?_, ?_, fun n inside => ⟨?_, ?_⟩, fun m upTo => ?_⟩
  · rw [State.setCfgReg_host s v host]; simp [onlyIn_iff]
  · rw [State.setCfgReg_host s v host]; exact trising_tset _ _ _ down.regs
  · rw [State.rawReg_setCfgReg_ne s v (by simp only [rcfgAddr, ocfgAddr]; omega)]; exact (down.fell n inside).1
  · rw [State.setCfgReg_host s v host]; exact (down.fell n inside).2
  · rcases Nat.lt_succ_iff_lt_or_eq.mp upTo with earlier | rfl
    · rw [State.rawReg_setCfgReg_ne s v (by simp only [ocfgAddr]; omega)]; exact down.out m earlier
    · rw [State.rawReg_setCfgReg_self s v host down.regs]; exact clear

theorem inboundDown_range {s : State} (regs : trising s.host.regs = true) (rings : trising s.host.rings = true) {k : Nat} (below : k ≤ 8) :
    InboundDown s ((List.range k).foldl (fun s n => s.rcfgWrite n 0) s) k := by
  induction k with
  | zero => exact ⟨OnlyIn.refl _ s, regs, rings, fun n low => absurd low (Nat.not_lt_zero n), fun _ _ => rfl⟩
  | succ k ih =>
    simp only [List.range_succ, List.foldl_append, List.foldl_cons, List.foldl_nil]
    exact (ih (by omega)).next (by omega)

theorem outboundDown_range {s0 s : State} (down : InboundDown s0 s 8) {k : Nat} (below : k ≤ 5) :
    OutboundDown s0 ((List.range k).foldl (fun s m => s.ocfgWrite m 0) s) k := by
  induction k with
  | zero => exact ⟨down.only, down.regs, down.fell, fun m low => absurd low (Nat.not_lt_zero m)⟩
  | succ k ih =>
    simp only [List.range_succ, List.foldl_append, List.foldl_cons, List.foldl_nil]
    exact (ih (by omega)).next (by omega)

/-- PERST_N takes every ring down (R443). -/
theorem execPerstNAssert_down {s : State} (regs : trising s.host.regs = true) (rings : trising s.host.rings = true) :
    ∃ t, execPerstNAssert s = .next t ∧ OutboundDown s t 5 :=
  ⟨_, rfl, outboundDown_range (inboundDown_range regs rings le_rfl) le_rfl⟩

/-! ## The supply of the tollhouse -/

theorem State.onlyIn_setFw (s : State) (f : Fw) : OnlyIn [.fw] s (s.setFw f) := by simp [onlyIn_iff]

/-- Dropped sessions empty their images, and change the firmware side alone (R488, R519). -/
theorem State.onlyIn_dropSessions (s : State) : OnlyIn [.fw] s s.dropSessions := by
  have empties (t : State) (o : Nat) : OnlyIn [.fw] t
      (if (t.session o).isSome then (t.emptyImage (t.stageTo o) 0).putSession o none else t) := by
    split
    · exact (State.onlyIn_setFw t _).trans (State.onlyIn_setFw _ _)
    · exact OnlyIn.refl _ t
  exact ((empties s 0).trans (empties _ 1)).trans (State.onlyIn_setFw _ _)

theorem State.dropSessions_keeps (s : State) : s.dropSessions.pending = s.pending ∧ s.dropSessions.fd = s.fd ∧
    s.dropSessions.pwr = s.pwr ∧ s.dropSessions.pins = s.pins ∧ s.dropSessions.store = s.store :=
  have only := s.onlyIn_dropSessions
  ⟨only .pending (by simp), only .fd (by simp), only .pwr (by simp), only .pins (by simp), only .store (by simp)⟩

/-! ## Starts -/

/-- The state in which a start has passed its first two steps (R490, R491). -/
def State.startBegins (s : State) (r : StartReport) : State :=
  let t := ((s.setPwr { s.pwr with railsWait := false, duration := min 65535 r.durationMs }).power [1, 2]).atPhase 1
  t.setPwr { t.pwr with agedAt := [] }

/-- The state that the boot image is looked for in (R491). -/
def State.inBoot (s : State) : State := if s.pwr.mode = .boot then s else s.enterMode .boot

/-- The state in which a start has ended (R485). -/
def State.startRests (s : State) : State :=
  s.setPwr { s.pwr with startDue := none, modeReq := s.pwr.modeReq.filter (·.cmd.isSome) }

/-- What a start that has ended has done (R493). -/
theorem State.startRests_keeps (s : State) (k : StartKind) (r : StartReport) :
    let t := (s.startDies k r).startRests
    t.ev = (s.startDies k r).ev ∧ t.cfg = (s.startDies k r).cfg ∧ t.fd = (s.startDies k r).fd ∧ t.td = (s.startDies k r).td ∧
      t.pwr.mode = (s.startDies k r).pwr.mode ∧ t.pwr.domains = (s.startDies k r).pwr.domains ∧
      t.pwr.phase = (s.startDies k r).pwr.phase ∧
      (r.failPhase = some 2 → t.ev = (s.startFails 2).ev ∧ t.pwr.mode = s.pwr.mode ∧ t.pwr.phase = 2) := by
  refine ⟨rfl, rfl, rfl, rfl, rfl, rfl, rfl, fun fails => ?_⟩
  have dies : s.startDies k r = s.startFails 2 := by simp [State.startDies, fails]
  rw [dies]
  exact ⟨rfl, rfl, rfl⟩

section Start

variable {r : StartReport} {s : State} {k : StartKind} (due : s.pwr.startDue = some k) (up : s.pins.railsOk = true)
include due up

/-- A start asked to go to SLIPWAY goes there (R492). -/
theorem State.runStart_slips (low : r.slipReq = true ∨ (s.startBegins r).pins.slipReqN = false) (plain : k ≠ .slipway)
    (awake : k ≠ .quiescent) : s.runStart r = (s.startBegins r).enterSlipway 3 := by
  have ready : ¬ (!s.pins.railsOk) = true := by simp [up]
  have asked : ((r.slipReq || !(s.startBegins r).pins.slipReqN) && k ≠ .slipway && k ≠ .quiescent) = true := by
    rcases low with pin | pin <;> simp [pin, plain, awake]
  unfold State.runStart
  split
  · next none => exact absurd (none.symm.trans due) (by simp)
  · next j started =>
    obtain rfl : j = k := Option.some.inj (started.symm.trans due)
    exact (if_neg ready).trans (if_pos asked)

/-- A start that is not asked to goes on with its image, or to SLIPWAY without one (R491, R492). -/
theorem State.runStart_boots (high : ¬ (r.slipReq = true ∨ (s.startBegins r).pins.slipReqN = false) ∨ k = .slipway ∨ k = .quiescent) :
    s.runStart r = if ((s.startBegins r).inBoot.bootImage r).1 then
        ((((s.startBegins r).inBoot.bootImage r).2.firmwareUp.atPhase 2).startDies k r).startRests
      else ((s.startBegins r).inBoot.bootImage r).2.enterSlipway 1 := by
  have ready : ¬ (!s.pins.railsOk) = true := by simp [up]
  have quiet : ¬ ((r.slipReq || !(s.startBegins r).pins.slipReqN) && k ≠ .slipway && k ≠ .quiescent) = true := by
    rcases high with level | rfl | rfl
    · obtain ⟨pin, ball⟩ := not_or.mp level
      simp [pin, Bool.eq_true_of_not_eq_false ball]
    · simp
    · simp
  unfold State.runStart
  split
  · next none => exact absurd (none.symm.trans due) (by simp)
  next j started =>
  obtain rfl : j = k := Option.some.inj (started.symm.trans due)
  refine (if_neg ready).trans ((if_neg quiet).trans ?_)
  change (match (s.startBegins r).inBoot.bootImage r with
    | (false, t) => t.enterSlipway 1
    | (true, t) => ((t.firmwareUp.atPhase 2).startDies j r).startRests) = _
  match (s.startBegins r).inBoot.bootImage r with
  | (true, t) => exact (if_pos rfl).symm
  | (false, t) => exact (if_neg Bool.false_ne_true).symm

end Start

/-- Settles O56. -/
theorem resetsComplete : Obligations.ResetsComplete := by
  unfold Obligations.ResetsComplete
  refine ⟨?supply, ?loss, ?reset, ?rails, ?perst, ?watchdog, ?restart, ?start, ?rise⟩
  case supply =>
    intro b r q s
    obtain ⟨pending, fd, pwr, pins, store⟩ := s.dropSessions_keeps
    refine ⟨_, rfl, ?_, rfl, rfl, rfl, rfl, rfl, congrArg FdSide.wiped fd, rfl, ?_, ?_, rfl, ?_, pending⟩
    · rw [← pwr]; rfl
    · rw [← pins]; rfl
    · rw [← pins]; rfl
    · rw [← store]; rfl
  case loss =>
    intro s
    obtain ⟨pending, fd, pwr, pins, store⟩ := s.dropSessions_keeps
    refine ⟨_, rfl, ?_, rfl, rfl, congrArg FdSide.wiped fd, rfl, rfl, ?_, pending⟩
    · rw [← pwr]; rfl
    · rw [← store]; rfl
  case reset =>
    intro n s
    refine ⟨fun alive long => ?_, fun short => ?_, fun alive least most => ?_⟩
    · simp [execResetNRelease, alive, long, show ¬ n < 200 by omega]
    · simp [execResetNRelease, short]
    · simp only [exec_resetNRelease, execResetNRelease, alive, Nat.not_lt.mpr least, Nat.not_le.mpr most, decide_false, Bool.or_self,
        Bool.false_eq_true, if_false]
  case rails =>
    intro n s
    refine ⟨fun long up alive => ?_, fun short => ?_⟩
    · simp [execRailsOkFall, Nat.not_lt.mpr long, up, alive]
    · simp [execRailsOkFall, short]
  case perst =>
    intro s regs rings
    obtain ⟨t, does, only, -, fell, out⟩ := execPerstNAssert_down regs rings
    exact ⟨t, does, only, fell, out⟩
  case watchdog =>
    intro s runs
    refine ⟨?_, fun steady late => ?_⟩
    · simp [execWatchdogRefresh, runs]
    · simp [execWatchdogExpire, runs, steady, late]
  case restart =>
    intro s due
    refine ⟨fun cold => ?_, fun warm => ?_⟩
    · simp [execRestartCold, cold, due]
    · simp [execRestartWarm, warm, due]
  case start =>
    intro r s k due
    refine ⟨fun low => ?_, fun up => ?_⟩
    · simp [execStart, State.runStart, due, low]
    · intro s1 s2 s3 low
      refine ⟨fun asked plain awake => congrArg Host.Outcome.next (State.runStart_slips due up asked plain awake),
        fun goes bad => congrArg Host.Outcome.next ((State.runStart_boots due up goes).trans (if_neg (Bool.eq_false_iff.mp bad))),
        fun goes good => ⟨_, congrArg Host.Outcome.next ((State.runStart_boots due up goes).trans (if_pos good)), rfl,
          State.startRests_keeps _ k r⟩⟩
  case rise =>
    intro r s s1
    have waits : s1.pwr.railsWait = s.pwr.railsWait := rfl
    refine ⟨fun ready => ?_, fun waiting => ?_⟩
    · exact congrArg Host.Outcome.next (if_neg (by rw [waits, ready]; exact Bool.false_ne_true))
    · exact congrArg Host.Outcome.next (if_pos (waits.trans waiting))


end Sys2Proof.Machine
end

section
/-! SUPPORT. Firmware staging, verification, activation and restart (R217, R501, R505 to R518), and O57. -/

namespace Sys2Proof.Machine

/-! ## Staging (R506 to R509) -/

section Stage

variable {h : Hdr} {p : List Word} {data : List Byte} {s : State}

theorem mode_eq_false {m n : Mode} (other : m ≠ n) : (m == n) = false := by simp [other]

/-- The state and the answer that FW_STAGE leaves, by its OP, where none of its conditions holds. -/
theorem exec_fwStage_of_free (good : s.stageBad h p = false) (may : hdrUser h = false) (mode : s.pwr.mode ≠ .quiescent)
    (acts : s.mirrorRefuses 0x700 h = false) (rests : (if pf p 0 29 29 = 0 then s.ctlBusy else s.mcBusy) = false) :
    (pf p 0 31 30 = 0 → s.session (pf p 0 29 29) = none → bit (par p 0) 28 = false →
      exec (.fwStage h p data) s = .next (((s.emptyImage (s.stageTo (pf p 0 29 29)) 1).putSession (pf p 0 29 29)
        (some ⟨false, 0, pf p 1 31 0, [], 0, s.mono, s.mono, false⟩)).finishDone 0x700 h p codeOk [])) ∧
    (∀ x, pf p 0 31 30 = 1 → s.session (pf p 0 29 29) = some x →
      let y := { x with bytes := x.bytes ++ data.take (pf p 2 31 0), last := s.mono }
      exec (.fwStage h p data) s = .next (((s.putSession (pf p 0 29 29) (some y)).growImage (s.stageTo (pf p 0 29 29)) y).finishDone
        0x700 h p codeOk [])) ∧
    (∀ x, pf p 0 31 30 = 2 → s.session (pf p 0 29 29) = some x →
      exec (.fwStage h p data) s = .next (((s.putSession (pf p 0 29 29) (some { x with verifying := true })).putImage
        (s.stageTo (pf p 0 29 29)) { s.image (s.stageTo (pf p 0 29 29)) with state := 2 }).finishDone 0x700 h p codeDeferred [])) ∧
    (pf p 0 31 30 = 3 → exec (.fwStage h p data) s = .next (((s.putSession (pf p 0 29 29) none).emptyImage
      (s.stageTo (pf p 0 29 29)) 0).finishDone 0x700 h p codeOk [])) := by
  have meaning : exec (.fwStage h p data) s = execFwStage h p data s := rfl
  refine ⟨fun op free port => ?_, fun x op opened => ?_, fun x op opened => ?_, fun op => ?_⟩
  · refine TakesEffect.of_runCommand (c := fun h p => .fwStage h p data) meaning good may (mode_eq_false mode) acts
      (by simp only [List.mem_singleton, forall_eq, rests, free, Option.isSome_none, Bool.and_false, Bool.or_false]) ?_
    simp only [op, port, Bool.false_eq_true, if_false]
  · refine TakesEffect.of_runCommand (c := fun h p => .fwStage h p data) meaning good may (mode_eq_false mode) acts
      (by simp [rests, op]) ?_
    simp only [op, opened]
  · refine TakesEffect.of_runCommand (c := fun h p => .fwStage h p data) meaning good may (mode_eq_false mode) acts
      (by simp [rests, op]) ?_
    simp only [op, opened]
  · refine TakesEffect.of_runCommand (c := fun h p => .fwStage h p data) meaning good may (mode_eq_false mode) acts
      (by simp [rests, op]) ?_
    simp only [op]

end Stage

/-! ## Verification (R510, R511) -/

theorem exec_fwVerifyComplete_without_session (img : Fin 4) (fails : List (BitVec 4)) (patches : List PatchRec) (s : State)
    (waits : s.fw.verifying.contains img.val = true) (closed : s.session (imageObj img) = none) :
    let i := (s.image img).judged (s.verifyCause img fails patches) patches
    let s1 := (s.putImage img i).setFw { (s.putImage img i).fw with
      verifying := (s.putImage img i).fw.verifying.filter (· != img.val) }
    (s.verifyCause img fails patches = 0 →
      exec (.fwVerifyComplete img fails patches) s = .next (s1.post 0x1EC [d16 (imageObj img), d16 (img.val % 2)])) ∧
    (s.verifyCause img fails patches ≠ 0 → exec (.fwVerifyComplete img fails patches) s
      = .next (s1.post 0x1ED [d16 (imageObj img), d16 (img.val % 2), d16 (s.verifyCause img fails patches)])) := by
  have meaning : exec (.fwVerifyComplete img fails patches) s = execFwVerifyComplete img fails patches s := rfl
  refine ⟨fun pass => ?_, fun bad => ?_⟩ <;> rw [meaning, execFwVerifyComplete]
  · simp only [closed, waits, Option.filter_none, Option.isSome_none, Bool.or_true, Bool.not_true, Bool.false_eq_true, if_false,
      Bool.and_false, Bool.false_and, pass, if_true]
  · simp only [closed, waits, Option.filter_none, Option.isSome_none, Bool.or_true, Bool.not_true, Bool.false_eq_true, if_false,
      Bool.and_false, Bool.false_and, bad]

theorem exec_fwVerifyComplete_of_session (img : Fin 4) (fails : List (BitVec 4)) (patches : List PatchRec) (s : State) {x : Session}
    (opened : s.session (imageObj img) = some x) (verifying : x.verifying = true) (host : x.slip = false)
    (target : s.stageTo (imageObj img) = img.val) (pass : s.verifyCause img fails patches = 0) (control : imageObj img = 0)
    (full : ((s.image img).judged 0 patches).type = 1) :
    let s1 := s.putImage img ((s.image img).judged 0 patches)
    let s2 := ((s1.setFw { s1.fw with verifying := s1.fw.verifying.filter (· != img.val) }).post 0x1EC
      [d16 0, d16 (img.val % 2)]).putSession 0 none
    exec (.fwVerifyComplete img fails patches) s
      = .next (if s.pwr.mode = .slipway then s2.setFw { s2.fw with bootBank := img } else s2) := by
  have meaning : exec (.fwVerifyComplete img fails patches) s = execFwVerifyComplete img fails patches s := rfl
  rw [control] at opened target
  have matched : (x.verifying && s.stageTo 0 == img.val) = true := by simp [verifying, target]
  intro s1 s2
  rw [meaning, execFwVerifyComplete]
  simp only [control, opened, Option.filter_some, matched, if_true, Option.isSome_some, Bool.true_or, Bool.not_true, Bool.false_eq_true,
    if_false, pass, full, host]
  by_cases slipway : s.pwr.mode = .slipway
  · rw [if_pos slipway]
    exact congrArg Host.Outcome.next (if_pos (by simp [slipway, State.post, State.putImage, State.setFw]))
  · rw [if_neg slipway]
    exact congrArg Host.Outcome.next (if_neg (by simp [slipway, State.post, State.putImage, State.setFw]))

theorem exec_fwStageTimeout_due (obj : Fin 2) (s : State) {x : Session} (opened : s.openSession obj = some x) (host : x.slip = false)
    (late : x.last + 1000000000 ≤ s.mono) : exec (.fwStageTimeout obj) s
      = .next (((s.putSession obj none).emptyImage (s.stageTo obj) 0).post 0x1EE [d16 obj]) := by
  have meaning : exec (.fwStageTimeout obj) s = execFwStageTimeout obj s := rfl
  rw [meaning, execFwStageTimeout]
  have due : ¬ s.mono < x.last + ms 1000 := Nat.not_lt.mpr late
  simp only [opened, host, Bool.false_and, Bool.false_eq_true, if_false, due]

theorem fwVerify_takes_effect (h : Hdr) (p : List Word) (s : State) (wide : devWide h = true) (may : hdrUser h = false)
    (length : p.length = 1) (zeros : pf p 0 27 0 = 0) (acts : s.mirrorRefuses 0x701 h = false) :
    (pf p 0 31 30 = 0 → let k := 2 * pf p 0 29 29 + pf p 0 28 28
      TakesEffect .fwVerify 0x701 h p s (s.setFw { s.fw with verifying := s.fw.verifying.filter (· != k) ++ [k] })
        codeDeferred []) ∧
    (pf p 0 31 30 = 1 → TakesEffect .fwVerify 0x701 h p s s codeOk ([0, 1, 2, 3].flatMap (fun k => (s.image k).report)
      ++ [mkWord [(7, s.fw.fwFloor), (7, s.fw.mcFloor), (4, s.fw.revoked.toNat), (14, 0)]])) ∧
    (pf p 0 31 30 = 2 → s.fw.trial = true → s.pwr.mode ≠ .slipway → let b := s.fw.runBank
      let s1 := s.putImage b { s.image b with state := 5 }
      let s2 := s1.putImage (1 - b) { s1.image (1 - b) with state := 3 }
      TakesEffect .fwVerify 0x701 h p s ((s2.setFw { s2.fw with bootBank := b, trial := false }).post 0x1F1 [d16 b])
        codeOk []) := by
  have meaning : exec (.fwVerify h p) s = execFwVerify h p s := rfl
  refine ⟨fun op => ?_, fun op => ?_, fun op trial mode => ?_⟩
  · exact .of_runCommand meaning (by simp [wide, length, zeros, op]) (by simp [may]) (by simp [op]) acts (by simp [op])
      (by simp only [op])
  · exact .of_runCommand meaning (by simp [wide, length, zeros, op]) (by simp [op]) (by simp [op]) acts (by simp [op])
      (by simp only [op])
  · exact .of_runCommand meaning (by simp [wide, length, zeros, op, trial]) (by simp [may]) (by simp [op, mode]) acts (by simp [op])
      (by simp only [op])

/-! ## Activation and rollback (R512 to R515) -/

section Activate

variable {h : Hdr} {p : List Word} {s : State}

theorem activation_cancelled (wide : devWide h = true) (may : hdrUser h = false) (length : p.length = 3) (zeros : pf p 0 30 0 = 0)
    (off : par64 p 1 = allOnes) (runs : s.noActivation = false) :
    (s.mirrorRefuses 0x702 h = false → TakesEffect .fwActivateAt 0x702 h p s (s.cancelActivation (pf p 0 31 31)) codeOk []) ∧
    (s.mirrorRefuses 0x703 h = false → s.fw.trial = false →
      TakesEffect .fwRollback 0x703 h p s (s.cancelActivation (pf p 0 31 31)) codeOk []) := by
  have cancels : (par64 p 1 == allOnes) = true := by simp [off]
  refine ⟨fun acts => ?_, fun acts settled => ?_⟩
  · exact .of_runCommand (show exec (.fwActivateAt h p) s = execFwActivateAt h p s from rfl)
      (by simp only [wide, length, zeros, cancels]; rfl) may runs acts (by simp only [cancels, if_true]; simp)
      (by simp only [cancels, if_true])
  · exact .of_runCommand (show exec (.fwRollback h p) s = execFwRollback h p s from rfl)
      (by simp only [wide, length, zeros, cancels, settled, Bool.and_false]; rfl) may runs acts
      (by simp only [cancels, settled, Bool.and_false, Bool.not_false, Bool.and_true, if_true]; simp)
      (by simp only [cancels, settled, Bool.and_false, Bool.not_false, Bool.and_true, if_true, Bool.false_eq_true, if_false])

theorem activation_waits (wide : devWide h = true) (may : hdrUser h = false) (length : p.length = 3) (zeros : pf p 0 30 0 = 0)
    (on : par64 p 1 ≠ allOnes) (runs : s.noActivation = false) :
    let o := pf p 0 31 31
    let k := if o = 0 then 1 - s.fw.runBank else 3 - s.fw.mcSlot
    s.now.toNat + 1000000 ≤ (par64 p 1).toNat →
    ((s.image k).state = 3 → (∀ c ∈ s.activateBars o (par64 p 1) false, c.1 = false) → s.mirrorRefuses 0x702 h = false →
      TakesEffect .fwActivateAt 0x702 h p s (s.activateAt o k (par64 p 1)) codeDeferred []) ∧
    ((s.image k).state = 7 → s.fw.trial = false → (∀ c ∈ s.activateBars o (par64 p 1) true, c.1 = false) →
      s.mirrorRefuses 0x703 h = false →
      TakesEffect .fwRollback 0x703 h p s (s.activateAt o k (par64 p 1)) codeDeferred []) := by
  intro o k ahead
  have sets : (par64 p 1 == allOnes) = false := by simp [on]
  have soon : ¬ (par64 p 1).toNat < s.now.toNat + ms 1 := Nat.not_lt.mpr ahead
  refine ⟨fun valid free acts => ?_, fun valid settled free acts => ?_⟩
  · have image : (s.image (if pf p 0 31 31 = 0 then 1 - s.fw.runBank else 3 - s.fw.mcSlot)).state = 3 := valid
    exact .of_runCommand (show exec (.fwActivateAt h p) s = execFwActivateAt h p s from rfl)
      (by simp only [wide, length, zeros, sets, soon, image]; rfl) may runs acts
      (by simpa only [sets, Bool.false_eq_true, if_false] using free) (by simp only [sets, Bool.false_eq_true, if_false, o, k])
  · have image : (s.image (if pf p 0 31 31 = 0 then 1 - s.fw.runBank else 3 - s.fw.mcSlot)).state = 7 := valid
    exact .of_runCommand (show exec (.fwRollback h p) s = execFwRollback h p s from rfl)
      (by simp only [wide, length, zeros, sets, soon, image, settled, Bool.and_false]; rfl) may runs acts
      (by simpa only [sets, settled, Bool.and_false, Bool.false_and, Bool.false_eq_true, if_false] using free)
      (by simp only [sets, settled, Bool.and_false, Bool.false_and, Bool.false_eq_true, if_false, o, k])

end Activate

/-! ## The instants (R217, R516 to R518) -/

theorem foldl_eq_of_fixed {σ α : Type} {f : σ → α → σ} {s : σ} {l : List α} (fixed : ∀ a ∈ l, f s a = s) : l.foldl f s = s := by
  induction l with
  | nil => rfl
  | cons a l ih =>
    rw [List.foldl_cons, fixed a List.mem_cons_self]
    exact ih fun b here => fixed b (List.mem_cons_of_mem _ here)

/-- The control restart's first stage begins, with no attention wait left (R514). -/
def State.beginsRestart (s : State) : State := (s.setFw { s.fw with restarting := 1, restartAt := s.mono }).restartLoads

section Instant

variable {s : State} {a : Activation}

theorem exec_rolloutStart_due (waits : s.fw.activation = some a) (micro : a.obj = 1) (due : s.reached a.due = true) :
    exec .rolloutStart s = .next ((s.setFw { s.fw with activation := none }).setRoll (some ⟨a.due, 0, 0, 0, s.nextSeq, []⟩)) := by
  have meaning : exec .rolloutStart s = execRolloutStart s := rfl
  rw [meaning, execRolloutStart, waits]
  exact if_neg (by simp [micro, due])

theorem exec_controlRestart_near (waits : s.fw.activation = some a) (control : a.obj = 0) (idle : s.fw.restarting = 0)
    (due : s.reached a.due = true) (near : s.instantNear a.due = true) :
    exec .controlRestart s = .next ((s.setFw { s.fw with activation := none }).post 0x1F3 [d16 1]) := by
  have meaning : exec .controlRestart s = execControlRestart s := rfl
  rw [meaning, execControlRestart, waits]
  exact (if_neg (by simp [control, due, idle])).trans (if_pos near)

theorem exec_controlRestart_begins (waits : s.fw.activation = some a) (control : a.obj = 0) (idle : s.fw.restarting = 0)
    (due : s.reached a.due = true) (near : s.instantNear a.due = false) (free : ∀ n, n < 8 → (s.ring n).held = none) :
    exec .controlRestart s = .next (s.setFw { s.fw with restarting := 1, restartAt := s.mono }).restartLoads := by
  have meaning : exec .controlRestart s = execControlRestart s := rfl
  rw [meaning, execControlRestart, waits]
  have stays : (List.range 8).foldl (fun s n => match (s.ring n).held with
      | some (c, _) => s.endWait n c false
      | none => s) s = s := foldl_eq_of_fixed fun n below => by rw [free n (List.mem_range.mp below)]
  exact (if_neg (by simp [control, due, idle])).trans ((if_neg (by simp [near])).trans
    (congrArg (fun t : State => Host.Outcome.next t.beginsRestart) stays))

theorem exec_controlRestartQuiesceTimeout_late (restarts : s.fw.restarting = 1) (busy : s.quiet = false)
    (late : s.fw.restartAt + ms 100 ≤ s.mono) : exec .controlRestartQuiesceTimeout s
      = .next ((s.setFw { s.fw with restarting := 0, activation := none }).post 0x1F3 [d16 0]) := by
  have meaning : exec .controlRestartQuiesceTimeout s = execControlRestartQuiesceTimeout s := rfl
  rw [meaning, execControlRestartQuiesceTimeout, if_pos (by simp [restarts, busy, late])]

theorem exec_controlRestartFallback_falls (waits : s.fw.activation = some a) (loaded : s.restartLoads = s) (loading : s.fw.restarting = 2)
    (falls : (s.image a.target).valid = false ∨ s.fw.restartAt + ms 250 ≤ s.mono) : exec .controlRestartFallback s
      = .next ((s.putImage a.target { s.image a.target with state := 4 }).takeRings.post 0x1F2 [d16 0]) := by
  have meaning : exec .controlRestartFallback s = execControlRestartFallback s := rfl
  rw [meaning, execControlRestartFallback, loaded, waits]
  refine if_neg ?_
  rcases falls with invalid | late
  · simp [loading, invalid]
  · simp [loading, Nat.not_lt.mpr late]

theorem exec_controlRestartComplete_trial (waits : s.fw.activation = some a) (loaded : s.restartLoads = s) (loading : s.fw.restarting = 2)
    (valid : (s.image a.target).valid = true) (inTime : s.mono ≤ s.fw.restartAt + ms 250) :
    let s1 := s.putImage s.fw.runBank { s.image s.fw.runBank with state := 7 }
    let s2 := s1.putImage a.target { s1.image a.target with state := 6 }
    exec .controlRestartComplete s = .next (((s2.setFw { s2.fw with runBank := a.target, trial := true }).takeRings).post 0x1F0
      [d32 (s2.image a.target).version.toNat]) := by
  have meaning : exec .controlRestartComplete s = execControlRestartComplete s := rfl
  intro s1 s2
  rw [meaning, execControlRestartComplete, loaded, waits]
  exact if_neg (by simp [loading, valid, Nat.not_lt.mpr inTime])

end Instant

/-- Settles O57, one lemma for each step of an image's way into service. -/
theorem firmwareCompletes : Obligations.FirmwareCompletes := by
  unfold Obligations.FirmwareCompletes
  refine ⟨?stage, exec_fwVerifyComplete_without_session, ?session, ?timeout, ?commands, ?patches, ?instants⟩
  case stage =>
    intro h p data s o k runs good may mode acts rests
    exact exec_fwStage_of_free good may mode acts rests
  case session =>
    intro img fails patches s x opened verifying host target pass control full
    exact exec_fwVerifyComplete_of_session img fails patches s opened verifying host target pass control full
  case timeout =>
    intro obj s x opened host late
    exact exec_fwStageTimeout_due obj s opened host late
  case commands =>
    intro h p s wide may
    refine ⟨fwVerify_takes_effect h p s wide may, fun length zeros off runs => ?_, fun length zeros on runs => ?_⟩
    · exact activation_cancelled wide may length zeros off runs
    · exact activation_waits wide may length zeros on runs
  case patches =>
    intro h p s length zeros mode acts
    exact ⟨_, .of_runCommand (show exec (.patchList h p) s = execPatchList h p s from rfl) (by simp [length, zeros]) rfl
      (mode_eq_false mode) acts (by simp) rfl⟩
  case instants =>
    intro s a waits
    refine ⟨exec_rolloutStart_due waits, exec_controlRestart_near waits, exec_controlRestart_begins waits,
      exec_controlRestartQuiesceTimeout_late, fun loaded loading => ⟨?_, ?_⟩⟩
    · exact exec_controlRestartFallback_falls waits loaded loading
    · exact exec_controlRestartComplete_trial waits loaded loading

end Sys2Proof.Machine
end

section
/-! SUPPORT. The slipway's transfer, ARP and ICMP echo (R519 to R521), and O58. -/

namespace Sys2Proof.Machine

/-! ## An offer -/

section Offer

variable {msg b : List Byte} {fails : List (BitVec 4)} {s : State}

theorem exec_slipwayOffer_unarmed (body : slipBody msg = some b) (offer : headNum b 0 1 = 1)
    (named : BitVec.ofNat 16 (headNum b 2 2) ≠ 0) (free : s.slipLink.slipObj = none)
    (unarmed : s.slipLink.slipArmed (headNum (b.drop 16) 0x00A 1) = none) :
    exec (.slipwayOffer msg fails) s = .next (s.slipLink.slipAnswer 7 (BitVec.ofNat 16 (headNum b 2 2)) 15) := by
  have meaning : exec (.slipwayOffer msg fails) s = execSlipwayOffer msg fails s := rfl
  rw [meaning, execSlipwayOffer, body]
  refine (if_neg (not_not_intro offer)).trans ((if_neg named).trans ((if_neg (by simp [free])).trans ?_))
  rw [unarmed]

theorem exec_slipwayOffer_armed (body : slipBody msg = some b) (offer : headNum b 0 1 = 1)
    (named : BitVec.ofNat 16 (headNum b 2 2) ≠ 0) (free : s.slipLink.slipObj = none) {o : Nat}
    (armed : s.slipLink.slipArmed (headNum (b.drop 16) 0x00A 1) = some o) (whole : (b.drop 16).length = 0x200)
    (pass : s.slipLink.imageCause o (headNum b 8 4) (b.drop 16) (fails.filter (· == 5)) = 0) :
    let s1 := s.slipLink
    let s2 := (s1.emptyImage (s1.stageTo o) 1).putSession o
      (some ⟨true, BitVec.ofNat 16 (headNum b 2 2), headNum b 8 4, [], 0, s1.mono, s1.mono, false⟩)
    exec (.slipwayOffer msg fails) s = .next (((s2.setFw { s2.fw with rxKib := 0 }).slipSend 2
      (BitVec.ofNat 16 (headNum b 2 2)) 0 4194304).post 0x1F6 [d16 0, d16 0]) := by
  have meaning : exec (.slipwayOffer msg fails) s = execSlipwayOffer msg fails s := rfl
  intro s1 s2
  rw [meaning, execSlipwayOffer, body]
  refine (if_neg (not_not_intro offer)).trans ((if_neg named).trans ((if_neg (by simp [free])).trans ?_))
  rw [armed]
  exact if_neg (not_not_intro ((if_neg (not_not_intro whole)).trans pass))

end Offer

/-! ## Data, DONE and the acknowledgement's timer -/

section Session

variable {msg b : List Byte} {s : State} {o : Nat} {x : Session}

theorem exec_slipwayData_in_session (body : slipBody msg = some b) (opened : s.slipLink.slipObj = some (o, x))
    (sender : headNum b 2 2 = x.sess.toNat) (staging : x.verifying = false) (data : headNum b 0 1 = 3)
    (sized : (b.drop 16).length = headNum b 8 4) (inside : headNum b 4 4 + headNum b 8 4 ≤ x.length)
    (block : headNum b 8 4 = 1024 ∨ headNum b 4 4 + headNum b 8 4 = x.length) :
    let s1 := s.slipLink
    let y := { x with since := x.since + 1, acked := if x.since = 0 then s.mono else x.acked, last := s.mono }
    (x.bytes.length < headNum b 4 4 → exec (.slipwayData msg) s = .next (s1.slipAck o y)) ∧
    (x.bytes.length = headNum b 4 4 → x.since < 63 →
      let w := { y with bytes := x.bytes ++ b.drop 16 }
      let s2 := (s1.putSession o (some w)).growImage (s1.stageTo o) w
      exec (.slipwayData msg) s = .next (s2.setFw { s2.fw with rxKib := w.bytes.length / 1024 })) := by
  have meaning : exec (.slipwayData msg) s = execSlipwayData msg s := rfl
  have taken : ¬ (headNum b 0 1 ≠ 3 || headNum b 2 2 ≠ x.sess.toNat || x.verifying || (b.drop 16).length ≠ headNum b 8 4
      || x.length < headNum b 4 4 + headNum b 8 4
      || (headNum b 8 4 ≠ 1024 && headNum b 4 4 + headNum b 8 4 ≠ x.length)) = true := by
    rcases block with full | last
    · rw [full] at inside
      simp [data, sender, staging, sized, inside, full]
    · simp [data, sender, staging, sized, last]
  refine ⟨fun gap => ?_, fun next few => ?_⟩
  · rw [meaning, execSlipwayData, body, opened]
    exact (if_neg taken).trans (if_pos gap)
  · rw [meaning, execSlipwayData, body, opened]
    refine (if_neg taken).trans ((if_neg (Nat.not_lt.mpr next.ge)).trans ?_)
    simp only [next.symm, if_true]
    exact congrArg Host.Outcome.next (if_neg (Nat.not_le.mpr (Nat.succ_lt_succ few)))

theorem exec_slipwayDone_in_session (body : slipBody msg = some b) (opened : s.slipLink.slipObj = some (o, x))
    (sender : headNum b 2 2 = x.sess.toNat) (staging : x.verifying = false) (done : headNum b 0 1 = 5) :
    (x.bytes.length < x.length → exec (.slipwayDone msg) s = .next (s.slipLink.slipAck o x)) ∧
    (x.length ≤ x.bytes.length → exec (.slipwayDone msg) s
      = .next ((s.slipLink.putSession o (some { x with verifying := true })).putImage (s.slipLink.stageTo o)
        { s.slipLink.image (s.slipLink.stageTo o) with state := 2 })) := by
  have meaning : exec (.slipwayDone msg) s = execSlipwayDone msg s := rfl
  have taken : ¬ (headNum b 0 1 ≠ 5 || headNum b 2 2 ≠ x.sess.toNat || x.verifying) = true := by simp [done, sender, staging]
  refine ⟨fun gap => ?_, fun whole => ?_⟩ <;> rw [meaning, execSlipwayDone, body, opened]
  · exact (if_neg taken).trans (if_pos gap)
  · exact (if_neg taken).trans (if_neg (Nat.not_lt.mpr whole))

theorem exec_slipwayAckTimer_due (opened : s.slipObj = some (o, x)) (staging : x.verifying = false) (unanswered : 0 < x.since)
    (late : x.acked + ms 1 ≤ s.mono) : exec .slipwayAckTimer s = .next (s.slipAck o x) := by
  have meaning : exec .slipwayAckTimer s = execSlipwayAckTimer s := rfl
  rw [meaning, execSlipwayAckTimer, opened]
  exact congrArg Host.Outcome.next (if_pos (by simp [staging, unanswered, late]))

end Session

/-! ## ARP and ICMP echo -/

theorem length_beBytes (n v : Nat) : (beBytes n v).length = n := by
  induction n with
  | zero => rfl
  | succ n ih => exact congrArg Nat.succ ih

section Answer

variable {mac : BitVec 48} {a b : Word} {s : State}

theorem exec_slipwayArp_other (other : b.toNat ≠ s.slipLink.portIp) : exec (.slipwayArp mac a b) s = .next s.slipLink :=
  if_pos other

theorem exec_slipwayIcmpEcho_other (other : b.toNat ≠ s.slipLink.portIp) (data : List Byte) :
    exec (.slipwayIcmpEcho mac a b data) s = .next s.slipLink :=
  if_pos other

theorem exec_slipwayArp_own (own : b.toNat = s.slipLink.portIp) :
    ∃ m, m.length = 28 ∧ exec (.slipwayArp mac a b) s
      = .next (s.slipLink.setFw { s.slipLink.fw with answers := s.slipLink.fw.answers ++ [(mac.toNat, m)] }) :=
  ⟨_, by simp only [List.length_append, length_beBytes, List.length_cons, List.length_nil], if_neg (not_not_intro own)⟩

theorem exec_slipwayIcmpEcho_own (own : b.toNat = s.slipLink.portIp) (data : List Byte) :
    ∃ m, m.drop 12 = data ∧ exec (.slipwayIcmpEcho mac a b data) s
      = .next (s.slipLink.setFw { s.slipLink.fw with answers := s.slipLink.fw.answers ++ [(mac.toNat, m)] }) :=
  ⟨_, List.drop_left' (by simp only [List.length_append, length_beBytes, List.length_cons, List.length_nil]),
    if_neg (not_not_intro own)⟩

end Answer

/-- Settles O58, one lemma for each message of the port. -/
theorem slipwayCompletes : Obligations.SlipwayCompletes := by
  unfold Obligations.SlipwayCompletes
  refine ⟨?offer, ?session, ?timer, ?own, ?other⟩
  case offer =>
    intro msg b fails s body offer s1 sess len named free
    exact ⟨exec_slipwayOffer_unarmed body offer named free, fun o => exec_slipwayOffer_armed body offer named free⟩
  case session =>
    intro msg b s o x body opened sender staging
    exact ⟨exec_slipwayData_in_session body opened sender staging, exec_slipwayDone_in_session body opened sender staging⟩
  case timer =>
    intro s o x opened staging unanswered late
    exact exec_slipwayAckTimer_due opened staging unanswered late
  case own =>
    intro mac a b s own
    exact ⟨exec_slipwayArp_own own, exec_slipwayIcmpEcho_own own⟩
  case other =>
    intro mac a b s other
    exact ⟨exec_slipwayArp_other other, exec_slipwayIcmpEcho_other other⟩

end Sys2Proof.Machine
end

section
/-! SUPPORT. The event log, its commands and the cores' machine checks (R527, R532, R534 to R536, R437, R540, R541), and O59. -/

namespace Sys2Proof.Machine

/-! ## The event commands (R534 to R536) -/

section Commands

variable {h : Hdr} {p : List Word} {s : State}

theorem evtRead_takes_effect (wide : devWide h = true) (may : hdrUser h = false) (length : p.length = 1) (zeros : pf p 0 28 25 = 0)
    (zeros' : pf p 0 15 8 = 0) (acts : s.mirrorRefuses 0xB00 h = false) :
    (pf p 0 31 30 = 0 → bit (par p 0) 29 = true → 1 ≤ pf p 0 7 0 → pf p 0 7 0 ≤ 32 →
      let es := (s.ev.log.filter (!·.read)).take (pf p 0 7 0)
      TakesEffect .evtRead 0xB00 h p s s.payOwed codeOk
        (mkWord [(1, b01 s.ev.ovf), (11, s.unread), (12, min 4095 s.ev.lost.toNat), (8, es.length)] :: es.flatMap LogEntry.words)) ∧
    (pf p 0 31 30 = 0 → bit (par p 0) 29 = false → 1 ≤ pf p 0 7 0 → pf p 0 7 0 ≤ 32 → ∃ rs, TakesEffect .evtRead 0xB00 h p s
      (s.setEv { s.ev with log := readFirst (pf p 0 7 0) s.ev.log, ovf := false }).payOwed codeOk rs) ∧
    (pf p 0 31 30 = 1 → 1 ≤ pf p 0 7 0 → pf p 0 24 16 + pf p 0 7 0 ≤ 512 → TakesEffect .evtRead 0xB00 h p s s codeOk
      (BitVec.ofNat 32 (pf p 0 7 0) :: (List.range (pf p 0 7 0)).map (fun i => tget z s.ev.counts (pf p 0 24 16 + i)))) ∧
    (pf p 0 31 30 = 2 → TakesEffect .evtRead 0xB00 h p s s codeOk
      ((List.range 16).map (fun w => s.ev.unack.extractLsb' (32 * w) 32))) := by
  have meaning : exec (.evtRead h p) s = execEvtRead h p s := rfl
  refine ⟨fun sel peek least most => ?_, fun sel pops least most => ?_, fun sel least most => ?_, fun sel => ?_⟩
  · exact .of_runCommand meaning (by simp [wide, length, zeros, zeros', sel, Nat.ne_of_gt least, most]) may rfl acts (by simp)
      (by simp only [sel, peek, if_true])
  · exact ⟨_, .of_runCommand meaning (by simp [wide, length, zeros, zeros', sel, Nat.ne_of_gt least, most]) may rfl acts (by simp)
      (by simp only [sel, pops, Bool.false_eq_true, if_false]; rfl)⟩
  · exact .of_runCommand meaning (by simp [wide, length, zeros, zeros', sel, Nat.ne_of_gt least, most]) may rfl acts (by simp)
      (by simp only [sel])
  · exact .of_runCommand meaning (by simp [wide, length, zeros, zeros', sel]) may rfl acts (by simp) (by simp only [sel])

theorem evtAck_range_takes_effect (wide : devWide h = true) (may : hdrUser h = false) (length : p.length = 2) (op : pf p 0 31 30 = 0)
    (zeros : pf p 0 29 25 = 0) (zeros' : pf p 0 15 10 = 0) (blank : par p 1 = 0) (least : 1 ≤ pf p 0 9 0)
    (most : pf p 0 24 16 + pf p 0 9 0 ≤ 512) (acts : s.mirrorRefuses 0xB01 h = false) :
    let l := (List.range 512).filter (fun e => pf p 0 24 16 ≤ e && e < pf p 0 24 16 + pf p 0 9 0)
    TakesEffect .evtAck 0xB01 h p s (l.foldl (fun s e => s.ackSource e) s) codeOk
      [BitVec.ofNat 32 ((l.filter (fun e => s.ev.unack.getLsbD e)).length % 1024)] := by
  have meaning : exec (.evtAck h p) s = execEvtAck h p s := rfl
  have newest : pf p 1 31 12 = 0 := by simp [pf, blank, bits]
  exact .of_runCommand meaning (by simp [wide, length, op, zeros, zeros', newest, blank, Nat.ne_of_gt least, most]) may rfl acts
    (by simp) (by simp only [op])

theorem evtMask_takes_effect (wide : devWide h = true) (may : hdrUser h = false) (length : p.length = 1)
    (zeros : pf p 0 30 25 = 0) (zeros' : pf p 0 15 10 = 0) (least : 1 ≤ pf p 0 9 0) (most : pf p 0 24 16 + pf p 0 9 0 ≤ 512)
    (mode : s.pwr.mode ≠ .slipway) (acts : s.mirrorRefuses 0xB02 h = false) :
    let on := bit (par p 0) 31
    let l := ((List.range (pf p 0 9 0)).map (pf p 0 24 16 + ·)).filter (fun e => maskable e && s.ev.mask.getLsbD e != on)
    TakesEffect .evtMask 0xB02 h p s (s.setMask (l.foldl (fun m e => putBits m e e (b01 on)) s.ev.mask)) codeOk
      [BitVec.ofNat 32 (l.length % 1024)] :=
  .of_runCommand (show exec (.evtMask h p) s = execEvtMask h p s from rfl)
    (by simp [wide, length, zeros, zeros', Nat.ne_of_gt least, most]) may (mode_eq_false mode) acts (by simp) rfl

end Commands

/-! ## The cores (R540, R541) -/

section Core

variable {core : Fin 5} {s : State}

theorem exec_coreMachineCheck_first (serves : s.host.cores.contains core.val = true) (powered : s.domain 3 = 0)
    (clean : s.host.coreFlags.contains core.val = false) : exec (.coreMachineCheck core none) s = .next (State.post
      { s with host := { s.host with coreFlags := s.host.coreFlags ++ [core.val] } } 0x010 [d16 s.host.cores.length]) :=
  (if_neg (by rw [serves, powered]; simp)).trans (if_pos (by rw [clean]; rfl))

/-- A second machine check takes the core out of service, and a spare core comes in. -/
theorem exec_coreMachineCheck_spare (serves : s.host.cores.contains core.val = true) (powered : s.domain 3 = 0) {x : Nat} {rest : List Nat}
    (again : s.host.coreFlags.contains core.val = true) (spares : s.host.coreSpares = x :: rest) :
    ∃ t u, exec (.coreMachineCheck core none) s = .next (t.substitute 4 3 (lifeLoc 2 0x3F core 0) core x) ∧
      t = u.post 0x011 [d16 s.host.cores.length, d16 1] ∧ OnlyIn [.host] s u ∧
      u.host.cores = s.host.cores.filter (· != core.val) ++ [x] ∧ u.host.coreSpares = rest := by
  have meaning : exec (.coreMachineCheck core none) s = execCoreMachineCheck core none s := rfl
  have checked : ¬ (!s.host.cores.contains core.val || s.domain 3 ≠ 0) = true := by rw [serves, powered]; simp
  have flagged : ¬ (!s.host.coreFlags.contains core.val) = true := by rw [again]; simp
  refine ⟨_, { s with host := { s.host with cores := s.host.cores.filter (· != core.val) ++ [x]
                                            coreFlags := s.host.coreFlags.filter (· != core.val), coreSpares := rest } },
    ?_, rfl, by simp [onlyIn_iff], rfl, rfl⟩
  rw [meaning, execCoreMachineCheck]
  refine (if_neg checked).trans ((if_neg flagged).trans ?_)
  simp only [spares]

theorem exec_coreMachineCheck_last (serves : s.host.cores.contains core.val = true) (powered : s.domain 3 = 0)
    (again : s.host.coreFlags.contains core.val = true) (spares : s.host.coreSpares = []) (alone : s.host.cores.length = 1) :
    exec (.coreMachineCheck core none) s = .next (s.post 0x011 [d16 1, d16 0]) := by
  have meaning : exec (.coreMachineCheck core none) s = execCoreMachineCheck core none s := rfl
  have checked : ¬ (!s.host.cores.contains core.val || s.domain 3 ≠ 0) = true := by rw [serves, powered]; simp
  have flagged : ¬ (!s.host.coreFlags.contains core.val) = true := by rw [again]; simp
  rw [meaning, execCoreMachineCheck]
  refine (if_neg checked).trans ((if_neg flagged).trans ?_)
  simp only [spares, alone, if_true]

end Core

/-- Settles O59, one lemma for each command of the family and each outcome of a core's machine check. -/
theorem eventsComplete : Obligations.EventsComplete := by
  unfold Obligations.EventsComplete
  refine ⟨fun s => ⟨fun empty => ?_, fun r first => ?_⟩, fun h p s wide may => ⟨?read, ?ack, ?mask⟩, fun core s serves powered => ?cores⟩
  · have meaning : exec .eventLogEntry s = execEventLogEntry s := rfl
    rw [meaning, execEventLogEntry, empty]
  · have meaning : exec .eventLogEntry s = execEventLogEntry s := rfl
    rw [meaning, execEventLogEntry, first]
  case read => exact evtRead_takes_effect wide may
  case ack => exact evtAck_range_takes_effect wide may
  case mask => exact evtMask_takes_effect wide may
  case cores =>
    exact ⟨exec_coreMachineCheck_first serves powered, fun x rest => exec_coreMachineCheck_spare serves powered,
      exec_coreMachineCheck_last serves powered⟩

end Sys2Proof.Machine
end

section
/-! SUPPORT. PRBS, built-in tests and the TAP (R17, R545 to R559). O60 is not settled here: `testsComplete_iff_seedsAlike`
below says what it comes to. -/

namespace Sys2Proof.Machine

/-! ## PRBS -/

/-- Free values that follow each other give a generator one and the same state. `Config.freeValue` has no body (log 2), so that
neither this nor its negation can be shown. -/
def SeedsAlike : Prop := ∀ n, seedOf (Config.freeValue (n + 1)) = seedOf (Config.freeValue n)

/-- The units `us` configured, their generators beginning at `seed` (R545). -/
def State.configureWith (s : State) (type : Nat) (p0 p1 : Word) (us : List Nat) (seed : BitVec 31) : State :=
  us.foldl (fun s u => s.putPrbs type u ((s.prbs type u).configure p0 p1 seed)) s

/-- PRBS_CFG puts its units to a run whose generator begins at the free value that the command has drawn (log 119). -/
theorem exec_prbsCfg_of_test {h : Hdr} {p : List Word} {s : State} (good : prbsBad h p = false) (may : hdrUser h = false)
    (mode : s.pwr.mode = .test) (runs : s.slipOrQuiet = false) (other : pf p 0 31 29 ≠ 3) (acts : s.mirrorRefuses 0xA00 h = false) :
    exec (.prbsCfg h p) s = .next (State.loopStarts ((s.draw.2.configureWith (pf p 0 31 29) (par p 0) (par p 1) (prbsRange (par p 0))
      (seedOf s.draw.1)).finishDone 0xA00 h p codeOk [])) := by
  have meaning : exec (.prbsCfg h p) s = execPrbsCfg h p s := rfl
  have inTest : (s.pwr.mode == .test) = true := by simp [mode]
  have wrong : (s.slipOrQuiet || (!(s.pwr.mode == .test) && (pf p 0 31 29 == 3 || pf p 0 31 29 == 4))) = false := by
    simp [runs, inTest]
  rw [meaning, execPrbsCfg, runSimple_ok good may wrong acts (by simp [inTest, other])]
  rfl

/-- A seed drawn anew for each unit, and left undrawn, is the next one for all of them. -/
theorem State.configureWith_next (type : Nat) (p0 p1 : Word) (us : List Nat) (s : State) :
    us.foldl (fun s u => s.putPrbs type u ((s.prbs type u).configure p0 p1 (seedOf s.draw.1))) s
      = s.configureWith type p0 p1 us (seedOf (Config.freeValue s.free)) := by
  induction us generalizing s with
  | nil => rfl
  | cons u us ih => exact ih (s.putPrbs type u ((s.prbs type u).configure p0 p1 (seedOf s.draw.1)))

theorem State.test_prbsCfg_ends (s : State) (op : Nat) (h : Hdr) (p : List Word) (code : Byte) (rs : List Word) :
    (s.finishDone op h p code rs).loopStarts.test = s.test :=
  State.onlyIn_finishDone .test (by decide)

theorem exec_pcieLoopbackEnd_due {s : State} (loops : s.host.loopback = true)
    (due : s.host.loopAt + ms (bits (s.prbs 4 0).ins 15 0) ≤ s.mono) :
    exec .pcieLoopbackEnd s = .next { s.stopRuns 4 (fun _ => true) with host := { s.host with loopback := false } } :=
  congrArg Host.Outcome.next (if_pos (by simp [loops, due]))

theorem prbsRead_takes_effect (h : Hdr) (p : List Word) (found : List (Nat × Nat)) (s : State) (length : p.length = 1)
    (type : pf p 0 31 29 < 6) (count : pf p 0 19 12 ≤ 31) (zeros : pf p 0 10 0 = 0)
    (inside : pf p 0 28 20 + pf p 0 19 12 + 1 ≤ prbsUnits (pf p 0 31 29)) (runs : s.slipOrQuiet = false)
    (acts : s.mirrorRefuses 0xA01 h = false) :
    let us := (List.range (pf p 0 19 12 + 1)).map (pf p 0 28 20 + ·)
    let s1 := s.noteFound (pf p 0 31 29) us found
    TakesEffect (fun h p => .prbsRead h p found) 0xA01 h p s
      (if bit (par p 0) 11 = true then us.foldl (fun s u => s.putPrbs (pf p 0 31 29) u
        { s.prbs (pf p 0 31 29) u with nbits := 0, errors := 0, lockLoss := 0 }) s1 else s1) codeOk
      (us.flatMap (fun u => if s1.unitHidden (pf p 0 31 29) u then [0, 0, 0, 0] else (s1.prbs (pf p 0 31 29) u).words)) :=
  .of_runCommand (c := fun h p => .prbsRead h p found) (show exec (.prbsRead h p found) s = execPrbsRead h p found s from rfl)
    (by simp [length, type, count, zeros, Nat.not_lt.mpr inside]) rfl runs acts (by simp) rfl

theorem exec_prbsChecker (type : Fin 6) (unit : Fin 192) (s : State) (inside : unit.val < prbsUnits type)
    (runs : (s.prbs type unit).runs = true) :
    (∀ rx, (s.prbs type unit).chk = true → (s.prbs type unit).lock = false → (s.prbs type unit).loop = 0 →
      (s.prbs type unit).locks (symbolBits type rx) = true → exec (.prbsCheckerLock type unit rx) s
        = .next (s.putPrbs type unit { s.prbs type unit with lock := true })) ∧
    (∀ n e, (s.prbs type unit).lock = true → 1024 < e → e ≤ n → let x := (s.prbs type unit).count (4 * n) e
      exec (.prbsCheckerLockLoss type unit n e) s
        = .next (s.putPrbs type unit { x with lock := false, lockLoss := min 65535 (x.lockLoss + 1) })) := by
  refine ⟨fun rx checks free external found => ?_, fun n e locked many within => ?_⟩
  · exact congrArg Host.Outcome.next (if_pos (by simp [inside, runs, checks, free, external, found]))
  · exact congrArg Host.Outcome.next (if_pos (by simp [inside, runs, locked, many, within]))

/-! ## Built-in tests -/

theorem bistRun_takes_effect (h : Hdr) (p : List Word) (s : State) (length : p.length = 1) (zeros : pf p 0 24 0 = 0)
    (kind : pf p 0 30 27 ≤ 8) (may : hdrUser h = false) (acts : s.mirrorRefuses 0xA02 h = false) :
    (bit (par p 0) 31 = true → TakesEffect .bistRun 0xA02 h p s s codeOk s.bistReport) ∧
    (bit (par p 0) 31 = false → pf p 0 30 27 ≠ 6 → bistTarget h (pf p 0 30 27) (bit (par p 0) 25) = true →
      s.bistMode (pf p 0 30 27) = true → s.bistRun (pf p 0 30 27) = none →
      let run := tset none0 s.test.running (pf p 0 30 27) (some (par p 0, h.slice.toNat))
      TakesEffect .bistRun 0xA02 h p s { s with test := { s.test with running := run } } codeDeferred []) := by
  have meaning : exec (.bistRun h p) s = execBistRun h p s := rfl
  refine ⟨fun reads => ?_, fun starts other target mode free => ?_⟩
  · exact .of_runCommand meaning (by simp [length, zeros, kind, reads]) may (by simp [reads]) acts (by simp [reads]) (by simp [reads])
  · exact .of_runCommand meaning (by simp [length, zeros, kind, starts, other, target]) may (by simp [starts, mode]) acts
      (by simp [starts, other, free]) (by simp [starts])

theorem exec_bistComplete_unrepaired (kind : Fin 9) (failing : List Nat) (t : Nat) (s : State) (w : Word) (slice : Nat)
    (running : s.bistRun kind = some (w, slice)) :
    (failing = [] → bit w 26 = false →
      exec (.bistComplete kind failing t) s = .next ((s.bistWipe kind slice).bistEnd kind 0 0 t)) ∧
    (failing ≠ [] → bit w 26 = false →
      exec (.bistComplete kind failing t) s = .next ((s.bistWipe kind slice).bistEnd kind 2 failing.length t)) := by
  have meaning : exec (.bistComplete kind failing t) s = execBistComplete kind failing t s := rfl
  refine ⟨fun pass keep => ?_, fun bad keep => ?_⟩ <;> rw [meaning, execBistComplete, running]
  · simp [pass, keep]
  · simp [bad, keep]

/-! ## The TAP -/

theorem State.fabricFor_test (s : State) (m : Mode) : (s.fabricFor m).test = s.test := by
  have wakes : s.fabricWake.test = s.test := by unfold State.fabricWake; split <;> rfl
  have sleeps : s.fabricDown.test = s.test := by unfold State.fabricDown; split <;> rfl
  unfold State.fabricFor
  split
  · exact wakes
  · split
    · exact sleeps
    · rfl

theorem State.enterMode_test (s : State) (m : Mode) : (s.enterMode m).test = s.test := by
  by_cases there : s.pwr.mode = m
  · simp only [State.enterMode, there, if_true]
  · simp only [State.enterMode, there, if_false]
    rw [apply_ite State.test, State.fabricFor_test]
    simp only [ite_self]
    rfl

theorem State.dropRole_test (s : State) (cause : Nat) : (s.dropRole cause).test = s.test := by
  unfold State.dropRole
  split
  · rfl
  · simp only
    split
    · exact State.enterMode_test _ _
    · rfl

theorem State.ctrlReset_test (s : State) : s.ctrlReset.test = s.test := by
  unfold State.ctrlReset
  split
  · exact (State.enterMode_test _ _).trans (s.dropRole_test 7)
  · rfl

theorem State.dropSessions_test (s : State) : s.dropSessions.test = s.test := by
  simp only [State.dropSessions, List.foldl]
  split <;> split <;> rfl

/-- EXTEST drives the cells that SAMPLE/PRELOAD left in their latches (R557). -/
theorem State.tapTakes_drives {s : State} (alive : s.dead = false) (tdo : TapData) :
    (s.tapTakes 0 .boundary tdo).pins.ilkOwn = s.test.latch.ilkOwn ∧
    (s.tapTakes 0 .boundary tdo).test.driven = some s.test.latch := by
  have latch : (((s.tapLoad 0 .boundary tdo).ctrlReset).post 0x1F7 [d16 2, d16 (0 : BitVec 8).toNat]).cutCkpt.dropSessions.dark.test.latch
      = s.test.latch := by
    refine Eq.trans (congrArg (·.latch) (State.dropSessions_test _)) ?_
    refine Eq.trans (congrArg (·.latch) (State.ctrlReset_test _)) ?_
    simp [State.tapLoad, alive]
  unfold State.tapTakes
  simp only [alive, Bool.false_eq_true, if_false, latch]
  simp

theorem exec_tap (x d : Cells) (s : State) (alive : s.dead = false) :
    exec .tapReset s = .next (s.tapLoad 1 .idcode (.idcode 0x1B2564E3)) ∧
    exec .idcode s = .next (s.tapLoad 1 .idcode (.idcode 0x1B2564E3)) ∧
    (let t := s.tapLoad 2 .boundary (.boundary (s.capture x))
     exec (.samplePreload x d) s = .next { t with test := { t.test with latch := d } }) ∧
    exec (.extest x) s = .next (s.tapTakes 0 .boundary (.boundary (s.capture x))) ∧
    exec (.extestPulse x) s = .next (s.tapTakes 3 .boundary (.boundary (s.capture x))) ∧
    exec (.extestTrain x) s = .next (s.tapTakes 4 .boundary (.boundary (s.capture x))) ∧
    exec .clamp s = .next (s.tapTakes 5 .bypass .bypass) ∧ exec .highz s = .next (s.tapTakes 6 .bypass .bypass) ∧
    ((s.tapTakes 0 .boundary (.boundary (s.capture x))).pins.ilkOwn = s.test.latch.ilkOwn ∧
      (s.tapTakes 0 .boundary (.boundary (s.capture x))).test.driven = some s.test.latch) ∧
    ∀ c : BitVec 8, 7 ≤ c.toNat → exec (.bypass c) s = .next (s.tapLoad c .bypass .bypass) :=
  ⟨rfl, rfl, rfl, rfl, rfl, rfl, rfl, rfl, State.tapTakes_drives alive _,
    fun _ other => congrArg Host.Outcome.next (if_neg (Nat.not_lt.mpr other))⟩

/-! ## What O60 comes to -/

/-- A die-wide command of PRIV 1 from ring 0. -/
def ringHdr : Hdr := ⟨.ring 0, 0, 0, 1, false, false, 0, 0x3F, 0⟩

/-- In mode TEST, with `n` free values drawn. -/
def testingAfter (n : Nat) : State := { State.reset with free := n, pwr := { State.reset.pwr with mode := .test } }

/-- Unit 191 of the line lanes begins at the seed that it is given. -/
theorem testingAfter_configured (n : Nat) (seed : BitVec 31) :
    (((testingAfter n).draw.2.configureWith 1 0x2BF00C00 0 (prbsRange 0x2BF00C00) seed).prbs 1 191).seed = seed := rfl

/-- The clause of PRBS_CFG writes `s.draw.1` under a binder of its own `s`: it reads the value after the one that the command
has drawn, and asks that both give one state of the generator. -/
theorem seedsAlike_of_testsComplete (all : Obligations.TestsComplete) : SeedsAlike := by
  unfold Obligations.TestsComplete at all
  intro n
  have acts : (testingAfter n).mirrorRefuses 0xA00 ringHdr = false := show State.reset.mirrorRefuses 0xA00 ringHdr = false by decide
  have said := all.1 ringHdr [0x2BF00C00, 0] (testingAfter n) (by decide) (by decide) rfl rfl (by decide) acts
  rw [State.configureWith_next] at said
  have done := exec_prbsCfg_of_test (p := [0x2BF00C00, 0]) (by decide) (by decide) rfl rfl (by decide) acts
  have same := congrArg State.test (Host.Outcome.next.inj (said.symm.trans done))
  simp only [State.test_prbsCfg_ends] at same
  have seeds := congrArg (fun t : TestState => (tget dflt t.prbs (1 * 512 + 191)).seed) same
  exact (testingAfter_configured n _).symm.trans (seeds.trans (testingAfter_configured n _))

/-- O60 says that PRBS, built-in tests and the TAP behave as they do, and that free values which follow each other are alike as
seeds. The first is shown; the second cannot be settled. -/
theorem testsComplete_iff_seedsAlike : Obligations.TestsComplete ↔ SeedsAlike := by
  refine ⟨seedsAlike_of_testsComplete, fun alike => ?_⟩
  unfold Obligations.TestsComplete
  refine ⟨fun h p s good may mode runs other acts => ?_, fun s => exec_pcieLoopbackEnd_due, prbsRead_takes_effect, exec_prbsChecker,
    bistRun_takes_effect, exec_bistComplete_unrepaired, exec_tap⟩
  refine (exec_prbsCfg_of_test good may mode runs other acts).trans ?_
  rw [State.configureWith_next, show seedOf (Config.freeValue s.draw.2.free) = seedOf s.draw.1 from alike s.free]

end Sys2Proof.Machine
end
